-- ==== Sys2Proof/Word.lean ====
section
/-! DEFINITION. The words of the KZ9 (R6, R7, R51, R95): plain names for bit vectors of the widths the manual uses,
and the signed reading of a word. -/

namespace Sys2Proof

/-- One byte of memory. -/
abbrev Byte := BitVec 8

/-- A 32-bit register value (R40). -/
abbrev Word := BitVec 32

/-- A 64-bit code word, address or register pair (R51, R65). -/
abbrev Word64 := BitVec 64

/-- One bit per lane of a wave (R24, R284). -/
abbrev LaneMask := BitVec 32

/-- Bits `hi` down to `lo` of a natural number, as the manual's `Bits(x, hi, lo)`. -/
def bits (x hi lo : Nat) : Nat := x / 2 ^ lo % 2 ^ (hi + 1 - lo)

/-- The value of an `n`-bit number read as two's complement (R95). -/
def signed (n x : Nat) : Int := if x % 2 ^ n < 2 ^ (n - 1) then (x % 2 ^ n : Nat) else (x % 2 ^ n : Nat) - (2 ^ n : Nat)

/-- The low `n` bits of an integer, two's complement (R120). -/
def wrap (n : Nat) (t : Int) : Nat := (t % (2 ^ n : Nat)).toNat

end Sys2Proof
end

