-- ==== Sys2Proof/Syntax.lean ====
section
/-! DEFINITION. The instructions of the KZ9 and the indivisible steps of its units: one constructor of `Instr` per row of
spec/opcode_table.json. A wave instruction carries its operands as decoded from the word (R61 to R69); a step of a device
unit or of the outside carries what names the object it acts on. -/

namespace Sys2Proof

/-- A destination operand (R64): a lane register, a scalar register, or the discarding zero. -/
inductive Dst where
  | v (n : Fin 192)
  | s (n : Fin 48)
  | zero
  deriving DecidableEq, Repr

/-- A source operand (R64). -/
inductive Src where
  | v (n : Fin 192)
  | s (n : Fin 48)
  | zero
  | lit
  | lane
  deriving DecidableEq, Repr

/-- A predicate source that may be negated (R116, class pcomb). -/
structure PComb where
  p : Fin 8
  neg : Bool
  deriving DecidableEq, Repr

/-- How the second guard term is combined with the first (R61 GC, R63). -/
inductive GuardComb where
  | only
  | and (q : Fin 8) (neg : Bool)
  | or (q : Fin 8) (neg : Bool)
  deriving DecidableEq, Repr

/-- The guard of a full instruction (R61, R63). -/
structure Guard where
  p : Fin 8
  neg : Bool
  comb : GuardComb
  deriving DecidableEq, Repr

/-- The guard that is true in every lane (R63). -/
def Guard.always : Guard := { p := 7, neg := false, comb := .only }

/-- The rounding modes of R109. -/
inductive Rnd where
  | rne | rz | rp | rm
  deriving DecidableEq, Repr

/-- The FP mode of R131. -/
structure FpMode where
  rnd : Rnd
  sat : Bool
  deriving DecidableEq, Repr

/-- The source-modifier byte of R131: `true` where the modifier is written. -/
structure SMod where
  na : Bool
  nb : Bool
  nc : Bool
  aa : Bool
  ab : Bool
  ac : Bool
  deriving DecidableEq, Repr

/-- The MOD of IADD and ISUB (R119). -/
inductive AddMod where
  | wrap | sat | satZ
  deriving DecidableEq, Repr

/-- The integer comparisons of R122. -/
inductive ICmp where
  | eq | ne | lt | le | gt | ge
  deriving DecidableEq, Repr

/-- How a compare is combined with its predicate source (R122). -/
inductive PCombine where
  | and | or | xor
  deriving DecidableEq, Repr

/-- The floating-point comparisons of R134. -/
inductive FCmp where
  | eq | ne | lt | le | gt | ge | num | nan | equ | neu | ltu | leu | gtu | geu
  deriving DecidableEq, Repr

/-- The compare byte of R134. -/
structure FCompare where
  cmp : FCmp
  aa : Bool
  ab : Bool
  deriving DecidableEq, Repr

/-- The forms of PACK (R151), each with the operands it uses. -/
inductive PackForm where
  | h16 (a b : Src)
  | b8 (a b c e : Src)
  | n4 (a : Src)
  | s4sat (a : Src)
  | z4sat (a : Src)
  deriving DecidableEq, Repr

/-- The forms of UNPACK (R152). -/
inductive UnpackForm where
  | z16 | s16 | z8 | s8 | z4 | s4
  deriving DecidableEq, Repr

/-- The types of CVT (R148). -/
inductive CvtTy where
  | s8 | z8 | s16 | z16 | s32 | z32 | s64 | z64 | f16 | bf16 | f32 | f64 | e4m3 | e5m2 | e2m1 | e8m0
  deriving DecidableEq, Repr

/-- The operations of the pair opcode map (R93). -/
inductive PairOp where
  | mov | iadd | isub | ineg | iabs | imul24 | imul24h | imin | imax | shl | shr | sha | brev | popc | clz | ctz
  | fadd | fmul | fmin | fmax
  | hadd2F16 | hadd2Bf16 | hmul2F16 | hmul2Bf16 | hmin2F16 | hmin2Bf16 | hmax2F16 | hmax2Bf16
  deriving DecidableEq, Repr

/-- One half of a pair word (R67); `b` is absent for a one-source operation. -/
inductive PairHalf where
  | empty
  | op (o : PairOp) (d : Dst) (a : Src) (b : Option Src)
  deriving DecidableEq, Repr

/-- The segment widths of the shuffles (R292). -/
inductive ShflWidth where
  | w32 | w16 | w8 | w4 | w2 | w1
  deriving DecidableEq, Repr

/-- The operations of REDUX and SCAN (R296). -/
inductive ReduxOp where
  | add | min | minZ | max | maxZ | and | or | xor | fadd | fmin | fmax
  deriving DecidableEq, Repr

/-- The scopes of the attribute byte (R191, R202). -/
inductive Scope where
  | wave | wg | clu | die | dev | sys
  deriving DecidableEq, Repr

/-- The orders of the attribute byte (R202). -/
inductive Order where
  | rlx | acq | rel | ar
  deriving DecidableEq, Repr

/-- The cache hints of the attribute byte (R202, R203): timing only. -/
inductive Hint where
  | norm | strm | keep | nol1
  deriving DecidableEq, Repr

/-- The attribute byte of R202; `bit2` is FRESH for loads and W64 for atomics. -/
structure Attr where
  scope : Scope
  order : Order
  bit2 : Bool
  hint : Hint
  deriving DecidableEq, Repr

/-- The load sizes of R204. -/
inductive LoadSize where
  | z8 | z16 | b32 | b64 | b128 | s8 | s16
  deriving DecidableEq, Repr

/-- The store sizes of R204. -/
inductive StoreSize where
  | b8 | b16 | b32 | b64 | b128
  deriving DecidableEq, Repr

/-- The atomic operations of R204; CAS carries its third operand in the instruction. -/
inductive AtomOp where
  | add | fadd | min | minZ | max | maxZ | and | or | xor | exch | cas
  deriving DecidableEq, Repr

/-- The copy directions of R204. -/
inductive CpyDir where
  | d2s | d2c | s2d | c2d | d2d
  deriving DecidableEq, Repr

/-- An A or B operand of SPAN.MMA (R162, R170): a register run or a scalar pair that holds a scratchpad descriptor. -/
inductive SpanSrc where
  | run (n : Fin 192)
  | desc (n : Fin 48)
  deriving DecidableEq, Repr

/-- The operands every SPAN.MMA form shares (R170): accumulator block, A, B, and the two tile indices. -/
structure MmaOps where
  d : Fin 192
  a : SpanSrc
  b : SpanSrc
  bTile : Fin 16
  aTile : Fin 16
  deriving DecidableEq, Repr

/-- The blending operations of PIX.BLEND (R266). -/
inductive BlendOp where
  | rep | over | add
  deriving DecidableEq, Repr

/-- The die byte of ENQ (R320). -/
inductive EnqDie where
  | vd (n : Fin 8)
  | any
  | own
  deriving DecidableEq, Repr

/-- A debugger's target (R421): how wide a command acts, and the number of the node, gang or wave it names. -/
structure DbgTarget where
  kind : Nat
  num : Nat
  deriving DecidableEq, Repr

/-- One constructor per row of spec/opcode_table.json, in the table's order but for the last group. -/
inductive Instr where
  -- integer, address and moves (R119)
  | iadd (g : Guard) (d : Dst) (a b : Src) (m : AddMod)
  | iadd3 (g : Guard) (d : Dst) (a b c : Src)
  | isub (g : Guard) (d : Dst) (a b : Src) (m : AddMod)
  | ineg (g : Guard) (d : Dst) (a : Src) (sat : Bool)
  | iabs (g : Guard) (d : Dst) (a : Src) (sat : Bool)
  | imul24 (g : Guard) (d : Dst) (a b : Src) (z : Bool)
  | imul24h (g : Guard) (d : Dst) (a b : Src) (z : Bool)
  | imad24 (g : Guard) (d : Dst) (a b c : Src) (z : Bool)
  | imul (g : Guard) (d : Dst) (a b : Src)
  | imulh (g : Guard) (d : Dst) (a b : Src) (z : Bool)
  | imad (g : Guard) (d : Dst) (a b c : Src)
  | imin (g : Guard) (d : Dst) (a b : Src) (z : Bool)
  | imax (g : Guard) (d : Dst) (a b : Src) (z : Bool)
  | isetp (g : Guard) (d : Fin 8) (a b : Src) (c : PComb) (cmp : ICmp) (z : Bool) (k : PCombine)
  | sel (g : Guard) (d : Dst) (a b : Src) (c : PComb) (wide : Bool)
  | lop3 (g : Guard) (d : Dst) (a b c : Src) (table : BitVec 8)
  | shl (g : Guard) (d : Dst) (a b : Src)
  | shr (g : Guard) (d : Dst) (a b : Src)
  | sha (g : Guard) (d : Dst) (a b : Src)
  | shf (g : Guard) (d : Dst) (a b c : Src) (left : Bool)
  | bfe (g : Guard) (d : Dst) (a b c : Src) (sext : Bool)
  | bfi (g : Guard) (d : Dst) (a b c e : Src)
  | brev (g : Guard) (d : Dst) (a : Src)
  | popc (g : Guard) (d : Dst) (a : Src)
  | clz (g : Guard) (d : Dst) (a : Src)
  | ctz (g : Guard) (d : Dst) (a : Src)
  | prmt (g : Guard) (d : Dst) (a b c : Src)
  | lea (g : Guard) (d : Dst) (a b : Src) (shift : Fin 32) (z : Bool)
  | iadd64 (g : Guard) (d : Dst) (a b : Src) (sub : Bool)
  | mov (g : Guard) (d : Dst) (a : Src) (wide : Bool)
  | movi (g : Guard) (d : Dst) (imm : BitVec 8) (z : Bool)
  | movs (g : Guard) (d : Dst) (num : Fin 256)
  | mts (g : Guard) (a : Src) (num : Fin 256)
  | plop3 (g : Guard) (d a b c : Fin 8) (table : BitVec 8)
  -- floating point (R119)
  | fadd (g : Guard) (d : Dst) (a b : Src) (sm : SMod) (fm : FpMode)
  | fmul (g : Guard) (d : Dst) (a b : Src) (sm : SMod) (fm : FpMode)
  | fmin (g : Guard) (d : Dst) (a b : Src) (sm : SMod)
  | fmax (g : Guard) (d : Dst) (a b : Src) (sm : SMod)
  | ffma (g : Guard) (d : Dst) (a b c : Src) (sm : SMod) (fm : FpMode)
  | fsetp (g : Guard) (d : Fin 8) (a b : Src) (c : PComb) (cmp : FCompare) (k : PCombine)
  | fclass (g : Guard) (d : Dst) (a : Src) (wide : Bool)
  | frnd (g : Guard) (d : Dst) (a : Src) (rnd : Rnd) (wide : Bool)
  | dadd (g : Guard) (d : Dst) (a b : Src) (sm : SMod) (fm : FpMode)
  | dmul (g : Guard) (d : Dst) (a b : Src) (sm : SMod) (fm : FpMode)
  | dfma (g : Guard) (d : Dst) (a b c : Src) (sm : SMod) (fm : FpMode)
  | dsetp (g : Guard) (d : Fin 8) (a b : Src) (c : PComb) (cmp : FCompare) (k : PCombine)
  -- packed, dot product, conversion, special functions (R141)
  | hadd2F16 (g : Guard) (d : Dst) (a b : Src) (sm : SMod) (fm : FpMode)
  | hadd2Bf16 (g : Guard) (d : Dst) (a b : Src) (sm : SMod) (fm : FpMode)
  | hmul2F16 (g : Guard) (d : Dst) (a b : Src) (sm : SMod) (fm : FpMode)
  | hmul2Bf16 (g : Guard) (d : Dst) (a b : Src) (sm : SMod) (fm : FpMode)
  | hfma2F16 (g : Guard) (d : Dst) (a b c : Src) (sm : SMod) (fm : FpMode)
  | hfma2Bf16 (g : Guard) (d : Dst) (a b c : Src) (sm : SMod) (fm : FpMode)
  | hmin2F16 (g : Guard) (d : Dst) (a b : Src) (sm : SMod)
  | hmin2Bf16 (g : Guard) (d : Dst) (a b : Src) (sm : SMod)
  | hmax2F16 (g : Guard) (d : Dst) (a b : Src) (sm : SMod)
  | hmax2Bf16 (g : Guard) (d : Dst) (a b : Src) (sm : SMod)
  | hsetp2F16 (g : Guard) (d : Fin 4) (a b : Src) (c : PComb) (cmp : FCompare) (k : PCombine)
  | hsetp2Bf16 (g : Guard) (d : Fin 4) (a b : Src) (c : PComb) (cmp : FCompare) (k : PCombine)
  | dot4S8 (g : Guard) (d : Dst) (a b c : Src) (sat mix : Bool)
  | dot4Z8 (g : Guard) (d : Dst) (a b c : Src) (sat mix : Bool)
  | dot8S4 (g : Guard) (d : Dst) (a b c : Src) (sat mix : Bool)
  | dot8Z4 (g : Guard) (d : Dst) (a b c : Src) (sat mix : Bool)
  | dot4fE4m3 (g : Guard) (d : Dst) (a b c : Src) (sa sb : Fin 4) (fm : FpMode)
  | dot4fE5m2 (g : Guard) (d : Dst) (a b c : Src) (sa sb : Fin 4) (fm : FpMode)
  | dot8fE2m1 (g : Guard) (d : Dst) (a b c : Src) (sa sb : Fin 4) (fm : FpMode)
  | scale (g : Guard) (d : Dst) (a b : Src) (e8 : Option (Fin 4)) (fm : FpMode)
  | cvt (g : Guard) (d : Dst) (a : Src) (dt st : CvtTy) (rnd : Rnd) (sat sr : Bool)
  | pack (g : Guard) (d : Dst) (f : PackForm)
  | unpack (g : Guard) (d : Dst) (a : Src) (f : UnpackForm)
  | rcp (g : Guard) (d : Dst) (a : Src)
  | rsq (g : Guard) (d : Dst) (a : Src)
  | sqrt (g : Guard) (d : Dst) (a : Src)
  | ex2 (g : Guard) (d : Dst) (a : Src)
  | lg2 (g : Guard) (d : Dst) (a : Src)
  | sin (g : Guard) (d : Dst) (a : Src)
  | cos (g : Guard) (d : Dst) (a : Src)
  | tanh (g : Guard) (d : Dst) (a : Src)
  -- the pair word (R67)
  | pair (h1 h2 : PairHalf)
  -- cross-lane and barriers (R292)
  | shflIdx (g : Guard) (d : Dst) (a b : Src) (c : Option (Fin 8)) (w : ShflWidth)
  | shflUp (g : Guard) (d : Dst) (a b : Src) (c : Option (Fin 8)) (w : ShflWidth)
  | shflDn (g : Guard) (d : Dst) (a b : Src) (c : Option (Fin 8)) (w : ShflWidth)
  | shflXor (g : Guard) (d : Dst) (a b : Src) (c : Option (Fin 8)) (w : ShflWidth)
  | voteAny (g : Guard) (d : Fin 8) (a : PComb)
  | voteAll (g : Guard) (d : Fin 8) (a : PComb)
  | voteEq (g : Guard) (d : Fin 8) (a : PComb)
  | voteBal (g : Guard) (d : Dst) (a : PComb)
  | redux (g : Guard) (d : Dst) (a : Src) (op : ReduxOp)
  | scan (g : Guard) (d : Dst) (a : Src) (excl : Bool) (op : ReduxOp)
  | matchLanes (g : Guard) (d : Dst) (a : Src) (wide : Bool)
  | barArr (g : Guard) (name : Fin 64) (a : Src)
  | barWait (g : Guard) (name : Fin 64)
  | barSync (g : Guard) (name : Fin 64) (a : Src)
  | pbarArr (g : Guard) (a b : Src) (clu : Bool)
  | pbarWait (g : Guard) (d : Option Dst) (a b : Src) (clu : Bool)
  | gbarGrid (g : Guard)
  | gbarGang (g : Guard)
  | gbarGridComplete (node batch : Nat)
  | gbarReleaseStep (node batch : Nat)
  | gbarGangComplete (gang : Nat)
  -- control (R281)
  | bra (g : Guard)
  | brx (g : Guard) (a : Src)
  | call (g : Guard) (d : Fin 192)
  | calli (g : Guard) (d : Fin 192) (a : Src)
  | ret (g : Guard) (a : Src)
  | join (g : Guard) (j : Fin 16) (a : Option Src)
  | waitj (g : Guard) (j : Fin 16)
  | dropj (g : Guard) (j : Fin 16) (a : Option Src)
  | exit (g : Guard)
  | yield (g : Guard)
  | nop (g : Guard)
  | bpt (g : Guard) (imm : Fin 256)
  | trap (g : Guard) (imm : Fin 256)
  | rftResume (g : Guard)
  | rftTo (g : Guard) (a : Src)
  -- memory (R204)
  | ldf (g : Guard) (d : Dst) (a b : Src) (at_ : Attr) (sz : LoadSize)
  | stf (g : Guard) (a b c : Src) (at_ : Attr) (sz : StoreSize)
  | lds (g : Guard) (d : Dst) (a b : Src) (at_ : Attr) (sz : LoadSize)
  | sts (g : Guard) (a b c : Src) (at_ : Attr) (sz : StoreSize)
  | ats (g : Guard) (d : Dst) (a b : Src) (c : Option Src) (at_ : Attr) (op : AtomOp)
  | ldc (g : Guard) (d : Dst) (a b : Src) (at_ : Attr) (sz : LoadSize)
  | stc (g : Guard) (a b c : Src) (at_ : Attr) (sz : StoreSize)
  | atc (g : Guard) (d : Dst) (a b : Src) (c : Option Src) (at_ : Attr) (op : AtomOp)
  | ldg (g : Guard) (d : Dst) (a b : Src) (at_ : Attr) (sz : LoadSize)
  | stg (g : Guard) (a b c : Src) (at_ : Attr) (sz : StoreSize)
  | atg (g : Guard) (d : Dst) (a b : Src) (c : Option Src) (at_ : Attr) (op : AtomOp)
  | redg (g : Guard) (a b : Src) (at_ : Attr) (op : AtomOp)
  | pf (g : Guard) (a b : Src) (l2 : Bool)
  | ldt (g : Guard) (d : Dst) (a b : Src) (at_ : Attr) (sz : LoadSize)
  | ldh (g : Guard) (d : Dst) (a b : Src) (at_ : Attr) (sz : LoadSize)
  | sth (g : Guard) (a b c : Src) (at_ : Attr) (sz : StoreSize)
  | ath (g : Guard) (d : Dst) (a b : Src) (c : Option Src) (at_ : Attr) (op : AtomOp)
  | redh (g : Guard) (a b : Src) (at_ : Attr) (op : AtomOp)
  -- copies, sync words, fences, PUBLISH (R204)
  | cpy (g : Guard) (a b : Src) (sync : Option Src) (desc : Fin 48) (dir : CpyDir) (shw : Bool)
  | cpyx (g : Guard) (a : Fin 192) (b : Src) (sync : Option Src) (clu : Bool) (row : Fin 9)
  | copyUnit (copy unit : Nat)
  | synci (g : Guard) (a b : Src) (c : Option Src) (clu : Bool)
  | syncw (g : Guard) (d : Option Dst) (a b : Src) (clu : Bool)
  | fence (g : Guard) (at_ : Attr)
  | fenceXp (g : Guard) (at_ : Attr)
  | fencePt (g : Guard)
  | publish (g : Guard) (d : Dst) (a b c : Src)
  | accessPerformed (access : Nat)
  | faultRecordWrite (fault : Nat)
  | leaseRenewalReturn (wave unconfirmed : Nat)
  | waybillDrain (wave : Nat)
  | ptCompletion (write : Nat)
  -- span (R170)
  | hitch (g : Guard)
  | unhitch (g : Guard)
  | spanAcq (g : Guard) (d : Fin 192)
  | spanRel (g : Guard) (d : Fin 192)
  | spanRelSt (g : Guard) (d : Fin 192) (a : Fin 48) (b : Src) (shw : Bool)
  | spanZero (g : Guard) (d : Fin 192)
  | spanStat (g : Guard) (d : Dst) (sel : Fin 7)
  | spanRbox (g : Guard) (d : Fin 192) (a : Fin 192) (b : Fin 48) (bTile : Fin 16)
  | spanLoop (g : Guard) (d : Fin 192) (a b c : Fin 48) (stage : Fin 256)
  | spanMmaBf16 (g : Guard) (o : MmaOps)
  | spanMmaE4m3 (g : Guard) (o : MmaOps) (c : Fin 192)
  | spanMmaE5m2 (g : Guard) (o : MmaOps) (c : Fin 192)
  | spanMmaE2m1 (g : Guard) (o : MmaOps) (c : Fin 192)
  | spanMmaW4bf (g : Guard) (o : MmaOps) (c : Fin 192)
  | spanMmaWf4bf (g : Guard) (o : MmaOps) (c : Fin 192)
  | spanMmaE4m3B32 (g : Guard) (o : MmaOps) (c : Fin 192)
  | spanMmaE5m2B32 (g : Guard) (o : MmaOps) (c : Fin 192)
  | spanMmaE2m1B32 (g : Guard) (o : MmaOps) (c : Fin 192)
  | tenureGrant (cluster : Nat)
  | spanPassEnd (cluster : Nat)
  | tenureIdleTimeout (cluster : Nat)
  | loopResume (walk : Nat)
  -- raster (R263)
  | rastEmit (g : Guard) (a : Fin 192) (b : Fin 48) (c : Fin 192) (e : PComb)
  | pixOrd (g : Guard)
  | pixBlend (g : Guard) (a : Fin 192) (op : BlendOp)
  | pixLd (g : Guard) (d : Fin 192)
  | drawRelease (pass die : Nat)
  | fragWaveLaunch (pass die : Nat)
  | rasterPassClose (pass : Nat)
  -- system (R320, R385)
  | enq (g : Guard) (d : Dst) (a b c : Src) (die : EnqDie) (nw : Bool)
  | enqAccept (wave enq : Nat)
  | enqg (g : Guard) (d : Dst) (a : Src)
  | dhops (g : Guard) (d : Dst) (a b : Src)
  | savewC (g : Guard)
  | savewV (g : Guard) (a : Fin 192) (n : Fin 256)
  | savewS (g : Guard) (a b : Src)
  | restwC (g : Guard)
  | restwV (g : Guard) (a : Fin 192) (n : Fin 256)
  | restwS (g : Guard) (a b : Src)
  | yieldSaved (g : Guard)
  | clauseStart (wave path : Nat)
  -- the management window (R417 to R420)
  | hubDoorbell (ring head : Nat)
  | hubReplay (value : BitVec 32)
  | hubKill (value : BitVec 32)
  | hostRead (addr len : Nat)
  | hostWrite (addr : Nat) (data : List (BitVec 8))
  | hostRmw (addr : Nat) (op : AtomOp) (wide : Bool) (x y : BitVec 64)
  | hubRgnSync (value : BitVec 32)
  | hubSnap (value : BitVec 32)
  | snapCopyDone
  | hubRingCtl (ring : Nat) (value : BitVec 32)
  | hubRingBase (ring : Nat) (upper : Bool) (value : BitVec 32)
  | hubFrCtl (ring : Nat) (value : BitVec 32)
  | hubFrHead (ring : Nat) (value : BitVec 32)
  | hubFrBase (ring : Nat) (upper : Bool) (value : BitVec 32)
  | registerWrite (offset : Nat) (value : BitVec 32)
  -- firmware (R397 to R400)
  | bootSlot (value : BitVec 32)
  | raiseFloor (value : BitVec 32)
  | romVersion
  | flashId
  | readHeader (arg : BitVec 32)
  -- the debugger (R421)
  | resume (t : DbgTarget) (lanes : LaneMask)
  | step (t : DbgTarget) (lanes : LaneMask)
  | stop (t : DbgTarget)
  | readV (t : DbgTarget) (arg : BitVec 32)
  | writeV (t : DbgTarget) (arg : BitVec 32)
  | readCtl (t : DbgTarget)
  | writeCtl (t : DbgTarget)
  | debugEventPost
  -- host link and reset
  | hostLinkFailure
  | resetRelease
  -- the command processor and the distributor
  | nodeStart
  | gangPlace (site : Nat)
  | ungateDone (spoke : Nat)
  | gangRetire (gang : Nat)
  | resourceReport (spoke : Nat)
  | preemptRequest (gang : Nat)
  | preemptTake (wave : Nat)
  | preemptTimeout (gang : Nat)
  | preemptDrain (gang : Nat)
  | gangRestore (gang : Nat)
  | watchdog (node : Nat)
  | timeSliceExpire (gang : Nat)
  | headAging (batch : Nat)
  -- energy and power (R327 to R334, R361)
  | energyCharge
  | energyWindowEnd
  | powerCompare
  | boostIntervalEnd (spoke : Nat)
  | freqStepRise (cluster : Nat)
  | ballastStep (cluster : Nat)
  -- background (R405 to R407)
  | patrolScrub (spoke : Nat)
  | sramScrub (spoke : Nat)
  | calibration (cluster : Nat)
  | retraining (spoke channel : Nat)
  | agingMonitor (spoke : Nat)
  | telemetry (spoke : Nat)
  -- completions and the package
  | resultWrite (wave mark : Nat)
  | clusterModeChange (cluster : Nat)
  | packageReset
  -- what only the outside starts: attestation (R408), peers (R416), pins and links, three register rows. They stand
  -- last because Lean generates no code that builds a constructor past its 245th
  | spdmVersion (payload : List (BitVec 8))
  | spdmCapabilities (payload : List (BitVec 8))
  | spdmAlgorithms (payload : List (BitVec 8))
  | spdmDigests (payload : List (BitVec 8))
  | spdmCertificate (payload : List (BitVec 8))
  | spdmChallenge (payload : List (BitVec 8))
  | spdmMeasurements (payload : List (BitVec 8))
  | inboundWrite (req addr : Nat) (data : List (BitVec 8))
  | inboundRead (req addr len : Nat)
  | inboundAtomic (req addr : Nat) (op : AtomOp) (wide : Bool) (x y : BitVec 64)
  | ioLoadTimeout (load : Nat)
  | pwrLimitN (asserted : Bool)
  | postilionRestart (post : Nat)
  | dieGate (spoke : Nat)
  | thermN (spoke : Nat) (hot : Bool)
  | linkRetry (spoke : Nat)
  | slotWrite (offset : Nat) (value : BitVec 32)
  | hubCtxBase (upper : Bool) (value : BitVec 32)
  | hubRgnBase (upper : Bool) (value : BitVec 32)
  deriving DecidableEq, Repr

end Sys2Proof
end

