-- ==== Sys2Proof/Machine/Fp.lean ====
section
/-! DEFINITION. The number formats to the bit (R95 to R113): a format, the exact value of an encoding, one rounding of an
exact value, and the arithmetic of R132 to R136 on top of them. An exact finite value is a sign, a natural mantissa and a
power of two; nothing here rounds more than once. -/

namespace Sys2Proof.Machine

/-! ## FPSTAT flags (R48, R112) -/

/-- Invalid. -/
def flNV : BitVec 6 := 1
/-- Divide by zero. -/
def flDZ : BitVec 6 := 2
/-- Overflow. -/
def flOF : BitVec 6 := 4
/-- Underflow. -/
def flUF : BitVec 6 := 8
/-- Inexact. -/
def flNX : BitVec 6 := 16
/-- A .SAT result was clamped. -/
def flSATC : BitVec 6 := 32

/-- A flag where a condition holds. -/
def flIf (b : Bool) (f : BitVec 6) : BitVec 6 := if b then f else 0

/-! ## Formats (R97, R98) -/

/-- How a format encodes its top exponent (R97, R99). -/
inductive FmtKind where
  /-- Infinities and NaNs; a NaN with the top mantissa bit 0 signals. -/
  | ieee
  /-- Infinities and NaNs, every NaN quiet: E5M2. -/
  | e5m2
  /-- One NaN mantissa, no infinity: E4M3. -/
  | e4m3
  /-- Numbers only: E2M1. -/
  | e2m1
  deriving DecidableEq, Repr

/-- A floating-point format: exponent bits, mantissa bits, bias (R97). -/
structure Fmt where
  kind : FmtKind
  eb : Nat
  mb : Nat
  bias : Nat
  deriving DecidableEq, Repr

def fp64 : Fmt := ⟨.ieee, 11, 52, 1023⟩
def fp32 : Fmt := ⟨.ieee, 8, 23, 127⟩
def fp16 : Fmt := ⟨.ieee, 5, 10, 15⟩
def bf16 : Fmt := ⟨.ieee, 8, 7, 127⟩
def e5m2 : Fmt := ⟨.e5m2, 5, 2, 15⟩
def e4m3 : Fmt := ⟨.e4m3, 4, 3, 7⟩
def e2m1 : Fmt := ⟨.e2m1, 2, 1, 1⟩

/-- The encoding of the sign alone. -/
def Fmt.signBit (f : Fmt) : Nat := 2 ^ (f.eb + f.mb)

/-- The encoding of the largest finite magnitude (R98). -/
def Fmt.maxBits (f : Fmt) : Nat :=
  match f.kind with
  | .ieee | .e5m2 => (2 ^ f.eb - 2) * 2 ^ f.mb + (2 ^ f.mb - 1)
  | .e4m3 => (2 ^ f.eb - 1) * 2 ^ f.mb + (2 ^ f.mb - 2)
  | .e2m1 => 2 ^ (f.eb + f.mb) - 1

/-- Does the format have infinities? (R97) -/
def Fmt.hasInf (f : Fmt) : Bool :=
  match f.kind with
  | .ieee | .e5m2 => true
  | .e4m3 | .e2m1 => false

/-- The encoding of +infinity (R98). -/
def Fmt.infBits (f : Fmt) : Nat := (2 ^ f.eb - 1) * 2 ^ f.mb

/-- The canonical NaN (R98); E2M1 has none and takes +0 (R104). -/
def Fmt.nanBits (f : Fmt) : Nat :=
  match f.kind with
  | .ieee | .e5m2 => f.infBits + 2 ^ (f.mb - 1)
  | .e4m3 => 2 ^ (f.eb + f.mb) - 1
  | .e2m1 => 0

/-- The exponent of the least normal number. -/
def Fmt.emin (f : Fmt) : Int := 1 - (f.bias : Int)

/-! ## Exact values -/

/-- What an encoding stands for: a NaN, an infinity, or the exact value `(-1)^neg * m * 2^e`, zeros included. -/
inductive Fv where
  | nan (signalling : Bool)
  | inf (neg : Bool)
  | fin (neg : Bool) (m : Nat) (e : Int)
  deriving DecidableEq, Repr

/-- The value of an encoding (R97, R99). -/
def Fmt.value (f : Fmt) (b : Nat) : Fv :=
  let neg := b / f.signBit % 2 == 1
  let ex := b / 2 ^ f.mb % 2 ^ f.eb
  let man := b % 2 ^ f.mb
  let finite := if ex = 0 then Fv.fin neg man (f.emin - f.mb) else Fv.fin neg (2 ^ f.mb + man) (ex - f.bias - f.mb)
  if ex = 2 ^ f.eb - 1 then
    match f.kind with
    | .ieee => if man = 0 then .inf neg else .nan (man / 2 ^ (f.mb - 1) == 0)
    | .e5m2 => if man = 0 then .inf neg else .nan false
    | .e4m3 => if man = 2 ^ f.mb - 1 then .nan false else finite
    | .e2m1 => finite
  else finite

def Fv.isNan : Fv → Bool
  | .nan _ => true
  | .inf _ | .fin _ _ _ => false

def Fv.isSig : Fv → Bool
  | .nan s => s
  | .inf _ | .fin _ _ _ => false

def Fv.isInf : Fv → Bool
  | .inf _ => true
  | .nan _ | .fin _ _ _ => false

def Fv.isZero : Fv → Bool
  | .fin _ m _ => m == 0
  | .nan _ | .inf _ => false

/-- The sign of a value that is no NaN. -/
def Fv.neg : Fv → Bool
  | .nan _ => false
  | .inf n => n
  | .fin n _ _ => n

/-- The sign bit of an encoding. -/
def Fmt.isNeg (f : Fmt) (b : Nat) : Bool := b / f.signBit % 2 == 1

/-- An encoding with its sign cleared, and then flipped where asked: absolute value first (R131). -/
def Fmt.modify (f : Fmt) (abs neg : Bool) (b : Nat) : Nat :=
  let m := b % f.signBit
  let s := f.isNeg b && !abs
  m + (if s != neg then f.signBit else 0)

/-- An encoding with a sign. -/
def Fmt.signed (f : Fmt) (neg : Bool) (b : Nat) : Nat := b + (if neg then f.signBit else 0)

/-! ## Rounding (R101, R103, R109, R112) -/

/-- An encoding with the flags its computation raised. -/
structure FpRes where
  bits : Nat
  fl : BitVec 6
  deriving DecidableEq, Repr

/-- Does rounding a magnitude with this kept part, remainder and half move away from zero? (R109) -/
def roundsUp (rnd : Rnd) (neg odd : Bool) (rem half : Nat) : Bool :=
  match rnd with
  | .rne => decide (half < rem) || (rem == half && odd)
  | .rz => false
  | .rp => !neg && rem != 0
  | .rm => neg && rem != 0

/-- Round the magnitude `m * 2^e` to a multiple of `2^q`: the multiple, and whether it is inexact. -/
def roundAt (rnd : Rnd) (neg : Bool) (m : Nat) (e q : Int) : Nat × Bool :=
  if q ≤ e then (m * 2 ^ (e - q).toNat, false)
  else
    let k := (q - e).toNat
    let n := m / 2 ^ k
    let rem := m % 2 ^ k
    (if roundsUp rnd neg (n % 2 == 1) rem (2 ^ (k - 1)) then n + 1 else n, rem != 0)

/-- Is `n * 2^q` greater than `m * 2^e`? -/
def pow2Gt (n : Nat) (q : Int) (m : Nat) (e : Int) : Bool :=
  if q ≤ e then decide (m * 2 ^ (e - q).toNat < n) else decide (m < n * 2 ^ (q - e).toNat)

/-- The magnitude of the largest finite value of a format. -/
def Fmt.maxFin (f : Fmt) : Nat × Int :=
  match f.value f.maxBits with
  | .fin _ m e => (m, e)
  | .nan _ | .inf _ => (0, 0)

/-- The result of an overflow (R103, R104). -/
def Fmt.overflow (f : Fmt) (rnd : Rnd) (sat neg : Bool) : FpRes :=
  if sat || f.kind == .e2m1 then ⟨f.signed neg f.maxBits, flSATC ||| flNX⟩
  else
    let toInf := match rnd with
      | .rne => true
      | .rz => false
      | .rp => !neg
      | .rm => neg
    if toInf then ⟨if f.hasInf then f.signed neg f.infBits else f.nanBits, flOF ||| flNX⟩
    else ⟨f.signed neg f.maxBits, flOF ||| flNX⟩

/-- The encoding of `n * 2^q`, a magnitude that fits the format; `q` is the format's spacing at it. -/
def Fmt.encodeMag (f : Fmt) (n : Nat) (q : Int) : Nat :=
  if n < 2 ^ f.mb then n else (q + f.mb + f.bias).toNat * 2 ^ f.mb + (n - 2 ^ f.mb)

/-- Round a non-zero exact magnitude once into a format (R101, R103, R109, R112). -/
def Fmt.round (f : Fmt) (rnd : Rnd) (sat neg : Bool) (m : Nat) (e : Int) : FpRes :=
  let top : Int := e + Nat.log2 m
  let qU := top - f.mb
  let u := roundAt rnd neg m e qU
  if pow2Gt u.1 qU f.maxFin.1 f.maxFin.2 then f.overflow rnd sat neg
  else
    let q := max qU (f.emin - f.mb)
    let r := roundAt rnd neg m e q
    let tiny := pow2Gt 1 f.emin u.1 qU
    ⟨f.signed neg (f.encodeMag r.1 q), flIf r.2 flNX ||| flIf (r.2 && tiny) flUF⟩

/-- Round a possibly zero exact value; `zneg` is the sign of an exact zero (R101). -/
def Fmt.roundZ (f : Fmt) (rnd : Rnd) (sat zneg neg : Bool) (m : Nat) (e : Int) : FpRes :=
  if m = 0 then ⟨f.signed zneg 0, 0⟩ else f.round rnd sat neg m e

/-- A signed mantissa at an exponent, for exact sums. -/
def toInt (neg : Bool) (m : Nat) : Int := if neg then -(m : Int) else m

/-- The exact sum of two values as an integer multiple of a power of two. -/
def exactAdd (i : Int) (e : Int) (j : Int) (k : Int) : Int × Int :=
  let q := min e k
  (i * 2 ^ (e - q).toNat + j * 2 ^ (k - q).toNat, q)

/-- The sign of an exactly zero sum of two terms with these signs (R101). -/
def zeroSum (rnd : Rnd) (n1 n2 : Bool) : Bool := if n1 == n2 then n1 else rnd == .rm

/-- Round the exact sum of two finite terms once. -/
def Fmt.roundSum (f : Fmt) (rnd : Rnd) (sat : Bool) (n1 : Bool) (m1 : Nat) (e1 : Int) (n2 : Bool) (m2 : Nat) (e2 : Int) :
    FpRes :=
  let t := exactAdd (toInt n1 m1) e1 (toInt n2 m2) e2
  f.roundZ rnd sat (zeroSum rnd n1 n2) (decide (t.1 < 0)) t.1.natAbs t.2

/-- The canonical NaN with flags. -/
def Fmt.nan (f : Fmt) (fl : BitVec 6) : FpRes := ⟨f.nanBits, fl⟩

/-- x + y, rounded once (R132). -/
def Fmt.add (f : Fmt) (rnd : Rnd) (sat : Bool) (a b : Nat) : FpRes :=
  let x := f.value a
  let y := f.value b
  let sig := flIf (x.isSig || y.isSig) flNV
  if x.isNan || y.isNan then f.nan sig
  else match x, y with
    | .inf n, .inf k => if n == k then ⟨f.signed n f.infBits, 0⟩ else f.nan flNV
    | .inf n, _ => ⟨f.signed n f.infBits, 0⟩
    | _, .inf k => ⟨f.signed k f.infBits, 0⟩
    | .fin n m e, .fin k l d => f.roundSum rnd sat n m e k l d
    | _, _ => f.nan sig

/-- x * y, rounded once (R132). -/
def Fmt.mul (f : Fmt) (rnd : Rnd) (sat : Bool) (a b : Nat) : FpRes :=
  let x := f.value a
  let y := f.value b
  let sig := flIf (x.isSig || y.isSig) flNV
  if (x.isInf && y.isZero) || (x.isZero && y.isInf) then f.nan (sig ||| flNV)
  else if x.isNan || y.isNan then f.nan sig
  else match x, y with
    | .fin n m e, .fin k l d => f.roundZ rnd sat (n != k) (n != k) (m * l) (e + d)
    | _, _ => ⟨f.signed (x.neg != y.neg) f.infBits, 0⟩

/-- x * y + z, rounded once (R132). -/
def Fmt.fma (f : Fmt) (rnd : Rnd) (sat : Bool) (a b c : Nat) : FpRes :=
  let x := f.value a
  let y := f.value b
  let z := f.value c
  let sig := flIf (x.isSig || y.isSig || z.isSig) flNV
  let pneg := x.neg != y.neg
  if (x.isInf && y.isZero) || (x.isZero && y.isInf) then f.nan (sig ||| flNV)
  else if x.isNan || y.isNan || z.isNan then f.nan sig
  else match x, y, z with
    | .fin n m e, .fin k l d, .fin j o g => f.roundSum rnd sat (n != k) (m * l) (e + d) j o g
    | .fin _ _ _, .fin _ _ _, .inf j => ⟨f.signed j f.infBits, 0⟩
    | _, _, .inf j => if pneg == j then ⟨f.signed j f.infBits, 0⟩ else f.nan flNV
    | _, _, _ => ⟨f.signed pneg f.infBits, 0⟩

/-! ## Comparisons (R133, R134) -/

/-- The order of two values that are no NaN; zeros are equal. -/
def Fv.cmp (x y : Fv) : Ordering :=
  let rank (v : Fv) (q : Int) : Int :=
    match v with
    | .fin n m e => toInt n (m * 2 ^ (e - q).toNat)
    | .inf _ | .nan _ => 0
  match x, y with
  | .inf n, .inf k => if n == k then .eq else if n then .lt else .gt
  | .inf n, _ => if n then .lt else .gt
  | _, .inf k => if k then .gt else .lt
  | .fin _ _ e, .fin _ _ d => compare (rank x (min e d)) (rank y (min e d))
  | _, _ => .eq

/-- FMIN or FMAX on encodings (R133): −0 is less than +0. -/
def Fmt.minMax (f : Fmt) (isMax : Bool) (a b : Nat) : FpRes :=
  let x := f.value a
  let y := f.value b
  let sig := flIf (x.isSig || y.isSig) flNV
  if x.isNan && y.isNan then f.nan sig
  else if x.isNan then ⟨b, sig⟩
  else if y.isNan then ⟨a, sig⟩
  else
    let aLess := match x.cmp y with
      | .lt => true
      | .gt => false
      | .eq => x.neg && !y.neg
    let same := match x.cmp y with
      | .eq => x.neg == y.neg
      | .lt | .gt => false
    ⟨if same then a else if aLess != isMax then a else b, 0⟩

/-- The outcome of a comparison, and whether it sets NV (R134). -/
def Fmt.compare (f : Fmt) (c : FCmp) (a b : Nat) : Bool × BitVec 6 :=
  let x := f.value a
  let y := f.value b
  let un := x.isNan || y.isNan
  let sig := x.isSig || y.isSig
  let o := x.cmp y
  let rel (p : Ordering → Bool) : Bool := !un && p o
  let isEq (o : Ordering) : Bool := o == .eq
  let r : Bool := match c with
    | .eq => rel isEq
    | .ne => rel (fun o => !isEq o)
    | .lt => rel (· == .lt)
    | .le => rel (· != .gt)
    | .gt => rel (· == .gt)
    | .ge => rel (· != .lt)
    | .num => !un
    | .nan => un
    | .equ => un || isEq o
    | .neu => un || !isEq o
    | .ltu => un || o == .lt
    | .leu => un || o != .gt
    | .gtu => un || o == .gt
    | .geu => un || o != .lt
  let ordered := match c with
    | .lt | .le | .gt | .ge => true
    | .eq | .ne | .num | .nan | .equ | .neu | .ltu | .leu | .gtu | .geu => false
  (r, flIf (sig || (un && ordered)) flNV)

/-- The class mask of FCLASS (R135). -/
def Fmt.classify (f : Fmt) (a : Nat) : Nat :=
  match f.value a with
  | .inf n => if n then 2 ^ 0 else 2 ^ 7
  | .nan s => if s then 2 ^ 8 else 2 ^ 9
  | .fin n m _ =>
    if m = 0 then (if n then 2 ^ 3 else 2 ^ 4)
    else if m < 2 ^ f.mb then (if n then 2 ^ 2 else 2 ^ 5)
    else (if n then 2 ^ 1 else 2 ^ 6)

/-- FRND: an integral value in the same format (R136). -/
def Fmt.roundIntegral (f : Fmt) (rnd : Rnd) (a : Nat) : FpRes :=
  match f.value a with
  | .nan s => f.nan (flIf s flNV)
  | .inf _ => ⟨a, 0⟩
  | .fin n m e =>
    if m = 0 then ⟨a, 0⟩
    else
      let r := roundAt rnd n m e 0
      if 0 ≤ e then ⟨a, 0⟩
      else if r.1 = 0 then ⟨f.signed n 0, 0⟩
      else ⟨(f.round .rne false n r.1 0).bits, 0⟩

/-! ## Conversions (R96, R102 to R104, R110, R149) -/

/-- An integer in a range, clamped, and whether it was. -/
def clampInt (lo hi t : Int) : Int × Bool := if t < lo then (lo, true) else if hi < t then (hi, true) else (t, false)

/-- A value rounded to an integer type (R96); the answer is the integer. -/
def Fv.toInteger (v : Fv) (rnd : Rnd) (lo hi : Int) : Int × BitVec 6 :=
  match v with
  | .nan _ => (0, flNV)
  | .inf n => (if n then lo else hi, flNV)
  | .fin n m e =>
    let r := roundAt rnd n m e 0
    let c := clampInt lo hi (toInt n r.1)
    (c.1, if c.2 then flNV else flIf r.2 flNX)

/-- An exact value converted to a format (R103, R104, R149). -/
def Fmt.convert (f : Fmt) (rnd : Rnd) (sat : Bool) (v : Fv) : FpRes :=
  match v with
  | .nan s => ⟨f.nanBits, if f.kind == .e2m1 then flNV else flIf s flNV⟩
  | .inf n =>
    if sat || f.kind == .e2m1 then ⟨f.signed n f.maxBits, flSATC⟩
    else if f.hasInf then ⟨f.signed n f.infBits, 0⟩
    else ⟨f.nanBits, flNV⟩
  | .fin n m e => f.roundZ rnd sat n n m e

/-- One step of the seed generator (R111). -/
def seedStep (s : Word) : Word :=
  let a := s ^^^ (s <<< 13)
  let b := a ^^^ (a >>> 17)
  b ^^^ (b <<< 5)

/-- STOCHASTIC ROUNDING of `m * 2^e` onto the grid of spacing `2^q` with seed `s` (R110): the truncation, or one step away from
zero where the 16 bits below it and the seed carry. -/
def srOn (s : Word) (m : Nat) (e q : Int) : Nat :=
  if q ≤ e then m * 2 ^ (e - q).toNat
  else
    let k := (q - e).toNat
    let g := m % 2 ^ k * 2 ^ 16 / 2 ^ k
    m / 2 ^ k + (if 0x10000 ≤ g + s.toNat % 0x10000 then 1 else 0)

/-- An exact value converted under stochastic rounding with seed `s` (R110). Overflow is judged on the stepped result, and
tininess, as R112 has it for every mode, on the value stepped in the same way with an unbounded exponent (assumption log 16). -/
def Fmt.convertSr (f : Fmt) (sat : Bool) (s : Word) (v : Fv) : FpRes :=
  match v with
  | .nan _ | .inf _ => f.convert .rz sat v
  | .fin n m e =>
    if m = 0 then ⟨f.signed n 0, 0⟩
    else
      let free := e + Nat.log2 m - f.mb
      let q := max free (f.emin - f.mb)
      let n1 := srOn s m e q
      if pow2Gt n1 q f.maxFin.1 f.maxFin.2 then
        if sat || f.kind == .e2m1 then ⟨f.signed n f.maxBits, flSATC ||| flNX⟩
        else ⟨if f.hasInf then f.signed n f.infBits else f.nanBits, flOF ||| flNX⟩
      else
        let inexact := q > e && m % 2 ^ (q - e).toNat != 0
        let tiny := pow2Gt 1 f.emin (srOn s m e free) free
        ⟨f.signed n (f.encodeMag n1 q), flIf inexact flNX ||| flIf (inexact && tiny) flUF⟩

/-- The value of an E8M0 encoding (R102). -/
def e8m0Value (b : Nat) : Fv := if b % 256 = 255 then .nan false else .fin false 1 (b % 256 - 127)

/-- A value converted to E8M0 (R102). -/
def toE8m0 (rnd : Rnd) (sat : Bool) (v : Fv) : FpRes :=
  match v with
  | .nan _ | .inf _ => ⟨0xFF, flNV⟩
  | .fin n m e =>
    if n || m == 0 then ⟨0xFF, flNV⟩
    else
      let l := Nat.log2 m
      let k : Int := e + l
      let exact := m == 2 ^ l
      let up := !exact && (match rnd with
        | .rz | .rm => false
        | .rp => true
        | .rne => decide (3 * 2 ^ l < 2 * m) || (2 * m == 3 * 2 ^ l && (k + 127) % 2 != 0))
      let r : Int := if up then k + 1 else k
      let nx := flIf (!exact) flNX
      if 127 < r then (if sat then ⟨0xFE, flSATC ||| flNX⟩ else ⟨0xFF, flOF ||| flNX⟩)
      else if r < -127 then ⟨0x00, flUF ||| flNX⟩
      else ⟨(r + 127).toNat, nx⟩

end Sys2Proof.Machine
end

