-- ==== Sys2Proof/Config.lean ====
section
/-! DEFINITION. What the manual leaves open, as constants without a body: nothing can prove a value of one of them, so a
theorem that mentions one holds whatever it is. A free value that is fresh at each use is applied to the counter
`State.freeCtr`, which the step that reads it advances (assumption log 4). -/

namespace Sys2Proof.Config

/-- A byte the manual gives no value for: an IO resource read, an answer of the security engine (R408, R414). -/
opaque freeByte : Nat → BitVec 8

/-- A 32-bit value the manual gives no value for: aging margins, telemetry figures (R405). -/
opaque freeWord : Nat → BitVec 32

/-- Microjoules a cluster used in one microsecond, by the use counter of the free values (R361). -/
opaque freeEnergy : Nat → Nat

/-- Package power in milliwatts at a comparison, by the use counter of the free values (R328). -/
opaque freePower : Nat → Nat

/-- What a register of the workgroup, batch or cluster reads as on a postilion, which has none of them: by its site and the register's
number (R10, R45; assumption log 87). -/
opaque postSpecial : Nat → Nat → BitVec 32

/-- The bit of POST_EVENT that a trap or fault code sets (R365, R371): the manual gives each cause one bit and no number. -/
opaque eventBit : Nat → BitVec 32

/-- The address of the firmware trap handler that the running image fixes (R367). -/
opaque fwHandler : BitVec 64

/-- The address of the first clause of a postilion that the running image fixes (R393). -/
opaque fwEntry : BitVec 64

/-- The release number of the boot ROM (R400). -/
opaque romRelease : BitVec 32

/-- A byte of the SHA-384 hash of the boot ROM, by its place (R400, R408). -/
opaque romHash : Nat → BitVec 8

/-- Where in the memory of pd0 its firmware carve-out begins (R393). -/
opaque fwCarve : Nat

/-- The physical address of the heartbeat word of a postilion, by its site (R392). -/
opaque beatWord : Nat → Nat

/-- The private device key of the security engine (R408). -/
opaque deviceKey : Nat

/-- The number that FIPS 186-5 draws for a signature, by the use counter of the free values (R408). -/
opaque signDraw : Nat → Nat

/-- The bytes that an SPDM answer signs, which SPDM 1.3 lays out, and whether a request asks for a signature: the exchange, its request and
the bytes of the answer (R408). -/
opaque spdmSigned : Nat → List (BitVec 8) → List (BitVec 8) → List (BitVec 8)
opaque spdmAsks : List (BitVec 8) → Bool

/-- The identity of the flash device (R400). -/
opaque flashIdent : BitVec 32

/-- The capacity of the flash device in bytes (R400). -/
opaque flashBytes : Nat

/-- The density in bytes of the smallest channel of a spoke, as training reads it (R344, R393; assumption log 9). -/
opaque density : Nat → Nat

/-- Does an inbound window hold the 64 KiB that its LIMIT names? The manual calls LIMIT a limit and says no more (R416, R417). -/
opaque limitInside : Bool

/-- What an SPDM exchange answers beyond the measurements: the exchange, its request and the use counter (R408). -/
opaque spdmAnswer : Nat → List (BitVec 8) → Nat → List (BitVec 8)

/-- Does the package sprint at a comparison, by the use counter of the free values? The manual gives sprints no length (R23). -/
opaque sprints : Nat → Bool

/-- The sustained power budget the integrator configured, in milliwatts, where it lies in the range of R23. -/
opaque budgetMw : Nat

/-- The floor budget in milliwatts, where it lies in the range of R23 (R422). -/
opaque floorMw : Nat

end Sys2Proof.Config
end

