-- ==== Sys2Proof/WellFormed.lean ====
section
/-! DEFINITION. Which instructions a code word can hold (R62, R65, R116, R139, R170, R203, R204, R281, R292, R320, R385):
the classes of the encoding tables, stated on decoded operands. A device step is well formed whatever it names; whether it
can act is decided by the machine. -/

namespace Sys2Proof

/-- What decoding depends on besides the word: the register budget of the wave's role (R31) and the mode (R45). -/
structure DecodeEnv where
  budget : Nat
  postilion : Bool
  deriving DecidableEq, Repr

/-- The environment of a user wave with the largest budget (R31). -/
def DecodeEnv.user : DecodeEnv := { budget := 192, postilion := false }

/-- A run of `n` lane registers from `r` on, aligned to `al`, lies below the budget `b` (R65). -/
def runOk (b al n : Nat) (r : Nat) : Bool := r % al == 0 && decide (r + n ≤ b)

/-- Class dst (R116). -/
def Dst.ok32 (b : Nat) : Dst → Bool
  | .v n => runOk b 1 1 n
  | .s _ => true
  | .zero => true

/-- Class dst2 (R116). -/
def Dst.ok64 (b : Nat) : Dst → Bool
  | .v n => runOk b 2 2 n
  | .s n => n.val % 2 == 0
  | .zero => true

/-- Class dst or dst2 by width. -/
def Dst.okW (b : Nat) (wide : Bool) (d : Dst) : Bool := if wide then d.ok64 b else d.ok32 b

/-- Class run(n) as a destination (R139). -/
def Dst.okRun (b n : Nat) (d : Dst) : Bool :=
  if n = 1 then d.ok32 b
  else match d with
    | .v r => runOk b 2 n r
    | .s r => n == 2 && r.val % 2 == 0
    | .zero => false

/-- Class src (R116). -/
def Src.ok32 (b : Nat) : Src → Bool
  | .v n => runOk b 1 1 n
  | .s _ | .zero | .lit | .lane => true

/-- Class src2 (R116). -/
def Src.ok64 (b : Nat) : Src → Bool
  | .v n => runOk b 2 2 n
  | .s n => n.val % 2 == 0
  | .zero | .lit | .lane => true

/-- Class src or src2 by width. -/
def Src.okW (b : Nat) (wide : Bool) (a : Src) : Bool := if wide then a.ok64 b else a.ok32 b

/-- Class run(n) as a source (R139). -/
def Src.okRun (b n : Nat) (a : Src) : Bool :=
  if n = 1 then a.ok32 b
  else if n = 2 then a.ok64 b
  else match a with
    | .v r => runOk b 2 n r
    | .s _ | .zero | .lit | .lane => false

/-- Class sc2 (R139). -/
def Src.okSc2 (b : Nat) : Src → Bool
  | .v n => runOk b 2 2 n
  | .s n => n.val % 2 == 0
  | .zero | .lit | .lane => false

/-- Class src for a count that may also be absent (R281, R204). -/
def okOpt (p : Src → Bool) : Option Src → Bool
  | none => true
  | some a => p a

/-- A source that may only be a scalar register or the literal (R170, SPAN.REL.ST). -/
def Src.okScalarLit : Src → Bool
  | .s _ | .lit => true
  | .v _ | .zero | .lane => false

/-- A source that may be any src except that the class says `src, or 0xF0`: every src (R292). -/
def Src.okCount (b : Nat) (a : Src) : Bool := a.ok32 b

/-- The source modifiers of a two-source form (R131). -/
def SMod.ok2 (m : SMod) : Bool := !m.nc && !m.ac

/-- The bytes a load size moves (R204). -/
def LoadSize.bytes : LoadSize → Nat
  | .z8 | .s8 => 1
  | .z16 | .s16 => 2
  | .b32 => 4
  | .b64 => 8
  | .b128 => 16

/-- The bytes a store size moves (R204). -/
def StoreSize.bytes : StoreSize → Nat
  | .b8 => 1
  | .b16 => 2
  | .b32 => 4
  | .b64 => 8
  | .b128 => 16

/-- Class ldrun (R204). -/
def Dst.okLoad (b : Nat) (sz : LoadSize) (d : Dst) : Bool :=
  match sz with
  | .z8 | .s8 | .z16 | .s16 | .b32 => d.ok32 b
  | .b64 => d.ok64 b
  | .b128 => match d with
    | .v r => runOk b 4 4 r
    | .s _ | .zero => false

/-- Class strun (R204). -/
def Src.okStore (b : Nat) (sz : StoreSize) (c : Src) : Bool :=
  match sz with
  | .b8 | .b16 | .b32 => c.ok32 b
  | .b64 => c.ok64 b
  | .b128 => match c with
    | .v r => runOk b 4 4 r
    | .s _ | .zero | .lit | .lane => false

/-- The attribute values of the frame space (R203): order and scope ignored, bit 2 clear. -/
def Attr.okFrame (a : Attr) : Bool := !a.bit2

/-- The attribute values of a scratch, cluster or host load (R203). -/
def Attr.okLoad (a : Attr) : Bool := (a.order == .rlx || a.order == .acq) && !a.bit2 && a.hint == .norm

/-- The attribute values of a scratch, cluster or host store (R203). -/
def Attr.okStore (a : Attr) : Bool := (a.order == .rlx || a.order == .rel) && !a.bit2 && a.hint == .norm

/-- The attribute values of LDG (R203). -/
def Attr.okLdg (a : Attr) : Bool := a.order == .rlx || a.order == .acq

/-- The attribute values of STG (R203). -/
def Attr.okStg (a : Attr) : Bool := (a.order == .rlx || a.order == .rel) && !a.bit2

/-- The attribute values of LDT (R203). -/
def Attr.okLdt (a : Attr) : Bool := a.order == .rlx && !a.bit2 && a.hint == .norm

/-- The attribute values of an atomic (R203). -/
def Attr.okAtom (a : Attr) : Bool := a.hint == .norm

/-- The attribute values of a reduction (R203). -/
def Attr.okRed (a : Attr) : Bool := (a.order == .rlx || a.order == .rel) && a.hint == .norm

/-- The attribute values of FENCE (R203). -/
def Attr.okFence (a : Attr) : Bool := a.order != .rlx && !a.bit2 && a.hint == .norm

/-- The attribute values of FENCE.XP (R203). -/
def Attr.okFenceXp (a : Attr) : Bool := a.order == .rlx && !a.bit2 && a.hint == .norm

/-- The sizes of LDT (R204). -/
def LoadSize.okLdt : LoadSize → Bool
  | .b32 | .b64 | .b128 => true
  | .z8 | .z16 | .s8 | .s16 => false

/-- The third operand of an atomic: present exactly for CAS (R204). -/
def okCas (b : Nat) (op : AtomOp) (wide : Bool) (c : Option Src) : Bool :=
  match op, c with
  | .cas, some x => x.okW b wide
  | .cas, none => false
  | _, some _ => false
  | _, none => true

/-- The operations REDG and REDH accept (R204). -/
def AtomOp.okRed : AtomOp → Bool
  | .exch | .cas => false
  | .add | .fadd | .min | .minZ | .max | .maxZ | .and | .or | .xor => true

/-- Is the copy's source side in device space? (R204, class side) -/
def CpyDir.srcDev : CpyDir → Bool
  | .d2s | .d2c | .d2d => true
  | .s2d | .c2d => false

/-- Is the copy's destination side in device space? (R204, class side) -/
def CpyDir.dstDev : CpyDir → Bool
  | .s2d | .c2d | .d2d => true
  | .d2s | .d2c => false

/-- The width in bits of a CVT type (R148). -/
def CvtTy.width : CvtTy → Nat
  | .s8 | .z8 | .e4m3 | .e5m2 | .e8m0 => 8
  | .s16 | .z16 | .f16 | .bf16 => 16
  | .s32 | .z32 | .f32 => 32
  | .s64 | .z64 | .f64 => 64
  | .e2m1 => 4

/-- Is it an integer type? (R148) -/
def CvtTy.isInt : CvtTy → Bool
  | .s8 | .z8 | .s16 | .z16 | .s32 | .z32 | .s64 | .z64 => true
  | .f16 | .bf16 | .f32 | .f64 | .e4m3 | .e5m2 | .e2m1 | .e8m0 => false

/-- May stochastic rounding produce it? (R109, R150) -/
def CvtTy.srDst : CvtTy → Bool
  | .f16 | .bf16 | .e5m2 | .e4m3 | .e2m1 => true
  | .s8 | .z8 | .s16 | .z16 | .s32 | .z32 | .s64 | .z64 | .f32 | .f64 | .e8m0 => false

/-- Elements one CVT converts per lane (R148). -/
def cvtCount (dt st : CvtTy) : Nat := max 1 (32 / min dt.width st.width)

/-- Registers of a CVT run (R148): `n` elements of width `w`. -/
def cvtRun (n w : Nat) : Nat := n * w / 32

/-- The MOD and E combinations of CVT that are defined (R150). -/
def cvtOk (dt st : CvtTy) (rnd : Rnd) (sr : Bool) : Bool :=
  dt != st && (!sr || (rnd == .rne && dt.srDst)) && (!(dt.isInt && st.isInt) || (rnd == .rne && !sr))

/-- The operands of PACK (R141). -/
def PackForm.ok (b : Nat) : PackForm → Bool
  | .h16 x y => x.ok32 b && y.ok32 b
  | .b8 x y z w => x.ok32 b && y.ok32 b && z.ok32 b && w.ok32 b
  | .n4 a | .s4sat a | .z4sat a => a.okRun b 8

/-- Registers UNPACK writes (R152). -/
def UnpackForm.run : UnpackForm → Nat
  | .z16 | .s16 => 2
  | .z8 | .s8 => 4
  | .z4 | .s4 => 8

/-- Does a pair operation read a second source? (R93, R119) -/
def PairOp.two : PairOp → Bool
  | .mov | .ineg | .iabs | .brev | .popc | .clz | .ctz => false
  | .iadd | .isub | .imul24 | .imul24h | .imin | .imax | .shl | .shr | .sha | .fadd | .fmul | .fmin | .fmax
  | .hadd2F16 | .hadd2Bf16 | .hmul2F16 | .hmul2Bf16 | .hmin2F16 | .hmin2Bf16 | .hmax2F16 | .hmax2Bf16 => true

/-- The operands of one half (R68). -/
def PairHalf.ok (b : Nat) : PairHalf → Bool
  | .empty => true
  | .op o d x y => d.ok32 b && x.ok32 b && (match y with | none => !o.two | some y => o.two && y.ok32 b)

/-- The lane registers a half reads; what stands in the fields of an empty half counts as none (assumption log 105). -/
def PairHalf.reads : PairHalf → List Nat
  | .empty => []
  | .op _ _ x y =>
    (match x with | .v n => [n.val] | _ => []) ++ (match y with | some (.v n) => [n.val] | _ => [])

/-- The two destinations lie in different banks (R69). -/
def pairDstOk : PairHalf → PairHalf → Bool
  | .op _ (.v m) _ _, .op _ (.v n) _ _ => m.val % 4 != n.val % 4
  | .op _ (.s m) _ _, .op _ (.s n) _ _ => m.val % 4 != n.val % 4
  | _, _ => true

/-- The number of distinct lane registers of bank `k` in a list. -/
def bankCount (k : Nat) (l : List Nat) : Nat := (l.filter (fun n => n % 4 == k)).eraseDups.length

/-- At most two distinct lane registers of any bank are read (R69). -/
def pairReadsOk (h1 h2 : PairHalf) : Bool :=
  [0, 1, 2, 3].all (fun k => decide (bankCount k (h1.reads ++ h2.reads) ≤ 2))

/-- An A or B operand of SPAN.MMA, with its run length and tile nibble (R170). -/
def SpanSrc.ok (b n : Nat) (tile : Fin 16) : SpanSrc → Bool
  | .run r => runOk b 8 n r && tile == 0
  | .desc p => p.val % 2 == 0

/-- The shared operands of SPAN.MMA (R170); `bn` is the length of a B register run. -/
def MmaOps.ok (b bn : Nat) (o : MmaOps) : Bool :=
  runOk b 32 32 o.d && o.a.ok b 32 o.aTile && o.b.ok b bn o.bTile

/-- The special registers MOVS reads in every mode (R45). -/
def movsUser : List Nat :=
  [0x00, 0x01, 0x02, 0x03, 0x04, 0x05, 0x06, 0x07, 0x08, 0x0A, 0x10, 0x12, 0x14, 0x18, 0x19, 0x1A,
   0x20, 0x21, 0x22, 0x23, 0x24, 0x25, 0x26, 0x27, 0x28, 0x29, 0x30, 0x31, 0x38, 0x39, 0x3A]

/-- The postilion registers (R365). -/
def postRegs : List Nat := [0x80, 0x81, 0x82, 0x83, 0x84, 0x85, 0x86]

/-- May MOVS name this register? (R45, R365) -/
def movsOk (post : Bool) (n : Nat) : Bool := movsUser.contains n || (post && postRegs.contains n)

/-- May MTS name this register? (R45, R365) -/
def mtsOk (post : Bool) (n : Nat) : Bool :=
  [0x10, 0x12].contains n || (post && ([0x38, 0x39, 0x3A].contains n || postRegs.contains n))

/-- Can a code word hold this instruction, for a wave of this environment? -/
def Instr.wf (env : DecodeEnv) : Instr → Bool
  | .iadd _ d a b _ | .isub _ d a b _ => d.ok32 env.budget && a.ok32 env.budget && b.ok32 env.budget
  | .iadd3 _ d a b c => d.ok32 env.budget && a.ok32 env.budget && b.ok32 env.budget && c.ok32 env.budget
  | .ineg _ d a _ | .iabs _ d a _ => d.ok32 env.budget && a.ok32 env.budget
  | .imul24 _ d a b _ | .imul24h _ d a b _ => d.ok32 env.budget && a.ok32 env.budget && b.ok32 env.budget
  | .imad24 _ d a b c _ => d.ok32 env.budget && a.ok32 env.budget && b.ok32 env.budget && c.ok32 env.budget
  | .imul _ d a b => d.ok32 env.budget && a.ok32 env.budget && b.ok32 env.budget
  | .imulh _ d a b _ => d.ok32 env.budget && a.ok32 env.budget && b.ok32 env.budget
  | .imad _ d a b c => d.ok32 env.budget && a.ok32 env.budget && b.ok32 env.budget && c.ok32 env.budget
  | .imin _ d a b _ | .imax _ d a b _ => d.ok32 env.budget && a.ok32 env.budget && b.ok32 env.budget
  | .isetp _ _ a b _ _ _ _ => a.ok32 env.budget && b.ok32 env.budget
  | .sel _ d a b _ w => d.okW env.budget w && a.okW env.budget w && b.okW env.budget w
  | .lop3 _ d a b c _ => d.ok32 env.budget && a.ok32 env.budget && b.ok32 env.budget && c.ok32 env.budget
  | .shl _ d a b | .shr _ d a b | .sha _ d a b => d.ok32 env.budget && a.ok32 env.budget && b.ok32 env.budget
  | .shf _ d a b c _ | .bfe _ d a b c _ => d.ok32 env.budget && a.ok32 env.budget && b.ok32 env.budget && c.ok32 env.budget
  | .bfi _ d a b c e =>
    d.ok32 env.budget && a.ok32 env.budget && b.ok32 env.budget && c.ok32 env.budget && e.ok32 env.budget
  | .brev _ d a | .popc _ d a | .clz _ d a | .ctz _ d a => d.ok32 env.budget && a.ok32 env.budget
  | .prmt _ d a b c => d.ok32 env.budget && a.ok32 env.budget && b.ok32 env.budget && c.ok32 env.budget
  | .lea _ d a b _ _ => d.ok64 env.budget && a.ok64 env.budget && b.ok32 env.budget
  | .iadd64 _ d a b _ => d.ok64 env.budget && a.ok64 env.budget && b.ok64 env.budget
  | .mov _ d a w => d.okW env.budget w && a.okW env.budget w
  | .movi _ d _ _ => d.ok32 env.budget
  | .movs _ d n => d.ok32 env.budget && movsOk env.postilion n
  | .mts _ a n => a.ok32 env.budget && mtsOk env.postilion n
  | .plop3 _ _ _ _ _ _ => true
  | .fadd _ d a b sm _ | .fmul _ d a b sm _ | .fmin _ d a b sm | .fmax _ d a b sm =>
    d.ok32 env.budget && a.ok32 env.budget && b.ok32 env.budget && sm.ok2
  | .ffma _ d a b c _ _ => d.ok32 env.budget && a.ok32 env.budget && b.ok32 env.budget && c.ok32 env.budget
  | .fsetp _ _ a b _ _ _ => a.ok32 env.budget && b.ok32 env.budget
  | .fclass _ d a w => d.ok32 env.budget && a.okW env.budget w
  | .frnd _ d a _ w => d.okW env.budget w && a.okW env.budget w
  | .dadd _ d a b sm _ | .dmul _ d a b sm _ => d.ok64 env.budget && a.ok64 env.budget && b.ok64 env.budget && sm.ok2
  | .dfma _ d a b c _ _ => d.ok64 env.budget && a.ok64 env.budget && b.ok64 env.budget && c.ok64 env.budget
  | .dsetp _ _ a b _ _ _ => a.ok64 env.budget && b.ok64 env.budget
  | .hadd2F16 _ d a b sm _ | .hadd2Bf16 _ d a b sm _ | .hmul2F16 _ d a b sm _ | .hmul2Bf16 _ d a b sm _
  | .hmin2F16 _ d a b sm | .hmin2Bf16 _ d a b sm | .hmax2F16 _ d a b sm | .hmax2Bf16 _ d a b sm =>
    d.ok32 env.budget && a.ok32 env.budget && b.ok32 env.budget && sm.ok2
  | .hfma2F16 _ d a b c _ _ | .hfma2Bf16 _ d a b c _ _ =>
    d.ok32 env.budget && a.ok32 env.budget && b.ok32 env.budget && c.ok32 env.budget
  | .hsetp2F16 _ _ a b _ _ _ | .hsetp2Bf16 _ _ a b _ _ _ => a.ok32 env.budget && b.ok32 env.budget
  | .dot4S8 _ d a b c _ _ | .dot4Z8 _ d a b c _ _ | .dot8S4 _ d a b c _ _ | .dot8Z4 _ d a b c _ _ =>
    d.ok32 env.budget && a.ok32 env.budget && b.ok32 env.budget && c.ok32 env.budget
  | .dot4fE4m3 _ d a b c _ _ _ | .dot4fE5m2 _ d a b c _ _ _ | .dot8fE2m1 _ d a b c _ _ _ =>
    d.ok32 env.budget && a.ok32 env.budget && b.ok32 env.budget && c.okSc2 env.budget
  | .scale _ d a b _ _ => d.ok32 env.budget && a.ok32 env.budget && b.ok32 env.budget
  | .cvt _ d a dt st rnd _ sr =>
    d.okRun env.budget (cvtRun (cvtCount dt st) dt.width) && a.okRun env.budget (cvtRun (cvtCount dt st) st.width)
      && cvtOk dt st rnd sr
  | .pack _ d f => d.ok32 env.budget && f.ok env.budget
  | .unpack _ d a f => d.okRun env.budget f.run && a.ok32 env.budget
  | .rcp _ d a | .rsq _ d a | .sqrt _ d a | .ex2 _ d a | .lg2 _ d a | .sin _ d a | .cos _ d a | .tanh _ d a =>
    d.ok32 env.budget && a.ok32 env.budget
  | .pair h1 h2 => h1.ok env.budget && h2.ok env.budget && pairDstOk h1 h2 && pairReadsOk h1 h2
  | .shflIdx _ d a b _ _ | .shflUp _ d a b _ _ | .shflDn _ d a b _ _ | .shflXor _ d a b _ _ =>
    d.ok32 env.budget && a.ok32 env.budget && b.ok32 env.budget
  | .voteAny _ _ _ | .voteAll _ _ _ | .voteEq _ _ _ => true
  | .voteBal _ d _ => d.ok32 env.budget
  | .redux _ d a _ => d.ok32 env.budget && a.ok32 env.budget
  | .scan _ d a _ _ => d.ok32 env.budget && a.ok32 env.budget
  | .matchLanes _ d a w => d.ok32 env.budget && a.okW env.budget w
  | .barArr _ _ a | .barSync _ _ a => a.okCount env.budget
  | .barWait _ _ => true
  | .pbarArr _ a b _ => a.ok32 env.budget && b.ok32 env.budget
  | .pbarWait _ d a b _ => (match d with | none => true | some d => d.ok32 env.budget) && a.ok32 env.budget && b.ok32 env.budget
  | .gbarGrid _ | .gbarGang _ => true
  | .bra _ => true
  | .brx _ a | .ret _ a | .rftTo _ a => a.ok64 env.budget
  | .call _ d => runOk env.budget 2 2 d
  | .calli _ d a => runOk env.budget 2 2 d && a.ok64 env.budget
  | .join _ _ a | .dropj _ _ a => okOpt (·.ok32 env.budget) a
  | .waitj _ _ | .exit _ | .yield _ | .nop _ | .bpt _ _ | .trap _ _ | .rftResume _ => true
  | .ldf _ d a b at_ sz => d.okLoad env.budget sz && a.ok32 env.budget && b.ok32 env.budget && at_.okFrame
  | .stf _ a b c at_ sz => a.ok32 env.budget && b.ok32 env.budget && c.okStore env.budget sz && at_.okFrame
  | .lds _ d a b at_ sz | .ldc _ d a b at_ sz =>
    d.okLoad env.budget sz && a.ok32 env.budget && b.ok32 env.budget && at_.okLoad
  | .sts _ a b c at_ sz | .stc _ a b c at_ sz =>
    a.ok32 env.budget && b.ok32 env.budget && c.okStore env.budget sz && at_.okStore
  | .ats _ d a b c at_ op | .atc _ d a b c at_ op =>
    d.okW env.budget at_.bit2 && a.ok32 env.budget && b.okW env.budget at_.bit2 && okCas env.budget op at_.bit2 c && at_.okAtom
  | .ldg _ d a b at_ sz => d.okLoad env.budget sz && a.ok64 env.budget && b.ok32 env.budget && at_.okLdg
  | .stg _ a b c at_ sz => a.ok64 env.budget && b.ok32 env.budget && c.okStore env.budget sz && at_.okStg
  | .atg _ d a b c at_ op | .ath _ d a b c at_ op =>
    d.okW env.budget at_.bit2 && a.ok64 env.budget && b.okW env.budget at_.bit2 && okCas env.budget op at_.bit2 c && at_.okAtom
  | .redg _ a b at_ op | .redh _ a b at_ op =>
    a.ok64 env.budget && b.okW env.budget at_.bit2 && at_.okRed && op.okRed
  | .pf _ a b _ => a.ok64 env.budget && b.ok32 env.budget
  | .ldt _ d a b at_ sz => d.okLoad env.budget sz && a.ok64 env.budget && b.ok32 env.budget && at_.okLdt && sz.okLdt
  | .ldh _ d a b at_ sz => d.okLoad env.budget sz && a.ok64 env.budget && b.ok32 env.budget && at_.okLoad
  | .sth _ a b c at_ sz => a.ok64 env.budget && b.ok32 env.budget && c.okStore env.budget sz && at_.okStore
  | .cpy _ a b sync desc dir shw =>
    a.okW env.budget dir.srcDev && b.okW env.budget dir.dstDev && okOpt (·.ok32 env.budget) sync && desc.val % 2 == 0
      && (!shw || dir.dstDev)
  | .cpyx _ a b sync _ _ => runOk env.budget 2 2 a && b.ok32 env.budget && okOpt (·.ok32 env.budget) sync
  | .synci _ a b c _ => a.ok32 env.budget && b.ok32 env.budget && okOpt (·.ok32 env.budget) c
  | .syncw _ d a b _ => (match d with | none => true | some d => d.ok32 env.budget) && a.ok32 env.budget && b.ok32 env.budget
  | .fence _ at_ => at_.okFence
  | .fenceXp _ at_ => at_.okFenceXp
  | .fencePt _ => true
  | .publish _ d a b c => d.ok64 env.budget && a.ok64 env.budget && b.ok64 env.budget && c.ok64 env.budget
  | .hitch _ | .unhitch _ => true
  | .spanAcq _ d | .spanRel _ d | .spanZero _ d => runOk env.budget 32 32 d
  | .spanRelSt _ d a b _ => runOk env.budget 32 32 d && a.val % 2 == 0 && b.okScalarLit
  | .spanStat _ d _ => d.ok32 env.budget
  | .spanRbox _ d a b _ => runOk env.budget 2 2 d && runOk env.budget 8 8 a && b.val % 2 == 0
  | .spanLoop _ d a b c _ => runOk env.budget 32 32 d && a.val % 2 == 0 && b.val % 2 == 0 && c.val % 2 == 0
  | .spanMmaBf16 _ o => o.ok env.budget 32
  | .spanMmaE4m3 _ o c | .spanMmaE5m2 _ o c | .spanMmaE2m1 _ o c
  | .spanMmaE4m3B32 _ o c | .spanMmaE5m2B32 _ o c => o.ok env.budget 32 && runOk env.budget 2 2 c
  | .spanMmaE2m1B32 _ o c => o.ok env.budget 32 && runOk env.budget 4 4 c
  | .spanMmaW4bf _ o c | .spanMmaWf4bf _ o c => o.ok env.budget 8 && runOk env.budget 1 1 c
  | .rastEmit _ a b c _ => runOk env.budget 8 8 a && b.val % 2 == 0 && runOk env.budget 2 2 c
  | .pixOrd _ => true
  | .pixBlend _ a _ => runOk env.budget 4 4 a
  | .pixLd _ d => runOk env.budget 2 2 d
  | .enq _ d a b c _ _ => d.ok64 env.budget && a.ok64 env.budget && b.ok32 env.budget && c.ok64 env.budget
  | .enqg _ d a => d.ok32 env.budget && a.ok32 env.budget
  | .dhops _ d a b => d.ok32 env.budget && a.ok32 env.budget && b.ok32 env.budget
  | .savewC _ | .restwC _ | .yieldSaved _ => true
  | .savewV _ a n | .restwV _ a n =>
    decide (1 ≤ n.val) && decide (n.val ≤ 24) && runOk env.budget 8 (8 * n.val) a
  | .savewS _ a b | .restwS _ a b => a.ok32 env.budget && b.ok32 env.budget
  | .gbarGridComplete _ _ | .gbarReleaseStep _ _ | .gbarGangComplete _ | .copyUnit _ _ | .accessPerformed _
  | .faultRecordWrite _ | .leaseRenewalReturn _ _ | .waybillDrain _ | .ptCompletion _ | .tenureGrant _ | .spanPassEnd _
  | .tenureIdleTimeout _ | .loopResume _ | .drawRelease _ _ | .fragWaveLaunch _ _ | .rasterPassClose _ | .enqAccept _ _
  | .clauseStart _ _ | .hubDoorbell _ _ | .hubReplay _ | .hubRgnSync _ | .hubKill _ | .hubSnap _ | .snapCopyDone
  | .hubCtxBase _ _ | .hubRgnBase _ _ | .hubRingCtl _ _ | .hubRingBase _ _ _ | .hubFrCtl _ _ | .hubFrHead _ _
  | .hubFrBase _ _ _ | .registerWrite _ _ | .bootSlot _ | .raiseFloor _ | .romVersion | .flashId | .readHeader _
  | .slotWrite _ _ | .resume _ _ | .step _ _ | .stop _ | .readV _ _ | .writeV _ _ | .readCtl _ | .writeCtl _
  | .debugEventPost | .spdmVersion _ | .spdmCapabilities _ | .spdmAlgorithms _ | .spdmDigests _ | .spdmCertificate _
  | .spdmChallenge _ | .spdmMeasurements _ | .hostRead _ _ | .hostWrite _ _ | .hostRmw _ _ _ _ _ | .inboundWrite _ _ _
  | .inboundRead _ _ _ | .inboundAtomic _ _ _ _ _ _ | .ioLoadTimeout _ | .hostLinkFailure | .resetRelease | .pwrLimitN _
  | .postilionRestart _ | .nodeStart | .gangPlace _ | .ungateDone _ | .dieGate _ | .gangRetire _ | .resourceReport _
  | .preemptRequest _ | .preemptTake _ | .preemptTimeout _ | .preemptDrain _ | .gangRestore _ | .watchdog _
  | .timeSliceExpire _ | .headAging _ | .energyCharge | .energyWindowEnd | .powerCompare | .boostIntervalEnd _
  | .freqStepRise _ | .ballastStep _ | .patrolScrub _ | .sramScrub _ | .calibration _ | .retraining _ _ | .agingMonitor _
  | .telemetry _ | .resultWrite _ _ | .clusterModeChange _ | .packageReset | .thermN _ _ | .linkRetry _ => true

end Sys2Proof
end

