-- ==== Sys2Proof/Decode.lean ====
section
/-! DEFINITION. From code words to instructions and back (R51, R54, R61 to R72, R92, R93): the fields of a word, one parser
per field class that answers the operand and the ILLEGAL reasons it gives, one row per opcode of the encoding tables, and
the encoder written from the same tables. -/

namespace Sys2Proof

/-! ## Fields -/

/-- Bits `[lo + n - 1 : lo]` of a code word. -/
def fld (w : Word64) (lo n : Nat) : Nat := w.toNat / 2 ^ lo % 2 ^ n

/-- The fields of a full instruction (R61). -/
structure Fields where
  op : Nat
  d : Nat
  a : Nat
  b : Nat
  c : Nat
  e : Nat
  gp : Nat
  gpn : Nat
  gc : Nat
  gq : Nat
  gqn : Nat
  mod : Nat
  deriving DecidableEq, Repr

/-- The fields of a word (R61). -/
def fieldsOf (w : Word64) : Fields :=
  { op := fld w 54 9, d := fld w 46 8, a := fld w 38 8, b := fld w 30 8, c := fld w 22 8, e := fld w 14 8,
    gp := fld w 11 3, gpn := fld w 10 1, gc := fld w 8 2, gq := fld w 5 3, gqn := fld w 4 1, mod := fld w 0 4 }

/-- The full word that holds these fields (R61). -/
def packFields (f : Fields) : Word64 :=
  BitVec.ofNat 64 (f.op * 2 ^ 54 + f.d * 2 ^ 46 + f.a * 2 ^ 38 + f.b * 2 ^ 30 + f.c * 2 ^ 22 + f.e * 2 ^ 14
    + f.gp * 2 ^ 11 + f.gpn * 2 ^ 10 + f.gc * 2 ^ 8 + f.gq * 2 ^ 5 + f.gqn * 2 ^ 4 + f.mod)

/-- The kinds of code word (R51). -/
inductive WordKind where
  | full | pair | header
  deriving DecidableEq, Repr

/-- Bits [63:62] (R51). -/
def kindOf (w : Word64) : WordKind :=
  if fld w 63 1 = 0 then .full else if fld w 62 1 = 0 then .pair else .header

/-- The fields of a clause header (R54); `none` in `seta` and `setb` where the field holds 15. -/
structure Header where
  count : Nat
  wait : BitVec 12
  seta : Nat
  setb : Nat
  yieldHint : Bool
  gap : Nat
  lit : Word
  deriving DecidableEq, Repr

/-- The header a word holds (R54): COUNT 000 means 8. -/
def headerOf (w : Word64) : Header :=
  { count := if fld w 59 3 = 0 then 8 else fld w 59 3
    wait := BitVec.ofNat 12 (fld w 47 12)
    seta := fld w 43 4
    setb := fld w 39 4
    yieldHint := fld w 38 1 == 1
    gap := fld w 32 6
    lit := BitVec.ofNat 32 (fld w 0 32) }

/-- The word of a header (R54). -/
def encodeHeader (h : Header) : Word64 :=
  BitVec.ofNat 64 (3 * 2 ^ 62 + h.count % 8 * 2 ^ 59 + h.wait.toNat * 2 ^ 47 + h.seta * 2 ^ 43 + h.setb * 2 ^ 39
    + (if h.yieldHint then 1 else 0) * 2 ^ 38 + h.gap * 2 ^ 32 + h.lit.toNat)

/-! ## Parsers: a value with the ILLEGAL reasons its field gives (R72) -/

/-- The outcome of reading fields: the value, and the reasons found on the way. -/
structure P (α : Type) where
  val : α
  errs : List Nat

/-- A value that reads no field. -/
def P.ok {α : Type} (x : α) : P α := ⟨x, []⟩

/-- A default value where a field is not acceptable. -/
def P.bad {α : Type} (x : α) (reason : Nat) : P α := ⟨x, [reason]⟩

/-- One more argument. -/
def P.ap {α β : Type} (f : P (α → β)) (x : P α) : P β := ⟨f.val x.val, f.errs ++ x.errs⟩

/-- A field that gives no argument: only its reasons. -/
def P.also {α : Type} (f : P α) (errs : List Nat) : P α := ⟨f.val, f.errs ++ errs⟩

/-- Change the value. -/
def P.map {α β : Type} (g : α → β) (x : P α) : P β := ⟨g x.val, x.errs⟩

/-- An unused D, A, B or C field (R62). -/
def unused (c : Nat) : List Nat := if c = 0xFF then [] else [0x03]

/-- An unused E field (R62). -/
def unusedE (c : Nat) : List Nat := if c = 0xFF then [] else [0x0F]

/-- An unused MOD field (R62). -/
def unusedM (m : Nat) : List Nat := if m = 0 then [] else [0x0F]

/-- The operand code of a destination (R64). -/
def Dst.code : Dst → Nat
  | .v n => n
  | .s n => 0xC0 + n
  | .zero => 0xF0

/-- The operand code of a source (R64). -/
def Src.code : Src → Nat
  | .v n => n
  | .s n => 0xC0 + n
  | .zero => 0xF0
  | .lit => 0xF1
  | .lane => 0xF2

/-- The code of a source that may be absent (R64). -/
def optCode : Option Src → Nat
  | none => 0xFF
  | some a => a.code

/-- A lane-register code checked for a run of `n` aligned to `al` below the budget (R64, R65, R72): reason 0x06 where the
named register is at or beyond the budget, 0x07 where the run is misaligned or reaches past it. -/
def vErrs (b al n c : Nat) : List Nat :=
  (if b ≤ c then [0x06] else []) ++ (if c % al ≠ 0 ∨ b < c + n then (if n = 1 then [0x06] else [0x07]) else [])

/-- A scalar register of even number (R65). -/
def sErrs (al k : Nat) : List Nat := if k % al = 0 then [] else [0x07]

/-- Class dst or dst2 (R116): `al` is 1 or 2. -/
def pDst (b al c : Nat) : P Dst :=
  if h : c < 192 then ⟨.v ⟨c, h⟩, vErrs b al al c⟩
  else if h : c - 0xC0 < 48 then ⟨.s ⟨c - 0xC0, h⟩, sErrs al (c - 0xC0)⟩
  else if c = 0xF0 then .ok .zero
  else .bad .zero 0x05

/-- Class src or src2 (R116). -/
def pSrc (b al c : Nat) : P Src :=
  if h : c < 192 then ⟨.v ⟨c, h⟩, vErrs b al al c⟩
  else if h : c - 0xC0 < 48 then ⟨.s ⟨c - 0xC0, h⟩, sErrs al (c - 0xC0)⟩
  else if c = 0xF0 then .ok .zero
  else if c = 0xF1 then .ok .lit
  else if c = 0xF2 then .ok .lane
  else .bad .zero 0x05

/-- The alignment of an operand by width. -/
def al (wide : Bool) : Nat := if wide then 2 else 1

/-- A class that accepts lane registers only, in a run of `n` aligned to `k` (R139, R170, R204, R281). -/
def pRun (b k n c : Nat) : P (Fin 192) :=
  if h : c < 192 then ⟨⟨c, h⟩, vErrs b k n c⟩ else .bad 0 0x05

/-- Class sp: an even scalar pair (R170). -/
def pSp (c : Nat) : P (Fin 48) :=
  if h : 0xC0 ≤ c ∧ c - 0xC0 < 48 then ⟨⟨c - 0xC0, h.2⟩, sErrs 2 (c - 0xC0)⟩ else .bad 0 0x05

/-- The descriptor of a copy in E: anything but an even scalar pair is reason 0x05 (R228). -/
def pSpE (c : Nat) : P (Fin 48) :=
  if h : 0xC0 ≤ c ∧ c - 0xC0 < 48 then ⟨⟨c - 0xC0, h.2⟩, if (c - 0xC0) % 2 = 0 then [] else [0x05]⟩ else .bad 0 0x05

/-- A run of lane registers as a destination operand. -/
def pDstRun (b k n c : Nat) : P Dst := (pRun b k n c).map Dst.v

/-- A run of lane registers as a source operand. -/
def pSrcRun (b k n c : Nat) : P Src := (pRun b k n c).map Src.v

/-- An even lane or scalar pair (class sc2, and run(2) as a destination, R139). -/
def pDstPair (b c : Nat) : P Dst :=
  if h : c < 192 then ⟨.v ⟨c, h⟩, vErrs b 2 2 c⟩
  else if h : c - 0xC0 < 48 then ⟨.s ⟨c - 0xC0, h⟩, sErrs 2 (c - 0xC0)⟩
  else .bad .zero 0x05

/-- Class sc2 (R139). -/
def pSc2 (b c : Nat) : P Src :=
  if h : c < 192 then ⟨.v ⟨c, h⟩, vErrs b 2 2 c⟩
  else if h : c - 0xC0 < 48 then ⟨.s ⟨c - 0xC0, h⟩, sErrs 2 (c - 0xC0)⟩
  else .bad .zero 0x05

/-- Class run(n) as a destination (R139). -/
def pRunDst (b n c : Nat) : P Dst :=
  if n = 1 then pDst b 1 c else if n = 2 then pDstPair b c else pDstRun b 2 n c

/-- Class run(n) as a source (R139). -/
def pRunSrc (b n c : Nat) : P Src :=
  if n = 1 then pSrc b 1 c else if n = 2 then pSrc b 2 c else pSrcRun b 2 n c

/-- Class pdst or psrc (R116). -/
def pPred (c : Nat) : P (Fin 8) := if h : c < 8 then .ok ⟨c, h⟩ else .bad 7 0x05

/-- Class pdst2 (R139), as the number of the pair. -/
def pPred2 (c : Nat) : P (Fin 4) :=
  if h : c < 8 ∧ c % 2 = 0 then .ok ⟨c / 2, by omega⟩ else .bad 0 0x05

/-- Class pcomb (R116). -/
def pComb (c : Nat) : P PComb :=
  if h : c < 8 then .ok ⟨⟨c, h⟩, false⟩
  else if h : c - 8 < 8 then .ok ⟨⟨c - 8, h⟩, true⟩
  else .bad ⟨7, false⟩ 0x05

/-- The code of a pcomb operand. -/
def PComb.code (c : PComb) : Nat := c.p + (if c.neg then 8 else 0)

/-- A source that may be absent (R204, R281). -/
def pOpt (b c : Nat) : P (Option Src) := if c = 0xFF then .ok none else (pSrc b 1 c).map some

/-- A destination that may be absent (R204, R292). -/
def pOptDst (b c : Nat) : P (Option Dst) := if c = 0xFF then .ok none else (pDst b 1 c).map some

/-- The code of a destination that may be absent. -/
def optDstCode : Option Dst → Nat
  | none => 0xFF
  | some d => d.code

/-- Class pdst or absent (R292). -/
def pOptPred (c : Nat) : P (Option (Fin 8)) := if c = 0xFF then .ok none else (pPred c).map some

/-- The code of a predicate that may be absent. -/
def optPredCode : Option (Fin 8) → Nat
  | none => 0xFF
  | some p => p

/-- An immediate below `n` in E (R62): reason 0x0F beyond it. -/
def pImm (n : Nat) (c : Nat) (pos : 0 < n := by decide) : P (Fin n) :=
  if h : c < n then .ok ⟨c, h⟩ else .bad ⟨0, pos⟩ 0x0F

/-- An 8-bit table or immediate (R116). -/
def pByte (c : Nat) : P (BitVec 8) := .ok (BitVec.ofNat 8 c)

/-- The guard (R61 to R63, R72). -/
def pGuard (f : Fields) : P Guard :=
  let p : Fin 8 := Fin.ofNat 8 f.gp
  let q : Fin 8 := Fin.ofNat 8 f.gq
  match f.gc with
  | 0 => ⟨⟨p, f.gpn == 1, .only⟩, if f.gq = 0 ∧ f.gqn = 0 then [] else [0x03]⟩
  | 1 => .ok ⟨p, f.gpn == 1, .and q (f.gqn == 1)⟩
  | 2 => .ok ⟨p, f.gpn == 1, .or q (f.gqn == 1)⟩
  | _ => .bad ⟨p, f.gpn == 1, .only⟩ 0x04

/-- A Boolean as a bit. -/
def bit (b : Bool) : Nat := if b then 1 else 0

/-- The guard fields of a guard (R61). -/
def Guard.fields (g : Guard) (f : Fields) : Fields :=
  match g.comb with
  | .only => { f with gp := g.p, gpn := bit g.neg, gc := 0, gq := 0, gqn := 0 }
  | .and q n => { f with gp := g.p, gpn := bit g.neg, gc := 1, gq := q, gqn := bit n }
  | .or q n => { f with gp := g.p, gpn := bit g.neg, gc := 2, gq := q, gqn := bit n }

/-! ## MOD and E fields -/

/-- A MOD that is 0 or 1 (R119). -/
def mBool (m : Nat) : P Bool := match m with
  | 0 => .ok false
  | 1 => .ok true
  | _ => .bad false 0x0F

/-- The MOD of IADD and ISUB (R119). -/
def mAdd (m : Nat) : P AddMod := match m with
  | 0 => .ok .wrap
  | 1 => .ok .sat
  | 3 => .ok .satZ
  | _ => .bad .wrap 0x0F

def AddMod.code : AddMod → Nat
  | .wrap => 0
  | .sat => 1
  | .satZ => 3

/-- A rounding mode code (R109). -/
def rndOf (m : Nat) : Rnd := match m with
  | 0 => .rne
  | 1 => .rz
  | 2 => .rp
  | _ => .rm

def Rnd.code : Rnd → Nat
  | .rne => 0
  | .rz => 1
  | .rp => 2
  | .rm => 3

/-- The FP mode in MOD (R131). -/
def mFp (m : Nat) : P FpMode :=
  ⟨⟨rndOf (m % 4), m / 4 % 2 == 1⟩, if m / 8 = 0 then [] else [0x0F]⟩

def FpMode.code (m : FpMode) : Nat := m.rnd.code + 4 * bit m.sat

/-- How a compare combines (R122). -/
def mCombine (m : Nat) : P PCombine := match m with
  | 0 => .ok .and
  | 1 => .ok .or
  | 2 => .ok .xor
  | _ => .bad .and 0x0F

def PCombine.code : PCombine → Nat
  | .and => 0
  | .or => 1
  | .xor => 2

/-- The integer compare code in E (R122). -/
def eICmp (c : Nat) : P ICmp := match c % 8 with
  | 0 => .ok .eq
  | 1 => .ok .ne
  | 2 => .ok .lt
  | 3 => .ok .le
  | 4 => .ok .gt
  | 5 => .ok .ge
  | _ => .bad .eq 0x0F

/-- Bit 3 of the integer compare code: compare as Z32; bits [7:4] must be 0 (R122). -/
def eICmpZ (c : Nat) : P Bool := ⟨c / 8 % 2 == 1, if c / 16 = 0 then [] else [0x0F]⟩

def ICmp.code : ICmp → Nat
  | .eq => 0
  | .ne => 1
  | .lt => 2
  | .le => 3
  | .gt => 4
  | .ge => 5

/-- The comparison of a compare byte (R134). -/
def fcmpOf (c : Nat) : P FCmp := match c with
  | 0 => .ok .eq
  | 1 => .ok .ne
  | 2 => .ok .lt
  | 3 => .ok .le
  | 4 => .ok .gt
  | 5 => .ok .ge
  | 6 => .ok .num
  | 7 => .ok .nan
  | 8 => .ok .equ
  | 9 => .ok .neu
  | 10 => .ok .ltu
  | 11 => .ok .leu
  | 12 => .ok .gtu
  | 13 => .ok .geu
  | _ => .bad .eq 0x0F

def FCmp.code : FCmp → Nat
  | .eq => 0
  | .ne => 1
  | .lt => 2
  | .le => 3
  | .gt => 4
  | .ge => 5
  | .num => 6
  | .nan => 7
  | .equ => 8
  | .neu => 9
  | .ltu => 10
  | .leu => 11
  | .gtu => 12
  | .geu => 13

/-- The compare byte in E (R134). -/
def eFCompare (c : Nat) : P FCompare :=
  let k := fcmpOf (c % 16)
  ⟨⟨k.val, c / 32 % 2 == 1, c / 16 % 2 == 1⟩, k.errs ++ (if c / 64 = 0 then [] else [0x0F])⟩

def FCompare.code (c : FCompare) : Nat := c.cmp.code + 16 * bit c.ab + 32 * bit c.aa

/-- The source-modifier byte in E (R131); `three` where the form has a third operand. -/
def eSMod (three : Bool) (c : Nat) : P SMod :=
  let m : SMod := ⟨c / 32 % 2 == 0, c / 16 % 2 == 0, c / 8 % 2 == 0, c / 4 % 2 == 0, c / 2 % 2 == 0, c % 2 == 0⟩
  ⟨m, if c / 64 = 3 ∧ (three = true ∨ m.ok2 = true) then [] else [0x0F]⟩

def SMod.code (m : SMod) : Nat :=
  192 + 32 * bit (!m.na) + 16 * bit (!m.nb) + 8 * bit (!m.nc) + 4 * bit (!m.aa) + 2 * bit (!m.ab) + bit (!m.ac)

/-- The byte-select of R108 in E. -/
def eBsel (c : Nat) : P (Fin 4 × Fin 4) :=
  ⟨(Fin.ofNat 4 c, Fin.ofNat 4 (c / 4)), if c / 16 = 0 then [] else [0x0F]⟩

/-- A scope code (R202). -/
def scopeOf (c : Nat) : P Scope := match c with
  | 0 => .ok .wave
  | 1 => .ok .wg
  | 2 => .ok .clu
  | 3 => .ok .die
  | 4 => .ok .dev
  | 5 => .ok .sys
  | _ => .bad .wave 0x0F

def Scope.code : Scope → Nat
  | .wave => 0
  | .wg => 1
  | .clu => 2
  | .die => 3
  | .dev => 4
  | .sys => 5

/-- An order code (R202). -/
def orderOf (c : Nat) : Order := match c with
  | 0 => .rlx
  | 1 => .acq
  | 2 => .rel
  | _ => .ar

def Order.code : Order → Nat
  | .rlx => 0
  | .acq => 1
  | .rel => 2
  | .ar => 3

/-- A hint code (R202). -/
def hintOf (c : Nat) : Hint := match c with
  | 0 => .norm
  | 1 => .strm
  | 2 => .keep
  | _ => .nol1

def Hint.code : Hint → Nat
  | .norm => 0
  | .strm => 1
  | .keep => 2
  | .nol1 => 3

/-- The attribute byte in E (R202) under what its instruction accepts (R203). -/
def eAttr (ok : Attr → Bool) (c : Nat) : P Attr :=
  let sc := scopeOf (c / 32)
  let a : Attr := ⟨sc.val, orderOf (c / 8 % 4), c / 4 % 2 == 1, hintOf (c % 4)⟩
  ⟨a, sc.errs ++ (if ok a then [] else [0x0F])⟩

def Attr.code (a : Attr) : Nat := 32 * a.scope.code + 8 * a.order.code + 4 * bit a.bit2 + a.hint.code

/-- A load size in MOD (R204). -/
def mLoad (m : Nat) : P LoadSize := match m with
  | 0 => .ok .z8
  | 1 => .ok .z16
  | 2 => .ok .b32
  | 3 => .ok .b64
  | 4 => .ok .b128
  | 8 => .ok .s8
  | 9 => .ok .s16
  | _ => .bad .b32 0x0F

def LoadSize.code : LoadSize → Nat
  | .z8 => 0
  | .z16 => 1
  | .b32 => 2
  | .b64 => 3
  | .b128 => 4
  | .s8 => 8
  | .s16 => 9

/-- A load size of LDT (R204). -/
def mLdt (m : Nat) : P LoadSize := match m with
  | 2 => .ok .b32
  | 3 => .ok .b64
  | 4 => .ok .b128
  | _ => .bad .b32 0x0F

/-- A store size in MOD (R204). -/
def mStore (m : Nat) : P StoreSize := match m with
  | 0 => .ok .b8
  | 1 => .ok .b16
  | 2 => .ok .b32
  | 3 => .ok .b64
  | 4 => .ok .b128
  | _ => .bad .b32 0x0F

def StoreSize.code : StoreSize → Nat
  | .b8 => 0
  | .b16 => 1
  | .b32 => 2
  | .b64 => 3
  | .b128 => 4

/-- An atomic operation in MOD (R204). -/
def mAtom (m : Nat) : P AtomOp := match m with
  | 0 => .ok .add
  | 1 => .ok .fadd
  | 2 => .ok .min
  | 3 => .ok .minZ
  | 4 => .ok .max
  | 5 => .ok .maxZ
  | 6 => .ok .and
  | 7 => .ok .or
  | 8 => .ok .xor
  | 9 => .ok .exch
  | 10 => .ok .cas
  | _ => .bad .add 0x0F

/-- A reduction in MOD (R204). -/
def mRed (m : Nat) : P AtomOp := let x := mAtom m; if x.val.okRed then x else .bad .add 0x0F

def AtomOp.code : AtomOp → Nat
  | .add => 0
  | .fadd => 1
  | .min => 2
  | .minZ => 3
  | .max => 4
  | .maxZ => 5
  | .and => 6
  | .or => 7
  | .xor => 8
  | .exch => 9
  | .cas => 10

/-- Class ldrun (R204). -/
def pLoad (b : Nat) (sz : LoadSize) (c : Nat) : P Dst := match sz with
  | .z8 | .s8 | .z16 | .s16 | .b32 => pDst b 1 c
  | .b64 => pDst b 2 c
  | .b128 => pDstRun b 4 4 c

/-- Class strun (R204). -/
def pStore (b : Nat) (sz : StoreSize) (c : Nat) : P Src := match sz with
  | .b8 | .b16 | .b32 => pSrc b 1 c
  | .b64 => pSrc b 2 c
  | .b128 => pSrcRun b 4 4 c

/-- The third operand of an atomic (R204). -/
def pCas (b : Nat) (op : AtomOp) (wide : Bool) (c : Nat) : P (Option Src) :=
  if op = .cas then (pSrc b (al wide) c).map some else ⟨none, unused c⟩

/-- A copy direction in MOD (R204, R216). -/
def mCpyDir (m : Nat) : P CpyDir := match m % 8 with
  | 0 => .ok .d2s
  | 1 => .ok .d2c
  | 2 => .ok .s2d
  | 3 => .ok .c2d
  | 4 => .ok .d2d
  | _ => .bad .d2s 0x0F

def CpyDir.code : CpyDir → Nat
  | .d2s => 0
  | .d2c => 1
  | .s2d => 2
  | .c2d => 3
  | .d2d => 4

/-- A shuffle width in MOD (R292). -/
def mShfl (m : Nat) : P ShflWidth := match m with
  | 0 => .ok .w32
  | 1 => .ok .w16
  | 2 => .ok .w8
  | 3 => .ok .w4
  | 4 => .ok .w2
  | 5 => .ok .w1
  | _ => .bad .w32 0x0F

def ShflWidth.code : ShflWidth → Nat
  | .w32 => 0
  | .w16 => 1
  | .w8 => 2
  | .w4 => 3
  | .w2 => 4
  | .w1 => 5

/-- A fold operation in MOD (R296). -/
def mRedux (m : Nat) : P ReduxOp := match m with
  | 0 => .ok .add
  | 1 => .ok .min
  | 2 => .ok .minZ
  | 3 => .ok .max
  | 4 => .ok .maxZ
  | 5 => .ok .and
  | 6 => .ok .or
  | 7 => .ok .xor
  | 8 => .ok .fadd
  | 9 => .ok .fmin
  | 10 => .ok .fmax
  | _ => .bad .add 0x0F

def ReduxOp.code : ReduxOp → Nat
  | .add => 0
  | .min => 1
  | .minZ => 2
  | .max => 3
  | .maxZ => 4
  | .and => 5
  | .or => 6
  | .xor => 7
  | .fadd => 8
  | .fmin => 9
  | .fmax => 10

/-- A CVT type code (R148). -/
def cvtTyOf (c : Nat) : CvtTy := match c with
  | 0 => .s8
  | 1 => .z8
  | 2 => .s16
  | 3 => .z16
  | 4 => .s32
  | 5 => .z32
  | 6 => .s64
  | 7 => .z64
  | 8 => .f16
  | 9 => .bf16
  | 10 => .f32
  | 11 => .f64
  | 12 => .e4m3
  | 13 => .e5m2
  | 14 => .e2m1
  | _ => .e8m0

def CvtTy.code : CvtTy → Nat
  | .s8 => 0
  | .z8 => 1
  | .s16 => 2
  | .z16 => 3
  | .s32 => 4
  | .z32 => 5
  | .s64 => 6
  | .z64 => 7
  | .f16 => 8
  | .bf16 => 9
  | .f32 => 10
  | .f64 => 11
  | .e4m3 => 12
  | .e5m2 => 13
  | .e2m1 => 14
  | .e8m0 => 15

/-- The die byte of ENQ (R320). -/
def eDie (c : Nat) : P EnqDie :=
  if h : c < 8 then .ok (.vd ⟨c, h⟩) else if c = 8 then .ok .any else if c = 9 then .ok .own else .bad .any 0x0F

def EnqDie.code : EnqDie → Nat
  | .vd n => n
  | .any => 8
  | .own => 9

/-- Class arun or brun with its tile nibble (R170). -/
def pSpanSrc (b n c tile : Nat) : P SpanSrc :=
  if h : c < 192 then ⟨.run ⟨c, h⟩, vErrs b 8 n c ++ (if tile = 0 then [] else [0x0F])⟩
  else if h : c - 0xC0 < 48 then ⟨.desc ⟨c - 0xC0, h⟩, sErrs 2 (c - 0xC0)⟩
  else .bad (.desc 0) 0x05

def SpanSrc.code : SpanSrc → Nat
  | .run n => n
  | .desc n => 0xC0 + n

/-- The operands every SPAN.MMA form shares (R170). -/
def pMma (b bn : Nat) (f : Fields) : P MmaOps :=
  (P.ok MmaOps.mk).ap (pRun b 32 32 f.d) |>.ap (pSpanSrc b 32 f.a (f.e % 16)) |>.ap (pSpanSrc b bn f.b (f.e / 16))
    |>.ap (.ok (Fin.ofNat 16 (f.e / 16))) |>.ap (.ok (Fin.ofNat 16 f.e))

/-! ## Full instructions -/

/-- The shared shapes of the encoding tables: the guard first, then the fields in the order d, a, b, c, e. -/
def row (f : Fields) {β : Type} (k : Guard → β) : P β := (P.ok k).ap (pGuard f)

/-- One-source register forms. -/
def rowDA (b : Nat) (f : Fields) {β : Type} (k : Guard → Dst → Src → β) : P β :=
  (row f k).ap (pDst b 1 f.d) |>.ap (pSrc b 1 f.a) |>.also (unused f.b ++ unused f.c)

/-- Two-source register forms. -/
def rowDAB (b : Nat) (f : Fields) {β : Type} (k : Guard → Dst → Src → Src → β) : P β :=
  (row f k).ap (pDst b 1 f.d) |>.ap (pSrc b 1 f.a) |>.ap (pSrc b 1 f.b) |>.also (unused f.c)

/-- Three-source register forms. -/
def rowDABC (b : Nat) (f : Fields) {β : Type} (k : Guard → Dst → Src → Src → Src → β) : P β :=
  (row f k).ap (pDst b 1 f.d) |>.ap (pSrc b 1 f.a) |>.ap (pSrc b 1 f.b) |>.ap (pSrc b 1 f.c)

/-- Two-source forms over pairs. -/
def rowDAB64 (b : Nat) (f : Fields) {β : Type} (k : Guard → Dst → Src → Src → β) : P β :=
  (row f k).ap (pDst b 2 f.d) |>.ap (pSrc b 2 f.a) |>.ap (pSrc b 2 f.b) |>.also (unused f.c)

/-- Forms with the guard and nothing else. -/
def rowG (f : Fields) (k : Guard → Instr) : P Instr :=
  (row f k).also (unused f.d ++ unused f.a ++ unused f.b ++ unused f.c)

/-- E and MOD both unused. -/
def P.noEM {α : Type} (x : P α) (f : Fields) : P α := x.also (unusedE f.e ++ unusedM f.mod)

/-- E unused. -/
def P.noE {α : Type} (x : P α) (f : Fields) : P α := x.also (unusedE f.e)

/-- MOD unused. -/
def P.noM {α : Type} (x : P α) (f : Fields) : P α := x.also (unusedM f.mod)

/-- Compare forms (R122, R134): predicate destination, two sources of alignment `k`, and the combined predicate. -/
def rowCmp (b k : Nat) (f : Fields) {β : Type} (c : Guard → Fin 8 → Src → Src → PComb → β) : P β :=
  (row f c).ap (pPred f.d) |>.ap (pSrc b k f.a) |>.ap (pSrc b k f.b) |>.ap (pComb f.c)

/-- Loads (R204): the address class by `k`. -/
def rowLoad (b k : Nat) (ok : Attr → Bool) (szOf : Nat → P LoadSize) (f : Fields)
    (c : Guard → Dst → Src → Src → Attr → LoadSize → Instr) : P Instr :=
  (row f c).ap (pLoad b (szOf f.mod).val f.d) |>.ap (pSrc b k f.a) |>.ap (pSrc b 1 f.b) |>.ap (eAttr ok f.e)
    |>.ap (szOf f.mod) |>.also (unused f.c)

/-- Stores (R204). -/
def rowStore (b k : Nat) (ok : Attr → Bool) (f : Fields)
    (c : Guard → Src → Src → Src → Attr → StoreSize → Instr) : P Instr :=
  (row f c).ap (pSrc b k f.a) |>.ap (pSrc b 1 f.b) |>.ap (pStore b (mStore f.mod).val f.c) |>.ap (eAttr ok f.e)
    |>.ap (mStore f.mod) |>.also (unused f.d)

/-- Atomics (R204). -/
def rowAtom (b k : Nat) (f : Fields)
    (c : Guard → Dst → Src → Src → Option Src → Attr → AtomOp → Instr) : P Instr :=
  let wide := (eAttr Attr.okAtom f.e).val.bit2
  (row f c).ap (pDst b (al wide) f.d) |>.ap (pSrc b k f.a) |>.ap (pSrc b (al wide) f.b)
    |>.ap (pCas b (mAtom f.mod).val wide f.c) |>.ap (eAttr Attr.okAtom f.e) |>.ap (mAtom f.mod)

/-- Reductions (R204). -/
def rowRed (b : Nat) (f : Fields) (c : Guard → Src → Src → Attr → AtomOp → Instr) : P Instr :=
  let wide := (eAttr Attr.okRed f.e).val.bit2
  (row f c).ap (pSrc b 2 f.a) |>.ap (pSrc b (al wide) f.b) |>.ap (eAttr Attr.okRed f.e) |>.ap (mRed f.mod)
    |>.also (unused f.d ++ unused f.c)

/-- Shuffles (R292). -/
def rowShfl (b : Nat) (f : Fields)
    (c : Guard → Dst → Src → Src → Option (Fin 8) → ShflWidth → Instr) : P Instr :=
  (row f c).ap (pDst b 1 f.d) |>.ap (pSrc b 1 f.a) |>.ap (pSrc b 1 f.b) |>.ap (pOptPred f.c) |>.ap (mShfl f.mod)
    |>.also (unusedE f.e)

/-- The votes that write a predicate (R292). -/
def rowVote (f : Fields) (c : Guard → Fin 8 → PComb → Instr) : P Instr :=
  (row f c).ap (pPred f.d) |>.ap (pComb f.a) |>.also (unused f.b ++ unused f.c) |>.noEM f

/-- DOT4F and DOT8F (R141). -/
def rowDotF (b : Nat) (f : Fields)
    (c : Guard → Dst → Src → Src → Src → Fin 4 → Fin 4 → FpMode → Instr) : P Instr :=
  let e := eBsel f.e
  (row f c).ap (pDst b 1 f.d) |>.ap (pSrc b 1 f.a) |>.ap (pSrc b 1 f.b) |>.ap (pSc2 b f.c) |>.ap ⟨e.val.1, e.errs⟩
    |>.ap (.ok e.val.2) |>.ap (mFp f.mod)

/-- DOT4 and DOT8 (R141). -/
def rowDot (b : Nat) (f : Fields) (c : Guard → Dst → Src → Src → Src → Bool → Bool → Instr) : P Instr :=
  (rowDABC b f c).ap (.ok (f.mod % 2 == 1)) |>.ap ⟨f.mod / 2 % 2 == 1, if f.mod / 4 = 0 then [] else [0x0F]⟩
    |>.also (unusedE f.e)

/-- HSETP2 (R141). -/
def rowHset (b : Nat) (f : Fields)
    (c : Guard → Fin 4 → Src → Src → PComb → FCompare → PCombine → Instr) : P Instr :=
  (row f c).ap (pPred2 f.d) |>.ap (pSrc b 1 f.a) |>.ap (pSrc b 1 f.b) |>.ap (pComb f.c) |>.ap (eFCompare f.e)
    |>.ap (mCombine f.mod)

/-- SCALE (R141, R147): MOD[3] is .E8, and E is a byte-select only then. -/
def rowScale (b : Nat) (f : Fields) : P Instr :=
  (rowDAB b f Instr.scale).ap
      (if f.mod / 8 = 0 then ⟨none, unusedE f.e⟩
       else (pImm 4 f.e).map some)
    |>.ap (.ok ⟨rndOf (f.mod % 4), f.mod / 4 % 2 == 1⟩)

/-- CVT (R141, R148, R150). -/
def rowCvt (b : Nat) (f : Fields) : P Instr :=
  let dt := cvtTyOf (f.e / 16)
  let st := cvtTyOf (f.e % 16)
  let n := cvtCount dt st
  let rnd := rndOf (f.mod % 4)
  let sr := f.mod / 8 == 1
  (row f Instr.cvt).ap (pRunDst b (cvtRun n dt.width) f.d) |>.ap (pRunSrc b (cvtRun n st.width) f.a)
    |>.ap (.ok dt) |>.ap (.ok st) |>.ap (.ok rnd) |>.ap (.ok (f.mod / 4 % 2 == 1)) |>.ap (.ok sr)
    |>.also (unused f.b ++ unused f.c ++ (if cvtOk dt st rnd sr then [] else [0x0F]))

/-- PACK (R141, R151): which fields are used depends on MOD. -/
def rowPack (b : Nat) (f : Fields) : P Instr :=
  (row f Instr.pack).ap (pDst b 1 f.d) |>.ap
    (match f.mod with
     | 0 => (P.ok PackForm.h16).ap (pSrc b 1 f.a) |>.ap (pSrc b 1 f.b) |>.also (unused f.c ++ unusedE f.e)
     | 1 => (P.ok PackForm.b8).ap (pSrc b 1 f.a) |>.ap (pSrc b 1 f.b) |>.ap (pSrc b 1 f.c) |>.ap (pSrc b 1 f.e)
     | 2 => (P.ok PackForm.n4).ap (pSrcRun b 2 8 f.a) |>.also (unused f.b ++ unused f.c ++ unusedE f.e)
     | 6 => (P.ok PackForm.s4sat).ap (pSrcRun b 2 8 f.a) |>.also (unused f.b ++ unused f.c ++ unusedE f.e)
     | 7 => (P.ok PackForm.z4sat).ap (pSrcRun b 2 8 f.a) |>.also (unused f.b ++ unused f.c ++ unusedE f.e)
     | _ => (P.ok PackForm.h16).ap (pSrc b 1 f.a) |>.ap (pSrc b 1 f.b) |>.also (unused f.c ++ unusedE f.e ++ [0x0F]))

/-- The forms of UNPACK in MOD (R141). -/
def mUnpack (m : Nat) : P UnpackForm := match m with
  | 0 => .ok .z16
  | 1 => .ok .s16
  | 2 => .ok .z8
  | 3 => .ok .s8
  | 4 => .ok .z4
  | 5 => .ok .s4
  | _ => .bad .z16 0x0F

def UnpackForm.code : UnpackForm → Nat
  | .z16 => 0
  | .s16 => 1
  | .z8 => 2
  | .s8 => 3
  | .z4 => 4
  | .s4 => 5

/-- SAVEW and RESTW (R385): the .V and .S forms by MOD; any other MOD is read as .C. -/
def rowSave (b : Nat) (f : Fields) (kc : Guard → Instr) (kv : Guard → Fin 192 → Fin 256 → Instr)
    (ks : Guard → Src → Src → Instr) : P Instr :=
  match f.mod with
  | 1 => (row f kv).ap (pRun b 8 (8 * f.e) f.a) |>.ap
      ⟨Fin.ofNat 256 f.e, if 1 ≤ f.e ∧ f.e ≤ 24 then [] else [0x0F]⟩ |>.also (unused f.d ++ unused f.b ++ unused f.c)
  | 2 => (row f ks).ap (pSrc b 1 f.a) |>.ap (pSrc b 1 f.b) |>.also (unused f.d ++ unused f.c) |>.noE f
  | m => (rowG f kc).noE f |>.also (if m = 0 then [] else [0x0F])

/-- The integer, address and move rows (R119). -/
def decodeInt (env : DecodeEnv) (f : Fields) : Option (P Instr) :=
  let b := env.budget
  match f.op with
  | 0x000 => some ((rowDAB b f Instr.iadd).ap (mAdd f.mod) |>.noE f)
  | 0x001 => some ((rowDABC b f Instr.iadd3).noEM f)
  | 0x002 => some ((rowDAB b f Instr.isub).ap (mAdd f.mod) |>.noE f)
  | 0x003 => some ((rowDA b f Instr.ineg).ap (mBool f.mod) |>.noE f)
  | 0x004 => some ((rowDA b f Instr.iabs).ap (mBool f.mod) |>.noE f)
  | 0x005 => some ((rowDAB b f Instr.imul24).ap (mBool f.mod) |>.noE f)
  | 0x006 => some ((rowDAB b f Instr.imul24h).ap (mBool f.mod) |>.noE f)
  | 0x007 => some ((rowDABC b f Instr.imad24).ap (mBool f.mod) |>.noE f)
  | 0x008 => some ((rowDAB b f Instr.imul).noEM f)
  | 0x009 => some ((rowDAB b f Instr.imulh).ap (mBool f.mod) |>.noE f)
  | 0x00A => some ((rowDABC b f Instr.imad).noEM f)
  | 0x00B => some ((rowDAB b f Instr.imin).ap (mBool f.mod) |>.noE f)
  | 0x00C => some ((rowDAB b f Instr.imax).ap (mBool f.mod) |>.noE f)
  | 0x00D => some ((rowCmp b 1 f Instr.isetp).ap (eICmp f.e) |>.ap (eICmpZ f.e) |>.ap (mCombine f.mod))
  | 0x00E =>
    let w := mBool f.mod
    some ((row f Instr.sel).ap (pDst b (al w.val) f.d) |>.ap (pSrc b (al w.val) f.a) |>.ap (pSrc b (al w.val) f.b)
      |>.ap (pComb f.c) |>.ap w |>.noE f)
  | 0x00F => some ((rowDABC b f Instr.lop3).ap (pByte f.e) |>.noM f)
  | 0x010 => some ((rowDAB b f Instr.shl).noEM f)
  | 0x011 => some ((rowDAB b f Instr.shr).noEM f)
  | 0x012 => some ((rowDAB b f Instr.sha).noEM f)
  | 0x013 => some ((rowDABC b f Instr.shf).ap (mBool f.mod) |>.noE f)
  | 0x014 => some ((rowDABC b f Instr.bfe).ap (mBool f.mod) |>.noE f)
  | 0x015 => some ((rowDABC b f Instr.bfi).ap (pSrc b 1 f.e) |>.noM f)
  | 0x016 => some ((rowDA b f Instr.brev).noEM f)
  | 0x017 => some ((rowDA b f Instr.popc).noEM f)
  | 0x018 => some ((rowDA b f Instr.clz).noEM f)
  | 0x019 => some ((rowDA b f Instr.ctz).noEM f)
  | 0x01A => some ((rowDABC b f Instr.prmt).noEM f)
  | 0x01B => some ((row f Instr.lea).ap (pDst b 2 f.d) |>.ap (pSrc b 2 f.a) |>.ap (pSrc b 1 f.b) |>.ap (pImm 32 f.e)
      |>.ap (mBool f.mod) |>.also (unused f.c))
  | 0x01C => some ((rowDAB64 b f Instr.iadd64).ap (mBool f.mod) |>.noE f)
  | 0x01D =>
    let w := mBool f.mod
    some ((row f Instr.mov).ap (pDst b (al w.val) f.d) |>.ap (pSrc b (al w.val) f.a) |>.ap w
      |>.also (unused f.b ++ unused f.c) |>.noE f)
  | 0x01E => some ((row f Instr.movi).ap (pDst b 1 f.d) |>.ap (pByte f.e) |>.ap (mBool f.mod)
      |>.also (unused f.a ++ unused f.b ++ unused f.c))
  | 0x01F => some ((row f Instr.movs).ap (pDst b 1 f.d) |>.ap
      ⟨Fin.ofNat 256 f.e, if movsOk env.postilion f.e then [] else [0x12]⟩
      |>.also (unused f.a ++ unused f.b ++ unused f.c) |>.noM f)
  | 0x020 => some ((row f Instr.mts).ap (pSrc b 1 f.a) |>.ap
      ⟨Fin.ofNat 256 f.e, if mtsOk env.postilion f.e then [] else [0x12]⟩
      |>.also (unused f.d ++ unused f.b ++ unused f.c) |>.noM f)
  | 0x021 => some ((row f Instr.plop3).ap (pPred f.d) |>.ap (pPred f.a) |>.ap (pPred f.b) |>.ap (pPred f.c)
      |>.ap (pByte f.e) |>.noM f)
  | _ => none

/-- The floating-point rows (R119). The class of FRND's operands follows MOD[2] also where MOD[3] makes the modifier one that is not
accepted, so that the reason of an operand out of that class may be the lower one (assumption log 14). -/
def decodeFloat (env : DecodeEnv) (f : Fields) : Option (P Instr) :=
  let b := env.budget
  match f.op with
  | 0x040 => some ((rowDAB b f Instr.fadd).ap (eSMod false f.e) |>.ap (mFp f.mod))
  | 0x041 => some ((rowDAB b f Instr.fmul).ap (eSMod false f.e) |>.ap (mFp f.mod))
  | 0x042 => some ((rowDAB b f Instr.fmin).ap (eSMod false f.e) |>.noM f)
  | 0x043 => some ((rowDAB b f Instr.fmax).ap (eSMod false f.e) |>.noM f)
  | 0x044 => some ((rowDABC b f Instr.ffma).ap (eSMod true f.e) |>.ap (mFp f.mod))
  | 0x045 => some ((rowCmp b 1 f Instr.fsetp).ap (eFCompare f.e) |>.ap (mCombine f.mod))
  | 0x046 =>
    let w := mBool f.mod
    some ((row f Instr.fclass).ap (pDst b 1 f.d) |>.ap (pSrc b (al w.val) f.a) |>.ap w
      |>.also (unused f.b ++ unused f.c) |>.noE f)
  | 0x047 =>
    let w := f.mod / 4 % 2 == 1
    some ((row f Instr.frnd).ap (pDst b (al w) f.d) |>.ap (pSrc b (al w) f.a) |>.ap (.ok (rndOf (f.mod % 4)))
      |>.ap ⟨w, if f.mod / 8 = 0 then [] else [0x0F]⟩ |>.also (unused f.b ++ unused f.c) |>.noE f)
  | 0x048 => some ((rowDAB64 b f Instr.dadd).ap (eSMod false f.e) |>.ap (mFp f.mod))
  | 0x049 => some ((rowDAB64 b f Instr.dmul).ap (eSMod false f.e) |>.ap (mFp f.mod))
  | 0x04A => some ((row f Instr.dfma).ap (pDst b 2 f.d) |>.ap (pSrc b 2 f.a) |>.ap (pSrc b 2 f.b) |>.ap (pSrc b 2 f.c)
      |>.ap (eSMod true f.e) |>.ap (mFp f.mod))
  | 0x04B => some ((rowCmp b 2 f Instr.dsetp).ap (eFCompare f.e) |>.ap (mCombine f.mod))
  | _ => none

/-- The packed, dot-product, conversion and special-function rows (R141). -/
def decodeNarrow (env : DecodeEnv) (f : Fields) : Option (P Instr) :=
  let b := env.budget
  match f.op with
  | 0x080 => some ((rowDAB b f Instr.hadd2F16).ap (eSMod false f.e) |>.ap (mFp f.mod))
  | 0x081 => some ((rowDAB b f Instr.hadd2Bf16).ap (eSMod false f.e) |>.ap (mFp f.mod))
  | 0x082 => some ((rowDAB b f Instr.hmul2F16).ap (eSMod false f.e) |>.ap (mFp f.mod))
  | 0x083 => some ((rowDAB b f Instr.hmul2Bf16).ap (eSMod false f.e) |>.ap (mFp f.mod))
  | 0x084 => some ((rowDABC b f Instr.hfma2F16).ap (eSMod true f.e) |>.ap (mFp f.mod))
  | 0x085 => some ((rowDABC b f Instr.hfma2Bf16).ap (eSMod true f.e) |>.ap (mFp f.mod))
  | 0x086 => some ((rowDAB b f Instr.hmin2F16).ap (eSMod false f.e) |>.noM f)
  | 0x087 => some ((rowDAB b f Instr.hmin2Bf16).ap (eSMod false f.e) |>.noM f)
  | 0x088 => some ((rowDAB b f Instr.hmax2F16).ap (eSMod false f.e) |>.noM f)
  | 0x089 => some ((rowDAB b f Instr.hmax2Bf16).ap (eSMod false f.e) |>.noM f)
  | 0x08A => some (rowHset b f Instr.hsetp2F16)
  | 0x08B => some (rowHset b f Instr.hsetp2Bf16)
  | 0x08C => some (rowDot b f Instr.dot4S8)
  | 0x08D => some (rowDot b f Instr.dot4Z8)
  | 0x08E => some (rowDot b f Instr.dot8S4)
  | 0x08F => some (rowDot b f Instr.dot8Z4)
  | 0x090 => some (rowDotF b f Instr.dot4fE4m3)
  | 0x091 => some (rowDotF b f Instr.dot4fE5m2)
  | 0x092 => some (rowDotF b f Instr.dot8fE2m1)
  | 0x093 => some (rowScale b f)
  | 0x094 => some (rowCvt b f)
  | 0x095 => some (rowPack b f)
  | 0x096 => some ((row f Instr.unpack).ap (pRunDst b (mUnpack f.mod).val.run f.d) |>.ap (pSrc b 1 f.a)
      |>.ap (mUnpack f.mod) |>.also (unused f.b ++ unused f.c) |>.noE f)
  | 0x0A0 => some ((rowDA b f Instr.rcp).noEM f)
  | 0x0A1 => some ((rowDA b f Instr.rsq).noEM f)
  | 0x0A2 => some ((rowDA b f Instr.sqrt).noEM f)
  | 0x0A3 => some ((rowDA b f Instr.ex2).noEM f)
  | 0x0A4 => some ((rowDA b f Instr.lg2).noEM f)
  | 0x0A5 => some ((rowDA b f Instr.sin).noEM f)
  | 0x0A6 => some ((rowDA b f Instr.cos).noEM f)
  | 0x0A7 => some ((rowDA b f Instr.tanh).noEM f)
  | _ => none

/-- The cross-lane and barrier rows (R292). -/
def decodeCross (env : DecodeEnv) (f : Fields) : Option (P Instr) :=
  let b := env.budget
  match f.op with
  | 0x0C0 => some (rowShfl b f Instr.shflIdx)
  | 0x0C1 => some (rowShfl b f Instr.shflUp)
  | 0x0C2 => some (rowShfl b f Instr.shflDn)
  | 0x0C3 => some (rowShfl b f Instr.shflXor)
  | 0x0C4 => some (rowVote f Instr.voteAny)
  | 0x0C5 => some (rowVote f Instr.voteAll)
  | 0x0C6 => some (rowVote f Instr.voteEq)
  | 0x0C7 => some ((row f Instr.voteBal).ap (pDst b 1 f.d) |>.ap (pComb f.a) |>.also (unused f.b ++ unused f.c) |>.noEM f)
  | 0x0C8 => some ((rowDA b f Instr.redux).ap (mRedux f.mod) |>.noE f)
  | 0x0C9 => some ((rowDA b f Instr.scan).ap (mBool f.e) |>.ap (mRedux f.mod))
  | 0x0CA =>
    let w := mBool f.mod
    some ((row f Instr.matchLanes).ap (pDst b 1 f.d) |>.ap (pSrc b (al w.val) f.a) |>.ap w
      |>.also (unused f.b ++ unused f.c) |>.noE f)
  | 0x0D0 => some ((row f Instr.barArr).ap (pImm 64 f.e) |>.ap (pSrc b 1 f.a)
      |>.also (unused f.d ++ unused f.b ++ unused f.c) |>.noM f)
  | 0x0D1 => some ((rowG f (fun g => Instr.barWait g (pImm 64 f.e).val)).also (pImm 64 f.e).errs |>.noM f)
  | 0x0D2 => some ((row f Instr.barSync).ap (pImm 64 f.e) |>.ap (pSrc b 1 f.a)
      |>.also (unused f.d ++ unused f.b ++ unused f.c) |>.noM f)
  | 0x0D3 => some ((row f Instr.pbarArr).ap (pSrc b 1 f.a) |>.ap (pSrc b 1 f.b) |>.ap (mBool f.mod)
      |>.also (unused f.d ++ unused f.c) |>.noE f)
  | 0x0D4 => some ((row f Instr.pbarWait).ap (pOptDst b f.d) |>.ap (pSrc b 1 f.a) |>.ap (pSrc b 1 f.b) |>.ap (mBool f.mod)
      |>.also (unused f.c) |>.noE f)
  | 0x0D5 => some ((rowG f (if f.mod = 1 then Instr.gbarGang else Instr.gbarGrid)).also (mBool f.mod).errs |>.noE f)
  | _ => none

/-- The control rows (R281). -/
def decodeControl (env : DecodeEnv) (f : Fields) : Option (P Instr) :=
  let b := env.budget
  let rel : List Nat := if f.a = 0xF1 then [] else [0x05]
  match f.op with
  | 0x100 => some ((row f Instr.bra).also (rel ++ unused f.d ++ unused f.b ++ unused f.c) |>.noEM f)
  | 0x101 => some ((row f Instr.brx).ap (pSrc b 2 f.a) |>.also (unused f.d ++ unused f.b ++ unused f.c) |>.noEM f)
  | 0x102 => some ((row f Instr.call).ap (pRun b 2 2 f.d) |>.also (rel ++ unused f.b ++ unused f.c) |>.noEM f)
  | 0x103 => some ((row f Instr.calli).ap (pRun b 2 2 f.d) |>.ap (pSrc b 2 f.a) |>.also (unused f.b ++ unused f.c) |>.noEM f)
  | 0x104 => some ((row f Instr.ret).ap (pSrc b 2 f.a) |>.also (unused f.d ++ unused f.b ++ unused f.c) |>.noEM f)
  | 0x105 => some ((row f Instr.join).ap (pImm 16 f.e) |>.ap (pOpt b f.a)
      |>.also (unused f.d ++ unused f.b ++ unused f.c) |>.noM f)
  | 0x106 => some ((rowG f (fun g => Instr.waitj g (pImm 16 f.e).val)).also (pImm 16 f.e).errs |>.noM f)
  | 0x107 => some ((row f Instr.dropj).ap (pImm 16 f.e) |>.ap (pOpt b f.a)
      |>.also (unused f.d ++ unused f.b ++ unused f.c) |>.noM f)
  | 0x108 => some ((rowG f Instr.exit).noEM f)
  | 0x109 => some ((rowG f Instr.yield).noEM f)
  | 0x10A => some ((rowG f Instr.nop).noEM f)
  | 0x10B => some ((rowG f (fun g => Instr.bpt g (Fin.ofNat 256 f.e))).noM f)
  | 0x10C => some ((rowG f (fun g => Instr.trap g (Fin.ofNat 256 f.e))).noM f)
  | 0x10D =>
    some (if f.mod = 1 then
        (row f Instr.rftTo).ap (pSrc b 2 f.a) |>.also (unused f.d ++ unused f.b ++ unused f.c) |>.noE f
      else (rowG f Instr.rftResume).noEM f)
  | _ => none

/-- The memory, copy, fence and PUBLISH rows (R204). -/
def decodeMem (env : DecodeEnv) (f : Fields) : Option (P Instr) :=
  let b := env.budget
  match f.op with
  | 0x140 => some (rowLoad b 1 Attr.okFrame mLoad f Instr.ldf)
  | 0x141 => some (rowStore b 1 Attr.okFrame f Instr.stf)
  | 0x150 => some (rowLoad b 1 Attr.okLoad mLoad f Instr.lds)
  | 0x151 => some (rowStore b 1 Attr.okStore f Instr.sts)
  | 0x152 => some (rowAtom b 1 f Instr.ats)
  | 0x160 => some (rowLoad b 1 Attr.okLoad mLoad f Instr.ldc)
  | 0x161 => some (rowStore b 1 Attr.okStore f Instr.stc)
  | 0x162 => some (rowAtom b 1 f Instr.atc)
  | 0x170 => some (rowLoad b 2 Attr.okLdg mLoad f Instr.ldg)
  | 0x171 => some (rowStore b 2 Attr.okStg f Instr.stg)
  | 0x172 => some (rowAtom b 2 f Instr.atg)
  | 0x173 => some (rowRed b f Instr.redg)
  | 0x174 => some ((row f Instr.pf).ap (pSrc b 2 f.a) |>.ap (pSrc b 1 f.b) |>.ap (mBool f.mod)
      |>.also (unused f.d ++ unused f.c) |>.noE f)
  | 0x180 => some (rowLoad b 2 Attr.okLdt mLdt f Instr.ldt)
  | 0x190 => some (rowLoad b 2 Attr.okLoad mLoad f Instr.ldh)
  | 0x191 => some (rowStore b 2 Attr.okStore f Instr.sth)
  | 0x192 => some (rowAtom b 2 f Instr.ath)
  | 0x193 => some (rowRed b f Instr.redh)
  | 0x1A0 =>
    let dir := mCpyDir f.mod
    let shw := f.mod / 8 == 1
    some ((row f Instr.cpy).ap (pSrc b (al dir.val.srcDev) f.a) |>.ap (pSrc b (al dir.val.dstDev) f.b) |>.ap (pOpt b f.c)
      |>.ap (pSpE f.e) |>.ap dir |>.ap ⟨shw, if !shw || dir.val.dstDev then [] else [0x0F]⟩ |>.also (unused f.d))
  | 0x1A1 => some ((row f Instr.cpyx).ap (pRun b 2 2 f.a) |>.ap (pSrc b 1 f.b) |>.ap (pOpt b f.c) |>.ap (mBool f.e)
      |>.ap (pImm 9 f.mod) |>.also (unused f.d))
  | 0x1A2 => some ((row f Instr.synci).ap (pSrc b 1 f.a) |>.ap (pSrc b 1 f.b) |>.ap (pOpt b f.c) |>.ap (mBool f.mod)
      |>.also (unused f.d) |>.noE f)
  | 0x1A3 => some ((row f Instr.syncw).ap (pOptDst b f.d) |>.ap (pSrc b 1 f.a) |>.ap (pSrc b 1 f.b) |>.ap (mBool f.mod)
      |>.also (unused f.c) |>.noE f)
  | 0x1A8 => some ((rowG f (fun g => Instr.fence g (eAttr Attr.okFence f.e).val)).also (eAttr Attr.okFence f.e).errs |>.noM f)
  | 0x1A9 =>
    some ((rowG f (fun g => Instr.fenceXp g (eAttr Attr.okFenceXp f.e).val)).also (eAttr Attr.okFenceXp f.e).errs |>.noM f)
  | 0x1AA => some ((rowG f Instr.fencePt).noEM f)
  | 0x1AB => some ((row f Instr.publish).ap (pDst b 2 f.d) |>.ap (pSrc b 2 f.a) |>.ap (pSrc b 2 f.b) |>.ap (pSrc b 2 f.c)
      |>.noEM f)
  | _ => none

/-- A SPAN.MMA row whose C field names a run of `n` registers aligned to `k` (R170). -/
def rowMmaC (b bn k n : Nat) (f : Fields) (c : Guard → MmaOps → Fin 192 → Instr) : P Instr :=
  (row f c).ap (pMma b bn f) |>.ap (pRun b k n f.c) |>.noM f

/-- The span rows (R170). -/
def decodeSpan (env : DecodeEnv) (f : Fields) : Option (P Instr) :=
  let b := env.budget
  match f.op with
  | 0x1C0 => some ((rowG f Instr.hitch).noEM f)
  | 0x1C1 => some ((rowG f Instr.unhitch).noEM f)
  | 0x1C2 => some ((row f Instr.spanAcq).ap (pRun b 32 32 f.d) |>.also (unused f.a ++ unused f.b ++ unused f.c) |>.noEM f)
  | 0x1C3 =>
    some (if f.mod = 1 ∨ f.mod = 3 then
        (row f Instr.spanRelSt).ap (pRun b 32 32 f.d) |>.ap (pSp f.a)
          |>.ap (let x := pSrc b 1 f.b; if x.val.okScalarLit then x else .bad .lit 0x05)
          |>.ap (.ok (f.mod == 3)) |>.also (unused f.c) |>.noE f
      else (row f Instr.spanRel).ap (pRun b 32 32 f.d) |>.also (unused f.a ++ unused f.b ++ unused f.c) |>.noEM f)
  | 0x1C4 => some ((row f Instr.spanZero).ap (pRun b 32 32 f.d) |>.also (unused f.a ++ unused f.b ++ unused f.c) |>.noEM f)
  | 0x1C5 => some ((row f Instr.spanStat).ap (pDst b 1 f.d) |>.ap (pImm 7 f.e)
      |>.also (unused f.a ++ unused f.b ++ unused f.c) |>.noM f)
  | 0x1C6 => some ((row f Instr.spanRbox).ap (pRun b 2 2 f.d) |>.ap (pRun b 8 8 f.a) |>.ap (pSp f.b)
      |>.ap ⟨Fin.ofNat 16 (f.e / 16), if f.e % 16 = 0 then [] else [0x0F]⟩ |>.also (unused f.c) |>.noM f)
  | 0x1C7 => some ((row f Instr.spanLoop).ap (pRun b 32 32 f.d) |>.ap (pSp f.a) |>.ap (pSp f.b) |>.ap (pSp f.c)
      |>.ap (.ok (Fin.ofNat 256 f.e)) |>.noM f)
  | 0x1C8 => some ((row f Instr.spanMmaBf16).ap (pMma b 32 f) |>.also (unused f.c) |>.noM f)
  | 0x1C9 => some (rowMmaC b 32 2 2 f Instr.spanMmaE4m3)
  | 0x1CA => some (rowMmaC b 32 2 2 f Instr.spanMmaE5m2)
  | 0x1CB => some (rowMmaC b 32 2 2 f Instr.spanMmaE2m1)
  | 0x1CC => some (rowMmaC b 8 1 1 f Instr.spanMmaW4bf)
  | 0x1CD => some (rowMmaC b 8 1 1 f Instr.spanMmaWf4bf)
  | 0x1D0 => some (rowMmaC b 32 2 2 f Instr.spanMmaE4m3B32)
  | 0x1D1 => some (rowMmaC b 32 2 2 f Instr.spanMmaE5m2B32)
  | 0x1D2 => some (rowMmaC b 32 4 4 f Instr.spanMmaE2m1B32)
  | _ => none

/-- The blending operation in MOD (R263). -/
def mBlend (m : Nat) : P BlendOp := match m with
  | 0 => .ok .rep
  | 1 => .ok .over
  | 2 => .ok .add
  | _ => .bad .rep 0x0F

def BlendOp.code : BlendOp → Nat
  | .rep => 0
  | .over => 1
  | .add => 2

/-- The raster and system rows (R263, R320, R385). -/
def decodeSys (env : DecodeEnv) (f : Fields) : Option (P Instr) :=
  let b := env.budget
  match f.op with
  | 0x1E0 => some ((row f Instr.rastEmit).ap (pRun b 8 8 f.a) |>.ap (pSp f.b) |>.ap (pRun b 2 2 f.c) |>.ap (pComb f.e)
      |>.also (unused f.d) |>.noM f)
  | 0x1E1 => some ((rowG f Instr.pixOrd).noEM f)
  | 0x1E2 => some ((row f Instr.pixBlend).ap (pRun b 4 4 f.a) |>.ap (mBlend f.mod)
      |>.also (unused f.d ++ unused f.b ++ unused f.c) |>.noE f)
  | 0x1E3 => some ((row f Instr.pixLd).ap (pRun b 2 2 f.d) |>.also (unused f.a ++ unused f.b ++ unused f.c) |>.noEM f)
  | 0x1F0 => some ((row f Instr.enq).ap (pDst b 2 f.d) |>.ap (pSrc b 2 f.a) |>.ap (pSrc b 1 f.b) |>.ap (pSrc b 2 f.c)
      |>.ap (eDie f.e) |>.ap (mBool f.mod))
  | 0x1F1 => some ((row f Instr.enqg).ap (pDst b 1 f.d) |>.ap (pSrc b 1 f.a) |>.also (unused f.b ++ unused f.c) |>.noEM f)
  | 0x1F2 => some ((rowDAB b f Instr.dhops).noEM f)
  | 0x1F3 => some (rowSave b f Instr.savewC Instr.savewV Instr.savewS)
  | 0x1F4 => some (rowSave b f Instr.restwC Instr.restwV Instr.restwS)
  | 0x1F5 => some ((rowG f Instr.yieldSaved).noEM f)
  | _ => none

/-- A full instruction: the row of its opcode, or reason 0x01 for an unassigned one (R92). -/
def decodeFull (env : DecodeEnv) (w : Word64) : P Instr :=
  let f := fieldsOf w
  let r := if f.op < 0x040 then decodeInt env f
    else if f.op < 0x080 then decodeFloat env f
    else if f.op < 0x0C0 then decodeNarrow env f
    else if f.op < 0x100 then decodeCross env f
    else if f.op < 0x140 then decodeControl env f
    else if f.op < 0x1C0 then decodeMem env f
    else if f.op < 0x1E0 then decodeSpan env f
    else decodeSys env f
  match r with
  | some p => p
  | none => .bad (.nop .always) 0x01

/-! ## Pairs -/

/-- The pair opcode map (R93). -/
def pairOpOf (c : Nat) : Option PairOp := match c with
  | 0x00 => some .mov
  | 0x01 => some .iadd
  | 0x02 => some .isub
  | 0x03 => some .ineg
  | 0x04 => some .iabs
  | 0x05 => some .imul24
  | 0x06 => some .imul24h
  | 0x08 => some .imin
  | 0x09 => some .imax
  | 0x0A => some .shl
  | 0x0B => some .shr
  | 0x0C => some .sha
  | 0x0D => some .brev
  | 0x0E => some .popc
  | 0x0F => some .clz
  | 0x10 => some .ctz
  | 0x20 => some .fadd
  | 0x21 => some .fmul
  | 0x22 => some .fmin
  | 0x23 => some .fmax
  | 0x40 => some .hadd2F16
  | 0x41 => some .hadd2Bf16
  | 0x42 => some .hmul2F16
  | 0x43 => some .hmul2Bf16
  | 0x44 => some .hmin2F16
  | 0x45 => some .hmin2Bf16
  | 0x46 => some .hmax2F16
  | 0x47 => some .hmax2Bf16
  | _ => none

def PairOp.code : PairOp → Nat
  | .mov => 0x00
  | .iadd => 0x01
  | .isub => 0x02
  | .ineg => 0x03
  | .iabs => 0x04
  | .imul24 => 0x05
  | .imul24h => 0x06
  | .imin => 0x08
  | .imax => 0x09
  | .shl => 0x0A
  | .shr => 0x0B
  | .sha => 0x0C
  | .brev => 0x0D
  | .popc => 0x0E
  | .clz => 0x0F
  | .ctz => 0x10
  | .fadd => 0x20
  | .fmul => 0x21
  | .fmin => 0x22
  | .fmax => 0x23
  | .hadd2F16 => 0x40
  | .hadd2Bf16 => 0x41
  | .hmul2F16 => 0x42
  | .hmul2Bf16 => 0x43
  | .hmin2F16 => 0x44
  | .hmin2Bf16 => 0x45
  | .hmax2F16 => 0x46
  | .hmax2Bf16 => 0x47

/-- One half (R67, R68, R72). -/
def pHalf (bud op d a b : Nat) : P PairHalf :=
  if op = 0x7F then ⟨.empty, if d = 0xFF ∧ a = 0xFF ∧ b = 0xFF then [] else [0x0E]⟩
  else match pairOpOf op with
    | none => .bad .empty 0x02
    | some o =>
      if o.two then (P.ok (PairHalf.op o)).ap (pDst bud 1 d) |>.ap (pSrc bud 1 a) |>.ap ((pSrc bud 1 b).map some)
      else (P.ok (PairHalf.op o)).ap (pDst bud 1 d) |>.ap (pSrc bud 1 a) |>.ap ⟨none, unused b⟩

/-- A pair word (R67 to R69). -/
def decodePair (env : DecodeEnv) (w : Word64) : P Instr :=
  let h1 := pHalf env.budget (fld w 55 7) (fld w 47 8) (fld w 39 8) (fld w 31 8)
  let h2 := pHalf env.budget (fld w 24 7) (fld w 16 8) (fld w 8 8) (fld w 0 8)
  ⟨.pair h1.val h2.val,
    h1.errs ++ h2.errs ++ (if pairDstOk h1.val h2.val then [] else [0x0C])
      ++ (if pairReadsOk h1.val h2.val then [] else [0x0D])⟩

/-- The code fields of a half (R67). -/
def PairHalf.codes : PairHalf → Nat × Nat × Nat × Nat
  | .empty => (0x7F, 0xFF, 0xFF, 0xFF)
  | .op o d a b => (o.code, d.code, a.code, optCode b)

/-! ## Decoding and encoding a word -/

/-- The reasons a word of a clause gives, and its instruction. A header among the words gives 0x0A (R72). -/
def parseWord (env : DecodeEnv) (w : Word64) : P Instr :=
  match kindOf w with
  | .full => decodeFull env w
  | .pair => decodePair env w
  | .header => .bad (.nop .always) 0x0A

/-- The lowest of a list of reasons (R72). -/
def lowest : List Nat → Option Nat
  | [] => none
  | x :: xs => match lowest xs with
    | none => some x
    | some y => some (min x y)

/-- The instruction of a word, or the ILLEGAL reason it raises (R72). -/
def decode (env : DecodeEnv) (w : Word64) : Except Nat Instr :=
  let p := parseWord env w
  match lowest p.errs with
  | none => .ok p.val
  | some r => .error r

/-- The fields every word starts from: nothing used, unguarded (R62). -/
def blank (op : Nat) : Fields :=
  { op := op, d := 0xFF, a := 0xFF, b := 0xFF, c := 0xFF, e := 0xFF, gp := 7, gpn := 0, gc := 0, gq := 0, gqn := 0, mod := 0 }

/-- The E byte of SPAN.MMA (R170). -/
def MmaOps.tiles (o : MmaOps) : Nat := 16 * o.bTile + o.aTile

/-- The fields of the operands every SPAN.MMA form shares (R170). -/
def MmaOps.fields (o : MmaOps) (f : Fields) : Fields :=
  { f with d := o.d, a := o.a.code, b := o.b.code, e := o.tiles }

/-- The fields of PACK (R141). -/
def PackForm.fields (p : PackForm) (f : Fields) : Fields :=
  match p with
  | .h16 a b => { f with a := a.code, b := b.code, mod := 0 }
  | .b8 a b c e => { f with a := a.code, b := b.code, c := c.code, e := e.code, mod := 1 }
  | .n4 a => { f with a := a.code, mod := 2 }
  | .s4sat a => { f with a := a.code, mod := 6 }
  | .z4sat a => { f with a := a.code, mod := 7 }

/-- Fields of d, a. -/
def fDA (op : Nat) (d : Dst) (a : Src) : Fields := { blank op with d := d.code, a := a.code }
/-- Fields of d, a, b. -/
def fDAB (op : Nat) (d : Dst) (a b : Src) : Fields := { fDA op d a with b := b.code }
/-- Fields of d, a, b, c. -/
def fDABC (op : Nat) (d : Dst) (a b c : Src) : Fields := { fDAB op d a b with c := c.code }
/-- Fields of a, b. -/
def fAB (op : Nat) (a b : Src) : Fields := { blank op with a := a.code, b := b.code }
/-- Fields of a compare. -/
def fCmp (op : Nat) (d : Nat) (a b : Src) (c : PComb) (e : Nat) (k : PCombine) : Fields :=
  { blank op with d := d, a := a.code, b := b.code, c := c.code, e := e, mod := k.code }
/-- Fields of a load. -/
def fLoad (op : Nat) (d : Dst) (a b : Src) (t : Attr) (sz : LoadSize) : Fields :=
  { fDAB op d a b with e := t.code, mod := sz.code }
/-- Fields of a store. -/
def fStore (op : Nat) (a b c : Src) (t : Attr) (sz : StoreSize) : Fields :=
  { fAB op a b with c := c.code, e := t.code, mod := sz.code }
/-- Fields of an atomic. -/
def fAtom (op : Nat) (d : Dst) (a b : Src) (c : Option Src) (t : Attr) (o : AtomOp) : Fields :=
  { fDAB op d a b with c := optCode c, e := t.code, mod := o.code }
/-- Fields of a reduction. -/
def fRed (op : Nat) (a b : Src) (t : Attr) (o : AtomOp) : Fields := { fAB op a b with e := t.code, mod := o.code }
/-- Fields of a shuffle. -/
def fShfl (op : Nat) (d : Dst) (a b : Src) (c : Option (Fin 8)) (w : ShflWidth) : Fields :=
  { fDAB op d a b with c := optPredCode c, mod := w.code }

/-- The guard and fields of a full instruction; `none` for a pair and for a device step (R61, R92). -/
def Instr.fields : Instr → Option (Guard × Fields)
  | .iadd g d a b m => some (g, { fDAB 0x000 d a b with mod := m.code })
  | .iadd3 g d a b c => some (g, fDABC 0x001 d a b c)
  | .isub g d a b m => some (g, { fDAB 0x002 d a b with mod := m.code })
  | .ineg g d a m => some (g, { fDA 0x003 d a with mod := bit m })
  | .iabs g d a m => some (g, { fDA 0x004 d a with mod := bit m })
  | .imul24 g d a b m => some (g, { fDAB 0x005 d a b with mod := bit m })
  | .imul24h g d a b m => some (g, { fDAB 0x006 d a b with mod := bit m })
  | .imad24 g d a b c m => some (g, { fDABC 0x007 d a b c with mod := bit m })
  | .imul g d a b => some (g, fDAB 0x008 d a b)
  | .imulh g d a b m => some (g, { fDAB 0x009 d a b with mod := bit m })
  | .imad g d a b c => some (g, fDABC 0x00A d a b c)
  | .imin g d a b m => some (g, { fDAB 0x00B d a b with mod := bit m })
  | .imax g d a b m => some (g, { fDAB 0x00C d a b with mod := bit m })
  | .isetp g d a b c cmp z k => some (g, fCmp 0x00D d a b c (cmp.code + 8 * bit z) k)
  | .sel g d a b c m => some (g, { fDAB 0x00E d a b with c := c.code, mod := bit m })
  | .lop3 g d a b c t => some (g, { fDABC 0x00F d a b c with e := t.toNat })
  | .shl g d a b => some (g, fDAB 0x010 d a b)
  | .shr g d a b => some (g, fDAB 0x011 d a b)
  | .sha g d a b => some (g, fDAB 0x012 d a b)
  | .shf g d a b c m => some (g, { fDABC 0x013 d a b c with mod := bit m })
  | .bfe g d a b c m => some (g, { fDABC 0x014 d a b c with mod := bit m })
  | .bfi g d a b c e => some (g, { fDABC 0x015 d a b c with e := e.code })
  | .brev g d a => some (g, fDA 0x016 d a)
  | .popc g d a => some (g, fDA 0x017 d a)
  | .clz g d a => some (g, fDA 0x018 d a)
  | .ctz g d a => some (g, fDA 0x019 d a)
  | .prmt g d a b c => some (g, fDABC 0x01A d a b c)
  | .lea g d a b sh m => some (g, { fDAB 0x01B d a b with e := sh, mod := bit m })
  | .iadd64 g d a b m => some (g, { fDAB 0x01C d a b with mod := bit m })
  | .mov g d a m => some (g, { fDA 0x01D d a with mod := bit m })
  | .movi g d imm m => some (g, { blank 0x01E with d := d.code, e := imm.toNat, mod := bit m })
  | .movs g d n => some (g, { blank 0x01F with d := d.code, e := n })
  | .mts g a n => some (g, { blank 0x020 with a := a.code, e := n })
  | .plop3 g d a b c t => some (g, { blank 0x021 with d := d, a := a, b := b, c := c, e := t.toNat })
  | .fadd g d a b sm fm => some (g, { fDAB 0x040 d a b with e := sm.code, mod := fm.code })
  | .fmul g d a b sm fm => some (g, { fDAB 0x041 d a b with e := sm.code, mod := fm.code })
  | .fmin g d a b sm => some (g, { fDAB 0x042 d a b with e := sm.code })
  | .fmax g d a b sm => some (g, { fDAB 0x043 d a b with e := sm.code })
  | .ffma g d a b c sm fm => some (g, { fDABC 0x044 d a b c with e := sm.code, mod := fm.code })
  | .fsetp g d a b c cmp k => some (g, fCmp 0x045 d a b c cmp.code k)
  | .fclass g d a m => some (g, { fDA 0x046 d a with mod := bit m })
  | .frnd g d a r m => some (g, { fDA 0x047 d a with mod := r.code + 4 * bit m })
  | .dadd g d a b sm fm => some (g, { fDAB 0x048 d a b with e := sm.code, mod := fm.code })
  | .dmul g d a b sm fm => some (g, { fDAB 0x049 d a b with e := sm.code, mod := fm.code })
  | .dfma g d a b c sm fm => some (g, { fDABC 0x04A d a b c with e := sm.code, mod := fm.code })
  | .dsetp g d a b c cmp k => some (g, fCmp 0x04B d a b c cmp.code k)
  | .hadd2F16 g d a b sm fm => some (g, { fDAB 0x080 d a b with e := sm.code, mod := fm.code })
  | .hadd2Bf16 g d a b sm fm => some (g, { fDAB 0x081 d a b with e := sm.code, mod := fm.code })
  | .hmul2F16 g d a b sm fm => some (g, { fDAB 0x082 d a b with e := sm.code, mod := fm.code })
  | .hmul2Bf16 g d a b sm fm => some (g, { fDAB 0x083 d a b with e := sm.code, mod := fm.code })
  | .hfma2F16 g d a b c sm fm => some (g, { fDABC 0x084 d a b c with e := sm.code, mod := fm.code })
  | .hfma2Bf16 g d a b c sm fm => some (g, { fDABC 0x085 d a b c with e := sm.code, mod := fm.code })
  | .hmin2F16 g d a b sm => some (g, { fDAB 0x086 d a b with e := sm.code })
  | .hmin2Bf16 g d a b sm => some (g, { fDAB 0x087 d a b with e := sm.code })
  | .hmax2F16 g d a b sm => some (g, { fDAB 0x088 d a b with e := sm.code })
  | .hmax2Bf16 g d a b sm => some (g, { fDAB 0x089 d a b with e := sm.code })
  | .hsetp2F16 g d a b c cmp k => some (g, fCmp 0x08A (2 * d) a b c cmp.code k)
  | .hsetp2Bf16 g d a b c cmp k => some (g, fCmp 0x08B (2 * d) a b c cmp.code k)
  | .dot4S8 g d a b c sat mix => some (g, { fDABC 0x08C d a b c with mod := bit sat + 2 * bit mix })
  | .dot4Z8 g d a b c sat mix => some (g, { fDABC 0x08D d a b c with mod := bit sat + 2 * bit mix })
  | .dot8S4 g d a b c sat mix => some (g, { fDABC 0x08E d a b c with mod := bit sat + 2 * bit mix })
  | .dot8Z4 g d a b c sat mix => some (g, { fDABC 0x08F d a b c with mod := bit sat + 2 * bit mix })
  | .dot4fE4m3 g d a b c x y fm => some (g, { fDABC 0x090 d a b c with e := x + 4 * y, mod := fm.code })
  | .dot4fE5m2 g d a b c x y fm => some (g, { fDABC 0x091 d a b c with e := x + 4 * y, mod := fm.code })
  | .dot8fE2m1 g d a b c x y fm => some (g, { fDABC 0x092 d a b c with e := x + 4 * y, mod := fm.code })
  | .scale g d a b e8 fm =>
    some (g, match e8 with
      | none => { fDAB 0x093 d a b with mod := fm.code }
      | some e => { fDAB 0x093 d a b with e := e, mod := fm.code + 8 })
  | .cvt g d a dt st r sat sr =>
    some (g, { fDA 0x094 d a with e := 16 * dt.code + st.code, mod := r.code + 4 * bit sat + 8 * bit sr })
  | .pack g d f => some (g, f.fields { blank 0x095 with d := d.code })
  | .unpack g d a f => some (g, { fDA 0x096 d a with mod := f.code })
  | .rcp g d a => some (g, fDA 0x0A0 d a)
  | .rsq g d a => some (g, fDA 0x0A1 d a)
  | .sqrt g d a => some (g, fDA 0x0A2 d a)
  | .ex2 g d a => some (g, fDA 0x0A3 d a)
  | .lg2 g d a => some (g, fDA 0x0A4 d a)
  | .sin g d a => some (g, fDA 0x0A5 d a)
  | .cos g d a => some (g, fDA 0x0A6 d a)
  | .tanh g d a => some (g, fDA 0x0A7 d a)
  | .pair _ _ => none
  | .shflIdx g d a b c w => some (g, fShfl 0x0C0 d a b c w)
  | .shflUp g d a b c w => some (g, fShfl 0x0C1 d a b c w)
  | .shflDn g d a b c w => some (g, fShfl 0x0C2 d a b c w)
  | .shflXor g d a b c w => some (g, fShfl 0x0C3 d a b c w)
  | .voteAny g d a => some (g, { blank 0x0C4 with d := d, a := a.code })
  | .voteAll g d a => some (g, { blank 0x0C5 with d := d, a := a.code })
  | .voteEq g d a => some (g, { blank 0x0C6 with d := d, a := a.code })
  | .voteBal g d a => some (g, { blank 0x0C7 with d := d.code, a := a.code })
  | .redux g d a o => some (g, { fDA 0x0C8 d a with mod := o.code })
  | .scan g d a x o => some (g, { fDA 0x0C9 d a with e := bit x, mod := o.code })
  | .matchLanes g d a m => some (g, { fDA 0x0CA d a with mod := bit m })
  | .barArr g n a => some (g, { blank 0x0D0 with a := a.code, e := n })
  | .barWait g n => some (g, { blank 0x0D1 with e := n })
  | .barSync g n a => some (g, { blank 0x0D2 with a := a.code, e := n })
  | .pbarArr g a b m => some (g, { fAB 0x0D3 a b with mod := bit m })
  | .pbarWait g d a b m => some (g, { fAB 0x0D4 a b with d := optDstCode d, mod := bit m })
  | .gbarGrid g => some (g, blank 0x0D5)
  | .gbarGang g => some (g, { blank 0x0D5 with mod := 1 })
  | .bra g => some (g, { blank 0x100 with a := 0xF1 })
  | .brx g a => some (g, { blank 0x101 with a := a.code })
  | .call g d => some (g, { blank 0x102 with d := d, a := 0xF1 })
  | .calli g d a => some (g, { blank 0x103 with d := d, a := a.code })
  | .ret g a => some (g, { blank 0x104 with a := a.code })
  | .join g j a => some (g, { blank 0x105 with a := optCode a, e := j })
  | .waitj g j => some (g, { blank 0x106 with e := j })
  | .dropj g j a => some (g, { blank 0x107 with a := optCode a, e := j })
  | .exit g => some (g, blank 0x108)
  | .yield g => some (g, blank 0x109)
  | .nop g => some (g, blank 0x10A)
  | .bpt g e => some (g, { blank 0x10B with e := e })
  | .trap g e => some (g, { blank 0x10C with e := e })
  | .rftResume g => some (g, blank 0x10D)
  | .rftTo g a => some (g, { blank 0x10D with a := a.code, mod := 1 })
  | .ldf g d a b t sz => some (g, fLoad 0x140 d a b t sz)
  | .stf g a b c t sz => some (g, fStore 0x141 a b c t sz)
  | .lds g d a b t sz => some (g, fLoad 0x150 d a b t sz)
  | .sts g a b c t sz => some (g, fStore 0x151 a b c t sz)
  | .ats g d a b c t o => some (g, fAtom 0x152 d a b c t o)
  | .ldc g d a b t sz => some (g, fLoad 0x160 d a b t sz)
  | .stc g a b c t sz => some (g, fStore 0x161 a b c t sz)
  | .atc g d a b c t o => some (g, fAtom 0x162 d a b c t o)
  | .ldg g d a b t sz => some (g, fLoad 0x170 d a b t sz)
  | .stg g a b c t sz => some (g, fStore 0x171 a b c t sz)
  | .atg g d a b c t o => some (g, fAtom 0x172 d a b c t o)
  | .redg g a b t o => some (g, fRed 0x173 a b t o)
  | .pf g a b m => some (g, { fAB 0x174 a b with mod := bit m })
  | .ldt g d a b t sz => some (g, fLoad 0x180 d a b t sz)
  | .ldh g d a b t sz => some (g, fLoad 0x190 d a b t sz)
  | .sth g a b c t sz => some (g, fStore 0x191 a b c t sz)
  | .ath g d a b c t o => some (g, fAtom 0x192 d a b c t o)
  | .redh g a b t o => some (g, fRed 0x193 a b t o)
  | .cpy g a b c e dir shw =>
    some (g, { fAB 0x1A0 a b with c := optCode c, e := 0xC0 + e, mod := dir.code + 8 * bit shw })
  | .cpyx g a b c clu r => some (g, { blank 0x1A1 with a := a, b := b.code, c := optCode c, e := bit clu, mod := r })
  | .synci g a b c m => some (g, { fAB 0x1A2 a b with c := optCode c, mod := bit m })
  | .syncw g d a b m => some (g, { fAB 0x1A3 a b with d := optDstCode d, mod := bit m })
  | .fence g t => some (g, { blank 0x1A8 with e := t.code })
  | .fenceXp g t => some (g, { blank 0x1A9 with e := t.code })
  | .fencePt g => some (g, blank 0x1AA)
  | .publish g d a b c => some (g, fDABC 0x1AB d a b c)
  | .hitch g => some (g, blank 0x1C0)
  | .unhitch g => some (g, blank 0x1C1)
  | .spanAcq g d => some (g, { blank 0x1C2 with d := d })
  | .spanRel g d => some (g, { blank 0x1C3 with d := d })
  | .spanRelSt g d a b shw =>
    some (g, { blank 0x1C3 with d := d, a := 0xC0 + a, b := b.code, mod := if shw then 3 else 1 })
  | .spanZero g d => some (g, { blank 0x1C4 with d := d })
  | .spanStat g d e => some (g, { blank 0x1C5 with d := d.code, e := e })
  | .spanRbox g d a b t => some (g, { blank 0x1C6 with d := d, a := a, b := 0xC0 + b, e := 16 * t })
  | .spanLoop g d a b c e => some (g, { blank 0x1C7 with d := d, a := 0xC0 + a, b := 0xC0 + b, c := 0xC0 + c, e := e })
  | .spanMmaBf16 g o => some (g, o.fields (blank 0x1C8))
  | .spanMmaE4m3 g o c => some (g, { o.fields (blank 0x1C9) with c := c })
  | .spanMmaE5m2 g o c => some (g, { o.fields (blank 0x1CA) with c := c })
  | .spanMmaE2m1 g o c => some (g, { o.fields (blank 0x1CB) with c := c })
  | .spanMmaW4bf g o c => some (g, { o.fields (blank 0x1CC) with c := c })
  | .spanMmaWf4bf g o c => some (g, { o.fields (blank 0x1CD) with c := c })
  | .spanMmaE4m3B32 g o c => some (g, { o.fields (blank 0x1D0) with c := c })
  | .spanMmaE5m2B32 g o c => some (g, { o.fields (blank 0x1D1) with c := c })
  | .spanMmaE2m1B32 g o c => some (g, { o.fields (blank 0x1D2) with c := c })
  | .rastEmit g a b c e => some (g, { blank 0x1E0 with a := a, b := 0xC0 + b, c := c, e := e.code })
  | .pixOrd g => some (g, blank 0x1E1)
  | .pixBlend g a o => some (g, { blank 0x1E2 with a := a, mod := o.code })
  | .pixLd g d => some (g, { blank 0x1E3 with d := d })
  | .enq g d a b c e m => some (g, { fDABC 0x1F0 d a b c with e := e.code, mod := bit m })
  | .enqg g d a => some (g, fDA 0x1F1 d a)
  | .dhops g d a b => some (g, fDAB 0x1F2 d a b)
  | .savewC g => some (g, blank 0x1F3)
  | .savewV g a n => some (g, { blank 0x1F3 with a := a, e := n, mod := 1 })
  | .savewS g a b => some (g, { fAB 0x1F3 a b with mod := 2 })
  | .restwC g => some (g, blank 0x1F4)
  | .restwV g a n => some (g, { blank 0x1F4 with a := a, e := n, mod := 1 })
  | .restwS g a b => some (g, { fAB 0x1F4 a b with mod := 2 })
  | .yieldSaved g => some (g, blank 0x1F5)
  | .gbarGridComplete _ _ | .gbarReleaseStep _ _ | .gbarGangComplete _ | .copyUnit _ _ | .accessPerformed _
  | .faultRecordWrite _ | .leaseRenewalReturn _ _ | .waybillDrain _ | .ptCompletion _ | .tenureGrant _ | .spanPassEnd _
  | .tenureIdleTimeout _ | .loopResume _ | .drawRelease _ _ | .fragWaveLaunch _ _ | .rasterPassClose _ | .enqAccept _ _
  | .clauseStart _ _ | .hubDoorbell _ _ | .hubReplay _ | .hubRgnSync _ | .hubKill _ | .hubSnap _ | .snapCopyDone
  | .hubCtxBase _ _ | .hubRgnBase _ _ | .hubRingCtl _ _ | .hubRingBase _ _ _ | .hubFrCtl _ _ | .hubFrHead _ _
  | .hubFrBase _ _ _ | .registerWrite _ _ | .bootSlot _ | .raiseFloor _ | .romVersion | .flashId | .readHeader _
  | .slotWrite _ _ | .resume _ _ | .step _ _ | .stop _ | .readV _ _ | .writeV _ _ | .readCtl _ | .writeCtl _
  | .debugEventPost | .spdmVersion _ | .spdmCapabilities _ | .spdmAlgorithms _ | .spdmDigests _ | .spdmCertificate _
  | .spdmChallenge _ | .spdmMeasurements _ | .hostRead _ _ | .hostWrite _ _ | .hostRmw _ _ _ _ _ | .inboundWrite _ _ _
  | .inboundRead _ _ _ | .inboundAtomic _ _ _ _ _ _ | .ioLoadTimeout _ | .hostLinkFailure | .resetRelease | .pwrLimitN _
  | .postilionRestart _ | .nodeStart | .gangPlace _ | .ungateDone _ | .dieGate _ | .gangRetire _ | .resourceReport _
  | .preemptRequest _ | .preemptTake _ | .preemptTimeout _ | .preemptDrain _ | .gangRestore _ | .watchdog _
  | .timeSliceExpire _ | .headAging _ | .energyCharge | .energyWindowEnd | .powerCompare | .boostIntervalEnd _
  | .freqStepRise _ | .ballastStep _ | .patrolScrub _ | .sramScrub _ | .calibration _ | .retraining _ _ | .agingMonitor _
  | .telemetry _ | .resultWrite _ _ | .clusterModeChange _ | .packageReset | .thermN _ _ | .linkRetry _ => none

/-- The word of a pair (R67). -/
def encodePair (h1 h2 : PairHalf) : Word64 :=
  let a := h1.codes
  let b := h2.codes
  BitVec.ofNat 64 (2 * 2 ^ 62 + a.1 * 2 ^ 55 + a.2.1 * 2 ^ 47 + a.2.2.1 * 2 ^ 39 + a.2.2.2 * 2 ^ 31
    + b.1 * 2 ^ 24 + b.2.1 * 2 ^ 16 + b.2.2.1 * 2 ^ 8 + b.2.2.2)

/-- The code word of an instruction (R61, R67); a device step has none. -/
def encode (i : Instr) : Option Word64 :=
  match i with
  | .pair h1 h2 => some (encodePair h1 h2)
  | i => match i.fields with
    | some (g, f) => some (packFields (g.fields f))
    | none => none

/-- The host's question: the instruction read from a word whose bits are `w`, for a user wave with the largest budget.
A code word is 64 bits; a shorter count has zeros above it. -/
def decodeTableWord (nbits w : Nat) : Option Instr :=
  match decode .user (BitVec.ofNat 64 (w % 2 ^ (min nbits 64))) with
  | .ok i => some i
  | .error _ => none

/-! ## Classes of instructions that the clause rules name -/

/-- The long-latency instructions (R57). -/
def Instr.isLong (i : Instr) : Bool :=
  match i.fields with
  | none => false
  | some (_, f) => (0x140 ≤ f.op && f.op ≤ 0x1EF) || (0x0A0 ≤ f.op && f.op ≤ 0x0A7) || f.op == 0x1F0 || f.op == 0x1F1
      || f.op == 0x1F3 || f.op == 0x1F4

/-- The control transfers (R70). -/
def Instr.isTransfer : Instr → Bool
  | .bra _ | .brx _ _ | .call _ _ | .calli _ _ _ | .ret _ _ | .exit _ | .rftResume _ | .rftTo _ _ | .yieldSaved _ => true
  | _ => false

end Sys2Proof
end

