-- ==== Sys2Proof/Machine/State.lean ====
section
/-! DEFINITION. All the state the manual gives the machine (INVENTORY.md, State), as plain data, and the machine right after
reset. Sparse tables are lists of key and value in rising key order; what an unlisted key reads as stands beside each. -/

namespace Sys2Proof.Machine

/-- A table keyed by natural numbers, keys strictly rising. -/
abbrev Map (α : Type) := List (Nat × α)

/-- Why the model stops. -/
inductive Fault where
  /-- Raised by every meaning of a wave instruction when no path of a wave is selected to issue it: an instruction without a
  wave does not exist on the hardware, and the step function never asks for it. Safe: the model stops where the hardware
  would do nothing. -/
  | noPath
  deriving DecidableEq, Repr

/-- Why an instruction has no meaning. -/
inductive Refusal where
  /-- Raised by `exec` for an instruction whose meaning is not written. Safe: nothing is claimed of it. -/
  | notModelled (mnemonic : String)
  deriving DecidableEq, Repr

/-- The outcome of a meaning. -/
abbrev Out (σ : Type) := Host.Outcome σ Fault Refusal

/-! ## Waves -/

/-- What a pending mark can name (R58). -/
inductive RegId where
  | v (n : Nat)
  | s (n : Nat)
  | p (n : Nat)
  | fpstat
  | seed
  deriving DecidableEq, Repr

/-- The registers of a wave (R40, R45, R284). Lane register `vN` of lane `L` stands at key `32 * N + L`. -/
structure RegFile where
  v : Map Word
  s : Map Word
  /-- p0 to p6, a mask of lanes each. -/
  p : Map LaneMask
  /-- The rejoin masks j0 to j15. -/
  j : Map LaneMask
  /-- Their hidden arrival masks A0 to A15 (R284). -/
  a : Map LaneMask
  fpstat : BitVec 6
  /-- RNDSEED by lane; an unlisted lane reads 1 (R111). -/
  seed : Map Word
  /-- The TIMEREF_HI snapshot (R46). -/
  timeHi : Word
  /-- Registers that hold an uncorrectable error: a lane register with its lane, or a scalar register with 0 (R391). -/
  bad : List (RegId × Nat)
  deriving DecidableEq, Repr

/-- The registers an issued operation has still to write (R58). -/
structure Mark where
  op : Nat
  regs : List RegId
  deriving DecidableEq, Repr

/-- An operation bound to a completion flag f0 to f11 (R59): a flag is set while an entry names it. -/
structure Bound where
  op : Nat
  flag : Nat
  deriving DecidableEq, Repr

/-- A fetched clause that a path is issuing (R52, R56): `idx` words have issued. -/
structure Clause where
  addr : Word64
  head : Header
  words : List Word64
  idx : Nat
  deriving DecidableEq, Repr

/-- A set of lanes with one program counter (R278). -/
structure Path where
  lanes : LaneMask
  /-- The clause header the path is at, when it is inside no clause. -/
  pc : Word64
  /-- Where in that clause it will resume: 0 at the header, i at word i (R289). -/
  entry : Nat
  /-- The header of the clause it came from, for the record of a target that is no header (R73). -/
  prev : Word64
  clause : Option Clause
  /-- It holds one of its wave's two path slots (R279): a path that has waited in its clause takes one again. -/
  slot : Bool
  /-- It waits at its word and holds no slot (R279). -/
  waiting : Bool
  /-- Of its word only the wait part is left (R377, R384). -/
  waitOnly : Bool
  /-- Stopped at its trap point until the user trap of its wave is taken (R377). -/
  halted : Bool
  /-- Stopped by a breakpoint or a debugger (R288, R390). -/
  dbg : Bool
  /-- A single step of it is in progress (R390). -/
  step : Bool
  /-- The generation that its BAR.WAIT or BAR.SYNC waits for, once it is known (R301). -/
  gen : Option Nat
  /-- The offset and the phase that its PBAR.WAIT has read (R305). -/
  phase : Option (Nat × Word)
  /-- Clauses its wave has started on other paths since it became ready (R275). -/
  passed : Nat
  deriving DecidableEq, Repr

/-- A lane's trap point (R289, R384): the header of its clause, the word in it (0 = header), the wait part only. -/
structure TrapPoint where
  hdr : Word64
  idx : Nat
  waitOnly : Bool
  deriving DecidableEq, Repr

/-- The trap state of a wave (R377, R378, R385). -/
structure Trap where
  inHandler : Bool
  code : Nat
  /-- Trap points of the lanes still in the handler. -/
  pts : Map TrapPoint
  /-- Lanes that have returned by RFT while others have not. -/
  returned : LaneMask
  /-- A user trap raised and not yet taken, because another path is still inside its clause. -/
  pend : Option Nat
  /-- A PREEMPT request has reached the wave and is not yet taken. -/
  preempt : Bool
  /-- The wave has taken PREEMPT for the outstanding request. -/
  taken : Bool
  /-- YIELD.SAVED has set the wave's SV_REPORTED bit. -/
  reported : Bool
  /-- The cause its handler was entered for (R385). -/
  cause : Nat
  deriving DecidableEq, Repr

/-- The first partial arrival of a wave in a generation: the generation, its count, and the instruction for the record of R299. -/
structure FirstArrival where
  gen : Nat
  count : Nat
  addr : Word64
  hdr : Word64
  word : Word64
  deriving DecidableEq, Repr

/-- The barrier state of a wave (R298, R299, R301, R307). -/
structure WaveBar where
  /-- Arrival lane masks of the 64 names. -/
  mask : Map LaneMask
  /-- The count of the wave's first partial arrival, while one is open (R299). -/
  first : Map FirstArrival
  /-- Lanes that came again while they were in the mask, by name: held until the generation in progress completes (R299). -/
  again : Map LaneMask
  /-- Lanes that such a completion has freed, by name: they arrive although they may still be in the mask. -/
  freed : Map LaneMask
  /-- The ticket of each name, 16 bits. -/
  ticket : Map Nat
  /-- The names at which the wave has had an arrival counted. -/
  arrived : BitVec 64
  /-- Lanes that have arrived at GBAR in the current generation. -/
  gmask : LaneMask
  /-- The form of the wave's last arrival: true for GANG. -/
  gform : Bool
  /-- The GBAR.GRID generation that the wave's last counted arrival joined, and whether it has had one counted. -/
  gticket : Nat
  gcounted : Bool
  /-- The same for GBAR.GANG. -/
  kticket : Nat
  kcounted : Bool
  deriving DecidableEq, Repr

/-- One lane's part of a memory access, or a piece of it after the splits of R201: its address (virtual, or an offset in
scratch or cluster space), its operands, and the bytes it has read once it is performed. -/
structure Piece where
  lane : Nat
  addr : Nat
  len : Nat
  x : List Byte
  y : List Byte
  got : List Byte
  done : Bool
  deriving DecidableEq, Repr

/-- What a translation gives: the physical address, the memory type and lease of the leaf (R345), the range its entries map
and the entries it read. -/
structure Mapped where
  pa : Nat
  pbmt : Nat
  lease : Nat
  atom : Bool
  va : Nat
  size : Nat
  ptes : List Nat
  deriving DecidableEq, Repr

/-- An operation that a wave has issued and that is not yet complete (R59, R209, R212, R222): the instruction, the lanes'
pieces, the operand values read at issue, and where it stands. -/
structure Access where
  op : Nat
  instr : Instr
  word : Word64
  addr : Word64
  hdr : Word64
  mask : LaneMask
  pieces : List Piece
  /-- The translations of its pieces, once it has them: it is performed wholly under these (R245, R350). -/
  maps : List Mapped
  aux : List Nat
  /-- It has been translated and takes effect piece by piece (R375). -/
  started : Bool
  deriving DecidableEq, Repr

/-- The state a rollback returns to (R372, R373). -/
structure Snapshot where
  rf : RegFile
  paths : List Path
  /-- Operations issued from here on are discarded. -/
  op : Nat
  bar : WaveBar
  deriving DecidableEq, Repr

/-- A leased value the wave has consumed after its lease expired (R196): the sector, the version it saw, the length of its
lease in ticks, the tick at which it expired and the tick at which its renewal was sent. -/
structure Unconfirmed where
  va : Nat
  pa : Nat
  version : Nat
  lease : Nat
  expired : Nat
  sent : Nat
  deriving DecidableEq, Repr

/-- An ENQ or ENQG that is not answered (R321, R322). -/
structure PendEnq where
  op : Nat
  instr : Instr
  mask : LaneMask
  lane : Nat
  desc : Word64
  count : Nat
  arg : Word64
  /-- The successor reference of ENQG. -/
  ref : Word
  isG : Bool
  deriving DecidableEq, Repr

/-- A fragment (R261): its number, pass, sequence number, draw, primitive, pixel, payload and weights. -/
structure Fragment where
  id : Nat
  pass : Nat
  seq : Nat
  draw : Nat
  prim : Nat
  x : Nat
  y : Nat
  payload : Word64
  b1 : Word
  b2 : Word
  /-- The lane holds its pixel turn (R262). -/
  turn : Bool
  /-- The lane has given its turn up. -/
  done : Bool
  deriving DecidableEq, Repr

/-- A wave (R24). It exists from its gang's placement to the gang's retirement. -/
structure Wave where
  uid : Nat
  wg : Nat
  gang : Nat
  batch : Nat
  node : Nat
  ctx : Nat
  idx : Nat
  role : Nat
  budget : Nat
  /-- The physical core: 32 * spoke + 4 * cluster + core; 256 + site for a postilion. -/
  core : Nat
  /-- Its slot on that core: 16 * partition + slot (R404). -/
  slot : Nat
  vdie : Nat
  /-- The postilion site of a postilion wave (R365). -/
  post : Option Nat
  /-- Lanes that are active for the wave's life (R41). -/
  exist : LaneMask
  exited : LaneMask
  rf : RegFile
  paths : List Path
  marks : List Mark
  /-- The registers that issued span operations have still to read (R58, R164). -/
  reads : List Mark
  bound : List Bound
  /-- Blocks whose token the span holds (R44). -/
  spanHeld : BitVec 6
  trap : Trap
  bar : WaveBar
  /-- The outstanding load, atomic, PIX.LD or PIX.BLEND (R372). -/
  access : Option Access
  ckpt : Option Snapshot
  /-- Words issued beyond the checkpoint (R372). -/
  beyond : Nat
  unconf : List Unconfirmed
  /-- The freshness floor: copies granted before this event number count as expired (R197). -/
  floor : Nat
  /-- The same for copies in L1 of an unfused cluster (R241). -/
  floorL1 : Nat
  /-- Operations in flight other than `access`, in the order of issue. -/
  ops : List Access
  waybill : List Access
  enqs : List PendEnq
  frags : Map Fragment
  /-- Loop indices and step count of the last SPAN.LOOP (R174). -/
  walkIdx : List Nat
  walkSteps : Nat
  /-- A debugger's stop will catch its paths at their next clause boundary (R390). -/
  dbgWant : Bool
  /-- The place in its partition's rotation: the number of the clause start or yield that last moved it back (R275). -/
  turn : Nat
  deriving DecidableEq, Repr

/-! ## Workgroups, gangs, batches, nodes -/

/-- A named barrier (R298, R302). -/
structure Bar where
  expect : Nat
  count : Nat
  gen : Nat
  held : Bool
  deriving DecidableEq, Repr

/-- A workgroup on its core (R24, R49). -/
structure Workgroup where
  uid : Nat
  gang : Nat
  member : Nat
  lid : Nat
  core : Nat
  waves : Nat
  /-- Scratchpad bytes; unlisted bytes are 0. -/
  scratch : Map Byte
  /-- Its words of 4 bytes that hold an uncorrectable error (R391). -/
  padBad : List Nat
  bars : Map Bar
  deriving DecidableEq, Repr

/-- A launch descriptor as it was read (R32). -/
structure Desc where
  entry : Word64
  handler : Word64
  saveBase : Word64
  saveStride : Nat
  region : Nat
  /-- GANG code: 0, 1, 2 for gangs of 1, 2, 4. -/
  gang : Nat
  fuse : Bool
  /-- Scratchpad units of 32 KiB. -/
  scratch : Nat
  /-- Waves of each role slot. -/
  waves : List Nat
  /-- Budget of each role slot in units of 8 registers. -/
  budgets : List Nat
  trapEn : BitVec 5
  dbgAttach : Bool
  breakEntry : Bool
  stopScope : Nat
  dbgTag : Nat
  frameBase : Word64
  framePerLane : Nat
  roundSeed : Word
  args : List Word
  deriving DecidableEq, Repr

/-- The states of a gang (R379). -/
inductive GangState where
  | resident | requested | handling | draining | saved | restoring
  deriving DecidableEq, Repr

/-- What the device's save engine keeps of a saved wave and binds to the record (R384, R386, R423): for a full save the
whole wave, for a handler's save the parts the device restores before handler entry. -/
structure Kept where
  waves : List Wave
  wgs : List Workgroup
  deriving DecidableEq, Repr

/-- A gang that has been placed at least once and has not retired (R24, R379). -/
structure Gang where
  uid : Nat
  batch : Nat
  node : Nat
  num : Nat
  state : GangState
  /-- First physical core, and the number of workgroups. -/
  core : Nat
  size : Nat
  vdie : Nat
  /-- The tick of its last placement, or the tick in which it became SAVED. -/
  since : Nat
  reqTick : Nat
  /-- Resident ticks since the last placement (R362). -/
  resident : Nat
  sliceOver : Bool
  full : Bool
  kept : Option Kept
  /-- GBAR.GANG: generation, and the waves that have arrived in it. -/
  gbarGen : Nat
  gbarCame : List Nat
  deriving DecidableEq, Repr

/-- The release pacing of a completed GBAR.GRID generation (R333). -/
structure Release where
  gen : Nat
  /-- The completion tick, and the clusters that took part. -/
  tick : Nat
  part : List Nat
  /-- Clusters still to be admitted, in order. -/
  left : List Nat
  /-- Steps taken, from 0 at the completion tick. -/
  step : Nat
  /-- Gangs that were away from their cores at the completion or since: they pass with the last cluster. -/
  away : List Nat
  deriving DecidableEq, Repr

/-- The die field of a batch (R324). -/
inductive DieField where
  | any
  | vd (n : Nat)
  | pd (n : Nat)
  deriving DecidableEq, Repr

/-- A batch (R24, R30). -/
structure Batch where
  uid : Nat
  node : Nat
  seq : Nat
  count : Nat
  desc : Desc
  descAddr : Word64
  arg : Word64
  region : Nat
  die : DieField
  /-- The next gang number never placed. -/
  next : Nat
  /-- Gangs retired. -/
  retired : Nat
  /-- The lanes of a seed batch's wave, all lanes otherwise (R35). -/
  lanes : LaneMask
  /-- Fragments of a fragment-wave batch, by lane (R261). -/
  frags : Map Fragment
  /-- GBAR.GRID: generation, the waves that have arrived in it, tick of the last arrival, arrival tick by cluster (R309). -/
  gbarGen : Nat
  gbarCame : List Nat
  gbarLast : Nat
  gbarArr : Map Nat
  release : Option Release
  /-- The tick since which its head gang waits unplaced (R362). -/
  headTick : Nat
  aged : Bool
  deriving DecidableEq, Repr

/-- A node that is READY or RUNNING (R314, R315). -/
structure Node where
  uid : Nat
  ring : Nat
  slot : Nat
  ctx : Nat
  region : Nat
  running : Bool
  /-- Its place in the table of running nodes (R404). -/
  place : Nat
  readyTick : Nat
  /-- The number of the event that made it READY, which the nodes of one cycle share (R315). -/
  readyAt : Nat
  spawn : Nat
  nextSeq : Nat
  startOrder : Nat
  tStart : Nat
  seedLanes : Nat
  /-- Resident reference ticks, for the watchdog (R389). -/
  resident : Nat
  deriving DecidableEq, Repr

/-! ## Hub -/

/-- A command ring (R312, R313, R418). -/
structure Ring where
  base : Nat
  bound : Bool
  sizeLog : Nat
  ctx : Nat
  head : Nat
  /-- Slots submitted and still WAITING. -/
  submitted : List Nat
  /-- Discarded doorbells, and discarded writes of its registers (R404). -/
  discards : Nat
  ctlDiscards : Nat
  deriving DecidableEq, Repr

/-- A fault ring (R353, R419). -/
structure FaultRing where
  base : Nat
  enable : Bool
  sizeLog : Nat
  head : Nat
  tail : Nat
  deriving DecidableEq, Repr

/-- A latched context (R340, R341). -/
structure Ctx where
  id : Nat
  root : Nat
  /-- DIEBIND0 to DIEBIND7, 8 bits each. -/
  bind : List (BitVec 8)
  region : Nat
  faultRing : Nat
  deriving DecidableEq, Repr

/-- The rest of a completed node's continuation chain, which a page-table change keeps from being read (R38, R350): the node's record, its
context, the next block's address and those already met, and the event number of the completion. -/
structure PendSucc where
  record : Nat
  ctx : Ctx
  next : List Nat
  at_ : Nat
  deriving DecidableEq, Repr

/-- A region block as read (R357 to R361). -/
structure Region where
  num : Nat
  parent : Nat
  valid : Bool
  prio : Nat
  boostOk : Bool
  faultDomain : Bool
  override : BitVec 8
  coreLimit : Nat
  scratchLimit : Nat
  enqLimit : Nat
  energyLimit : Nat
  timeSlice : Nat
  watchdog : Nat
  /-- Its own block was malformed when it was last read, and the PARENT that block named (R359). -/
  malformed : Bool
  named : Nat
  /-- The effective ENERGY_LIMIT of the window in progress, once it is fixed (R359). -/
  windowLimit : Option Nat
  energyTotal : Nat
  windowsCapped : Nat
  preempts : Nat
  kills : Nat
  /-- Energy charged in the current window, and whether the cap was reached. -/
  charge : Nat
  capped : Bool
  deriving DecidableEq, Repr

/-- The ILLEGAL records and fault reports sent to firmware (R73, R74, R371). -/
structure Report where
  code : Nat
  origin : Nat
  reason : Nat
  word : Word64
  addr : Word64
  hdr : Word64
  /-- The wave's identifier, or ring and slot for ORIGIN 1. -/
  ident : List Nat
  deriving DecidableEq, Repr

/-! ## Clusters, cores and the span -/

/-- The kinds of span reservation entry (R158, R325): a HITCH claim, a quarter operation, a box test, a step of a walk. -/
inductive SpanKind where
  | hitch
  | quarter (q : Nat)
  | rbox
  | step
  deriving DecidableEq, Repr

/-- A span reservation entry (R325): its age is `order`. -/
structure SpanEntry where
  op : Nat
  wave : Nat
  prio : Nat
  block : Option Nat
  kind : SpanKind
  order : Nat
  /-- Tenures at whose start it was passed over. -/
  skipped : Nat
  deriving DecidableEq, Repr

/-- The span of a cluster (R158, R171, R326). -/
structure Span where
  entries : List SpanEntry
  hitched : Bool
  /-- The wave whose open tenure lasts (R171). -/
  owner : Option Nat
  passes : Nat
  /-- Entries of the pass in progress. -/
  pass : List SpanEntry
  /-- The tenure ends with the pass in progress. -/
  ending : Bool
  /-- The tick of the last pass's end, and the tick before which no tenure is granted. -/
  idle : Nat
  coolUntil : Nat
  deriving DecidableEq, Repr

/-- A loop walk (R177 to R179): `n` steps are complete, the copies of step `fetch` are in progress. -/
structure Walk where
  op : Nat
  wave : Nat
  core : Nat
  word : Word64
  addr : Word64
  hdr : Word64
  instr : Instr
  block : Nat
  mask : LaneMask
  a : Nat
  b : Nat
  c : Nat
  stage : Nat
  levels : Option (List (Nat × Int × Int))
  n : Nat
  fetch : Nat
  /-- Units of step `fetch` that are copied: 0 to 255 of A, 256 to 511 of B. -/
  done : List Nat
  posted : Bool
  stopped : Bool
  /-- A pre-emption stops it once its pass has ended. -/
  stopping : Bool
  /-- Stopped by MACHINE_CHECK. -/
  dead : Bool
  /-- Flags of the steps completed since the walk began or last resumed (R169). -/
  flags : BitVec 6
  deriving DecidableEq, Repr

/-- A primitive that the hub router has forwarded (R256 to R259). -/
structure Prim where
  seq : Nat
  draw : Nat
  prim : Nat
  payload : Word64
  /-- X and Y of the three vertices in 1/256 pixel. -/
  xs : List Int
  /-- Virtual dies on which its fragments are not all placed. -/
  dies : List Nat
  deriving DecidableEq, Repr

/-- An open raster pass (R252 to R262). -/
structure Pass where
  num : Nat
  block : Word64
  /-- The physical address of the block. -/
  pa : Nat
  node : Nat
  ctx : Nat
  tilesX : Nat
  tilesY : Nat
  drawBase : Nat
  counts : List Nat
  desc : Desc
  descAddr : Word64
  target : Nat
  pitch : Nat
  format : Nat
  owners : List Nat
  /-- Emissions counted, by draw of the pass. -/
  emitted : Map Nat
  prims : List Prim
  /-- Draws released, by virtual die. -/
  released : Map Nat
  /-- Fragments of released draws that are in no wave, in order, with their virtual die. -/
  queue : List (Nat × Fragment)
  /-- Fragments that have not given up their turn, by number and pixel, in order. -/
  turns : List (Nat × Nat × Nat)
  /-- The number of the last fragment blended into each pixel, by 2^14 times y and x (R260). -/
  blended : Map Nat
  deriving DecidableEq, Repr

/-- A cluster (R14, R48, R190, R327 to R334). -/
structure Cluster where
  passc : Nat
  /-- The PASSC that the power controller has set, which a pass in progress still keeps out (R159). -/
  passTo : Nat
  freq : Nat
  /-- The lowest step that a fall has asked for while a calibration holds FREQSTEP, 18 without one (R406). -/
  fallTo : Nat
  rank : Nat
  lateSum : Nat
  /-- Lateness terms of the last four completions, newest first (R48, R309). -/
  late : List Nat
  boosted : Bool
  admitted : Bool
  withdrawn : Bool
  /-- The L1 mode: none unfused, or fused with SCRATCH. -/
  fused : Option Nat
  /-- A mode change in progress: the mode it goes to (R190). -/
  modeTo : Option (Option Nat)
  /-- Eighths of the last issue rate that ballast drives (R334). -/
  ballast : Nat
  span : Span
  /-- The tick of the last rise of FREQSTEP or of the admission (R327), of the last issue and of the last ballast step (R334),
  and of the last calibration (R405). -/
  riseTick : Nat
  issued : Option Nat
  ballastTick : Nat
  calTick : Nat
  deriving DecidableEq, Repr

/-- The boost states of a spoke (R330). -/
inductive BoostState where
  | open | fall1 | dry
  deriving DecidableEq, Repr

/-- A spoke (R10, R11, R329, R404 to R407). -/
structure Spoke where
  gated : Bool
  ungating : Bool
  /-- The tick at which it began to ungate (R11). -/
  ungateTick : Nat
  budget : Nat
  refill : Nat
  boost : BoostState
  /-- Boost intervals ended, and whether a RANK has changed since the places were last ranked (R329, R331). -/
  intervals : Nat
  rerank : Bool
  /-- Installed memory in bytes; 0 until trained (R344, R393). -/
  capacity : Nat
  hot : Bool
  scrubPasses : Nat
  scrubAddr : Nat
  sramUnit : Nat
  retrain : BitVec 4
  calBusy : BitVec 8
  calNext : Nat
  /-- Ticks of the channels' last retrainings. -/
  retrainTicks : List Nat
  agingAlert : Bool
  /-- The least margin of the aging monitors, and the ticks of their last reading, of the last telemetry, of the last report of free
  resources, and of the last step of each patrol. -/
  margin : Nat
  agingTick : Nat
  telTick : Nat
  reportTick : Nat
  scrubTick : Nat
  sramTick : Nat
  /-- Counters of readback group 0x09 by their offset (R404). -/
  counters : Map Nat
  deriving DecidableEq, Repr

/-- The registers of a postilion (R365, R392), and the tick of its last heartbeat. -/
structure Post where
  siteReg : BitVec 4
  ctx : Nat
  event : BitVec 32
  fvaLo : Word
  fvaHi : Word
  finfo : Word
  beat : Nat
  deriving DecidableEq, Repr

/-! ## The memory system -/

/-- Where a cached sector stands (R187). -/
inductive Place where
  | l1 (core : Nat)
  | table (core : Nat)
  | l2 (spoke : Nat)
  deriving DecidableEq, Repr

/-- A cached 64-byte sector (R187, R188, R195). -/
structure Line where
  place : Place
  ctx : Nat
  va : Nat
  pa : Nat
  data : List Byte
  /-- The event number and the tick of its grant. -/
  born : Nat
  grant : Nat
  /-- The tick its lease ends; none for a line of a private page (R193). -/
  expiry : Option Nat
  version : Nat
  /-- It holds an uncorrectable error (R391). -/
  bad : Bool
  deriving DecidableEq, Repr

/-- A write that is performed at an L1 or at an L2 and not yet at its home (R191, R209): its place `stage` is 1 or 2. -/
structure Write where
  op : Nat
  wave : Nat
  lane : Nat
  ctx : Nat
  l1 : Nat
  spoke : Nat
  va : Nat
  pa : Nat
  data : List Byte
  stage : Nat
  /-- The stage at which it is performed at its own scope. -/
  need : Nat
  /-- A frame store that is hidden still, and the widest scope at which its wave has released it, 0 without one: only its own lane and the
  threads of that scope see it (R185). -/
  frame : Bool
  shown : Nat
  deriving DecidableEq, Repr

/-- The classes of a physical page (R193); a page that is not listed is unowned. -/
inductive PageClass where
  | owned (core ctx va : Nat)
  | shared
  deriving DecidableEq, Repr

/-- A translator's entry (R348): the range it maps and the physical address that starts at, the page-table entries it comes from, and
the spokes it was returned to. -/
structure TlbEntry where
  spoke : Nat
  ctx : Nat
  va : Nat
  pa : Nat
  size : Nat
  ptes : List Nat
  dies : List Nat
  deriving DecidableEq, Repr

/-- A write to a page-table entry short of its completion point (R350): the entry, the ranges refused meanwhile, and the
operation that wrote it. -/
structure PtPend where
  num : Nat
  pte : Nat
  ranges : List (Nat × Nat × Nat)
  wave : Nat
  op : Nat
  deriving DecidableEq, Repr

/-- A filter entry of the two stages (R352, R353): its key, the cores it merges, its waiters as wave and operation (0 for
a code fetch), what its record holds, and the kinds of access by core, which each core's own entry has. -/
structure Filter where
  id : Nat
  ctx : Nat
  page : Nat
  cluster : Nat
  cores : List Nat
  waiters : List (Nat × Nat)
  access : Nat
  kinds : Map Nat
  cause : Nat
  level : Nat
  pte : Nat
  iter : Option (List Nat)
  rep : Bool
  /-- The record stands in the ring. -/
  written : Bool
  /-- Its REPLAY has arrived; its waiters retry. -/
  replayed : Bool
  /-- Waiters of an entry that was opened again by another's retry and that have still to make theirs (R354). -/
  todo : List (Nat × Nat)
  deriving DecidableEq, Repr

/-- An IO store on its way outside the package (R414), or an atomic whose result no one waits for, with its operation (R415). -/
structure IoWrite where
  wave : Nat
  op : Nat
  pa : Nat
  data : List Byte
  atom : Option AtomOp
  deriving DecidableEq, Repr

/-- The registers of the management window that stand for themselves (R417, R420), and its discard counters (R404). -/
structure Hub where
  ctxBase : Nat
  rgnBase : Nat
  pcieAtom : BitVec 8
  /-- HUB_PCIE_INWIN: base and limit. -/
  inwin : List (Nat × Nat)
  /-- Lower halves of 64-bit registers written and not yet taken, by offset. -/
  halves : Map Nat
  /-- Counters of readback group 0x09 by their offset (R404). -/
  counters : Map Nat
  deriving DecidableEq, Repr

/-- A bulk copy in flight (R215 to R219): a CPY, a CPYX or a step copy of a loop walk. Units are numbered in walk order;
`upto` of them are done from the start, `done` are done beyond, `counted` are counted into the sync word. -/
structure CopyOp where
  op : Nat
  wave : Nat
  core : Nat
  instr : Instr
  word : Word64
  addr : Word64
  hdr : Word64
  /-- The lanes of its path that qualified. -/
  mask : LaneMask
  src : Nat
  dst : Nat
  desc : Nat
  sync : Option Nat
  /-- The levels of its descriptor once read: bound, source stride, destination stride. -/
  levels : Option (List (Nat × Int × Int))
  /-- The rows of a CPYX: lane and source address. -/
  rows : List (Nat × Nat)
  upto : Nat
  done : List Nat
  counted : Nat
  /-- Stopped by TRANSLATION, waiting for its REPLAY (R218). -/
  stopped : Bool
  /-- Stopped by MACHINE_CHECK. -/
  dead : Bool
  deriving DecidableEq, Repr

/-! ## The whole machine -/

/-- Which unit acts next: the MODEL's own plain data (assumption log 1). -/
inductive Move where
  /-- The path that holds `lane` in wave `wave` issues its next word. -/
  | issue (wave lane : Nat)
  /-- Two paths of wave `wave`, which hold lanes `a` and `b`, issue their next words in one cycle (R42, R279). -/
  | both (wave a b : Nat)
  /-- A device step or an outside step of the opcode table happens. -/
  | event (i : Instr)
  /-- Reference ticks pass. -/
  | elapse (ticks : Nat)
  /-- The boot ROM ends a boot or reboot that is in progress (R393, R397). -/
  | boot
  deriving DecidableEq, Repr

/-- The KZ9 or the KZ9-6 (R2). -/
inductive Variant where
  | kz9 | kz96
  deriving DecidableEq, Repr

/-- A debug event of 64 bytes that the device has posted, or that waits for room (R421). -/
abbrev DbgEvent := List Byte

/-- The debug mailbox (R421). -/
structure Mailbox where
  head : Nat
  tail : Nat
  /-- The 28 places of the event ring. -/
  events : List DbgEvent
  /-- Events that found the ring full. -/
  due : List DbgEvent
  /-- A command that is not answered. -/
  cmd : Option Word
  seq : Nat
  result : Nat
  target : Word
  lanes : LaneMask
  arg : Word
  data : Map Byte
  deriving DecidableEq, Repr

/-- The distributor's copy of a core's free resources (R316). -/
structure CoreView where
  slots : List Nat
  rows : List Nat
  scratch : Nat
  bars : Nat
  deriving DecidableEq, Repr

/-- The distributor's copy of a cluster's counts (R316). -/
structure ClusterView where
  fused : Option Nat
  entries : Nat
  gangs : Nat
  deriving DecidableEq, Repr

/-- The package power manager (R327, R328, R361). -/
structure Power where
  /-- Actions taken, newest first: 0 boost withdrawn, 1 PASSC to 2, 2 PASSC to 4, with the cluster. -/
  actions : List (Nat × Nat)
  /-- Comparisons in a row at or below the budget. -/
  calm : Nat
  /-- The microseconds compared and charged, and the windows ended, so far. -/
  compared : Nat
  charged : Nat
  windows : Nat
  deriving DecidableEq, Repr

/-- Firmware, boot and the recovery mailbox (R393 to R400, R408). -/
structure Firmware where
  /-- STATE of FW_STATUS. -/
  state : Nat
  pref : Bool
  reasonA : Nat
  reasonB : Nat
  /-- Commands of FW_CMD that are not answered, oldest first. -/
  cmds : List Word
  cmdSeq : Nat
  cmdResult : Nat
  /-- The recovery mailbox: an unanswered request, RM_SEQ, RESULT, HDR_REASON, and the answer. -/
  req : Option Word
  rmSeq : Nat
  rmResult : Nat
  rmReason : Nat
  rmData : List Byte
  /-- The measurement log. -/
  log : List Byte
  deriving DecidableEq, Repr

/-- What reset does not clear (R422): fuses and flash. -/
structure Board where
  floor : Nat
  keyHash : List Byte
  /-- Slot A from 0, slot B from 16 MiB; an unlisted byte reads 0. -/
  flash : Map Byte
  /-- Flash bytes whose read ends in an uncorrectable error. -/
  flashBad : List Nat
  /-- The certificate chain of the device key, which the flash holds (R408). -/
  certs : List Byte
  deriving DecidableEq, Repr

/-- The snapshot register and buffer (R403, R404). -/
structure Snap where
  group : Nat
  index : Nat
  /-- A copy in progress, and the tick it began. -/
  copying : Option (Nat × List Byte)
  buf : List Byte
  deriving DecidableEq, Repr

/-- The package's signals (R413, R422). -/
structure Pins where
  /-- RESET_N is low. -/
  reset : Bool
  linkFailed : Bool
  /-- PWR_LIMIT_N is low. -/
  pwrLimit : Bool
  /-- PERST_N is low: from reset until step 4 of R393 (R422). -/
  perst : Bool
  deriving DecidableEq, Repr

/-- What the device has sent to the outside (R405, R408, R412, R416): to the host, to a PCIe requester, telemetry, SPDM. -/
inductive Sent where
  | host (data : List Byte)
  | peer (req : Nat) (data : List Byte)
  | unsupported (req : Nat)
  | telemetry (spoke : Nat) (data : List Byte)
  | spdm (data : List Byte)
  deriving DecidableEq, Repr

/-- The whole machine. -/
structure State where
  variant : Variant
  /-- The 100 MHz reference tick (R45, R46). -/
  tick : Nat
  schedule : List Move
  choices : List Nat
  /-- The wave and a lane of the path that issues, and whether it was held when it last tried. -/
  cur : Option (Nat × Nat)
  stall : Bool
  freeCtr : Nat
  /-- The next unused number: of operations, waves, gangs, batches and nodes. -/
  fresh : Nat
  waves : List Wave
  wgs : List Workgroup
  gangs : List Gang
  batches : List Batch
  nodes : List Node
  nodeStarts : Nat
  succs : List PendSucc
  ctxs : List Ctx
  regions : List Region
  clusters : List Cluster
  spokes : List Spoke
  rings : List Ring
  reports : List Report
  /-- The nine postilions: sites 0 to 7, and the hub's at 8. -/
  posts : List Post
  mem : Map Byte
  /-- IO stores a destination port has accepted and not yet answered (R414). -/
  ioWrites : List IoWrite
  /-- Versions of 64-byte sectors by sector number (R195). -/
  vers : Map Nat
  /-- Classes of 4 KiB physical pages by page number (R193). -/
  classes : Map PageClass
  lines : List Line
  writes : List Write
  tlb : List TlbEntry
  ptPend : List PtPend
  /-- 64-byte units of device memory in uncorrectable error (R391). -/
  bad : List Nat
  filters : List Filter
  nextFault : Nat
  faultRings : List FaultRing
  copies : List CopyOp
  walks : List Walk
  passes : List Pass
  hub : Hub
  /-- The last step of release pacing: its tick, and the clusters it has admitted (R333). -/
  admitTick : Nat
  admitCount : Nat
  mail : Mailbox
  /-- The distributor's copies of the free-resource reports (R316). -/
  cores : List CoreView
  views : List ClusterView
  /-- The wave that a partition of a core is on, by 4 times the core and the partition (R56). -/
  parts : Map Nat
  /-- Issue cycles and span passes by cluster and region (`useKey`) since energy was last divided, and the gangs saved or restored since
  (R361). -/
  used : Map Nat
  moved : List Nat
  power : Power
  fw : Firmware
  board : Board
  snap : Snap
  pins : Pins
  /-- Contexts whose last latching was rejected (R341, R404). -/
  rejected : List Nat
  sent : List Sent
  deriving DecidableEq, Repr

/-- A span with nothing in it (R158). -/
def Span.reset : Span :=
  { entries := [], hitched := false, owner := none, passes := 0, pass := [], ending := false, idle := 0,
    coolUntil := 0 }

/-- A cluster after reset (R48): RANK reads the cluster number. -/
def Cluster.reset (n : Nat) : Cluster :=
  { passc := 1, passTo := 1, freq := 0, fallTo := 18, rank := n % 8, lateSum := 0, late := [], boosted := false
    admitted := false, withdrawn := false,
    fused := none, modeTo := none, ballast := 0, span := .reset, riseTick := 0, issued := none, ballastTick := 0, calTick := 0 }

/-- A spoke after reset (R329, R330, R393). -/
def Spoke.reset : Spoke :=
  { gated := true, ungating := false, ungateTick := 0, budget := 64, refill := 0, boost := .open, intervals := 0, rerank := false,
    capacity := 0, hot := false, scrubPasses := 0, scrubAddr := 0, sramUnit := 0, retrain := 0, calBusy := 0, calNext := 0,
    retrainTicks := [0, 0, 0, 0], agingAlert := false, margin := 0, agingTick := 0, telTick := 0, reportTick := 0
    scrubTick := 0, sramTick := 0
    counters := [] }

/-- A ring after reset (R417). -/
def Ring.reset : Ring :=
  { base := 0, bound := false, sizeLog := 0, ctx := 0, head := 0, submitted := [], discards := 0, ctlDiscards := 0 }

/-- A postilion after reset (R365). -/
def Post.reset (site : Nat) : Post :=
  { siteReg := BitVec.ofNat 4 site, ctx := 0xFFFF, event := 0, fvaLo := 0, fvaHi := 0, finfo := 0, beat := 0 }

/-- The nine postilions after reset. -/
def Post.resets : List Post := (List.range 9).map Post.reset

/-- The machine right after reset (R422). -/
def State.reset : State :=
  { variant := .kz9, tick := 0, schedule := [], choices := [], cur := none, stall := false, freeCtr := 0, fresh := 1,
    waves := [], wgs := [], gangs := [], batches := [], nodes := [], nodeStarts := 0, succs := [], ctxs := [], regions := [],
    clusters := (List.range 64).map Cluster.reset, spokes := List.replicate 8 .reset,
    rings := List.replicate 64 .reset, reports := [], posts := Post.resets, mem := [],
    ioWrites := [], vers := [], classes := [], lines := [], writes := [], tlb := [], ptPend := [], bad := [], filters := [],
    nextFault := 1, faultRings := List.replicate 4 { base := 0, enable := false, sizeLog := 0, head := 0, tail := 0 },
    copies := [], walks := [], passes := [],
    hub := { ctxBase := 0, rgnBase := 0, pcieAtom := 0, inwin := List.replicate 8 (0, 0), halves := [], counters := [] },
    admitTick := 0, admitCount := 0,
    mail := { head := 0, tail := 0, events := List.replicate 28 [], due := [], cmd := none, seq := 0, result := 0, target := 0,
              lanes := 0, arg := 0, data := [] },
    cores := List.replicate 256 { slots := [0, 0, 0, 0], rows := [0, 0, 0, 0], scratch := 0, bars := 0 },
    views := List.replicate 64 { fused := none, entries := 0, gangs := 0 },
    parts := [], used := [], moved := [],
    power := { actions := [], calm := 0, compared := 0, charged := 0, windows := 0 },
    fw := { state := 0, pref := false, reasonA := 0, reasonB := 0, cmds := [], cmdSeq := 0, cmdResult := 0,
            req := none, rmSeq := 0, rmResult := 0, rmReason := 0, rmData := [], log := [] },
    board := { floor := 0, keyHash := [], flash := [], flashBad := [], certs := [] },
    snap := { group := 0, index := 0, copying := none, buf := [] },
    pins := { reset := true, linkFailed := false, pwrLimit := false, perst := true },
    rejected := [], sent := [] }

end Sys2Proof.Machine
end

