-- ==== Sys2Proof/Machine/Table.lean ====
section
/-! DEFINITION. Sparse tables in one canonical form (keys strictly rising, no entry equal to the default), sets of lanes,
and lists of objects that carry a number. -/

namespace Sys2Proof.Machine

/-- The value at a key; an unlisted key reads as the default. A key beyond the place where it would stand is unlisted. -/
def Map.get {α : Type} (d : α) : Map α → Nat → α
  | [], _ => d
  | (k, v) :: t, n => if n = k then v else if n < k then d else Map.get d t n

/-- The part of a table above a key. -/
def Map.above {α : Type} (n : Nat) : Map α → Map α
  | [] => []
  | (k, v) :: t => if k ≤ n then Map.above n t else (k, v) :: t

/-- Write a value at a key; writing the default removes the entry. -/
def Map.put {α : Type} [DecidableEq α] (d : α) : Map α → Nat → α → Map α
  | [], n, x => if x = d then [] else [(n, x)]
  | (k, v) :: t, n, x =>
    if n < k then (if x = d then (k, v) :: t else (n, x) :: (k, v) :: t)
    else if n = k then (if x = d then Map.above n t else (n, x) :: t)
    else (k, v) :: Map.put d t n x

/-- Keys strictly rising from above `lo`, and no entry equal to the default. -/
def Map.wfFrom {α : Type} [DecidableEq α] (d : α) : Option Nat → Map α → Bool
  | _, [] => true
  | lo, (k, v) :: t =>
    (match lo with | none => true | some l => decide (l < k)) && decide (v ≠ d) && Map.wfFrom d (some k) t

/-- The canonical form. -/
def Map.wf {α : Type} [DecidableEq α] (d : α) (m : Map α) : Bool := Map.wfFrom d none m

/-- The value at a key, if listed. -/
def Map.find {α : Type} : Map α → Nat → Option α
  | [], _ => none
  | (k, v) :: t, n => if k = n then some v else Map.find t n

/-- Insert or replace an entry. -/
def Map.ins {α : Type} : Map α → Nat → α → Map α
  | [], n, x => [(n, x)]
  | (k, v) :: t, n, x => if n < k then (n, x) :: (k, v) :: t else if n = k then (n, x) :: t else (k, v) :: Map.ins t n x

/-- Remove an entry. -/
def Map.del {α : Type} : Map α → Nat → Map α
  | [], _ => []
  | (k, v) :: t, n => if k = n then t else (k, v) :: Map.del t n

/-- The lanes of a mask, lowest first (R42, R207). -/
def lanesOf (m : LaneMask) : List Nat := (List.range 32).filter (fun l => m.getLsbD l)

/-- The mask of one lane. -/
def laneBit (l : Nat) : LaneMask := BitVec.ofNat 32 (2 ^ l)

/-- The mask of the lanes that satisfy a test. -/
def maskOf (f : Nat → Bool) : LaneMask :=
  (List.range 32).foldl (fun m l => if f l then m ||| laneBit l else m) 0

/-- The lowest lane of a mask. -/
def lowestLane (m : LaneMask) : Option Nat := (lanesOf m).head?

/-- The number of lanes of a mask. -/
def countLanes (m : LaneMask) : Nat := (lanesOf m).length

/-- All 32 lanes. -/
def allLanes : LaneMask := BitVec.allOnes 32

/-- Change the element at a position, if there is one. -/
def updAt {α : Type} (l : List α) (n : Nat) (f : α → α) : List α :=
  match l, n with
  | [], _ => []
  | x :: t, 0 => f x :: t
  | x :: t, n + 1 => x :: updAt t n f

/-- Little-endian bytes of a number (R7). -/
def toBytes : Nat → Nat → List Byte
  | 0, _ => []
  | n + 1, x => BitVec.ofNat 8 x :: toBytes n (x / 256)

/-- The number that little-endian bytes hold (R7). -/
def ofBytes : List Byte → Nat
  | [] => 0
  | b :: t => b.toNat + 256 * ofBytes t

end Sys2Proof.Machine
end

