-- ==== Sys2Proof/Machine/Ops.lean ====
section
/-! DEFINITION. The named operations over the state that every meaning shares: looking objects up and putting them back,
memory at its home, the path that issues and how it moves past its word, taking a user trap and returning from one, and
raising a system fault with the kill of its fault domain. -/

namespace Sys2Proof.Machine

/-! ## Objects by number -/

def State.wave? (s : State) (u : Nat) : Option Wave := s.waves.find? (fun w => w.uid == u)
def State.wg? (s : State) (u : Nat) : Option Workgroup := s.wgs.find? (fun w => w.uid == u)
def State.gang? (s : State) (u : Nat) : Option Gang := s.gangs.find? (fun g => g.uid == u)
def State.batch? (s : State) (u : Nat) : Option Batch := s.batches.find? (fun b => b.uid == u)
def State.node? (s : State) (u : Nat) : Option Node := s.nodes.find? (fun n => n.uid == u)
def State.ctx? (s : State) (n : Nat) : Option Ctx := s.ctxs.find? (fun c => c.id == n)
def State.region? (s : State) (n : Nat) : Option Region := s.regions.find? (fun r => r.num == n)

/-- Replace the elements that satisfy a test. -/
def replaceBy {α : Type} (p : α → Bool) (x : α) : List α → List α
  | [] => []
  | y :: t => (if p y then x else y) :: replaceBy p x t

def State.putWave (s : State) (w : Wave) : State := { s with waves := replaceBy (fun x => x.uid == w.uid) w s.waves }
def State.putWg (s : State) (w : Workgroup) : State := { s with wgs := replaceBy (fun x => x.uid == w.uid) w s.wgs }
def State.putGang (s : State) (g : Gang) : State := { s with gangs := replaceBy (fun x => x.uid == g.uid) g s.gangs }
def State.putBatch (s : State) (b : Batch) : State := { s with batches := replaceBy (fun x => x.uid == b.uid) b s.batches }
def State.putNode (s : State) (n : Node) : State := { s with nodes := replaceBy (fun x => x.uid == n.uid) n s.nodes }
def State.putRegion (s : State) (r : Region) : State := { s with regions := replaceBy (fun x => x.num == r.num) r s.regions }

/-- The cluster a physical core belongs to. -/
def clusterOfCore (core : Nat) : Nat := core / 4

/-- The spoke of a physical core. -/
def spokeOfCore (core : Nat) : Nat := if core < 256 then core / 32 else core - 256

/-- A cluster by number; one past the end reads as a cluster after reset. -/
def State.cluster (s : State) (n : Nat) : Cluster := s.clusters.getD n (.reset n)

def State.updCluster (s : State) (n : Nat) (f : Cluster → Cluster) : State := { s with clusters := updAt s.clusters n f }

/-- The launch descriptor of an absent batch: every field 0. -/
def Desc.zero : Desc :=
  { entry := 0, handler := 0, saveBase := 0, saveStride := 0, region := 0, gang := 0, fuse := false, scratch := 0,
    waves := [], budgets := [], trapEn := 0, dbgAttach := false, breakEntry := false, stopScope := 0, dbgTag := 0,
    frameBase := 0, framePerLane := 0, roundSeed := 0, args := [] }

/-- The launch descriptor of a wave's batch (R32). -/
def State.descOf (s : State) (w : Wave) : Desc :=
  match s.batch? w.batch with
  | some b => b.desc
  | none => .zero

/-- The region a wave's batch runs in (R39). -/
def State.regionOf (s : State) (w : Wave) : Nat :=
  match s.batch? w.batch with
  | some b => b.region
  | none => 0

/-- Count an event of readback group 0x09 (R404): by spoke, or 8 for the hub, and the counter's offset. -/
def State.count (s : State) (unit off : Nat) : State :=
  if unit < 8 then
    { s with spokes := updAt s.spokes unit (fun x => { x with counters := Map.put 0 x.counters off (Map.get 0 x.counters off + 1) }) }
  else { s with hub := { s.hub with counters := Map.put 0 s.hub.counters off (Map.get 0 s.hub.counters off + 1) } }

/-! ## Memory at its home -/

/-- What an unlisted byte of device memory reads as (assumption log 6). -/
def memUnlisted : Byte := 0

/-- Device memory is in its canonical form: addresses strictly rising, no entry equal to what an unlisted byte reads as. -/
def Memory.wf (m : Map Byte) : Bool := Map.wf memUnlisted m

/-- A byte of device memory by physical address. -/
def State.byteAt (s : State) (a : Nat) : Byte := Map.get memUnlisted s.mem a

/-- `n` bytes from a physical address. -/
def State.bytesAt (s : State) (a : Nat) : Nat → List Byte
  | 0 => []
  | n + 1 => s.byteAt a :: s.bytesAt (a + 1) n

/-- A little-endian number of `n` bytes (R7). -/
def State.numAt (s : State) (a n : Nat) : Nat := ofBytes (s.bytesAt a n)

/-- Bytes written into a byte table. -/
def putBytes (m : Map Byte) (a : Nat) : List Byte → Map Byte
  | [] => m
  | b :: t => putBytes (Map.put memUnlisted m a b) (a + 1) t

/-- Write bytes at a physical address. -/
def State.setBytes (s : State) (a : Nat) (bs : List Byte) : State := { s with mem := putBytes s.mem a bs }

/-- The sectors of 64 bytes a range touches. -/
def sectors (pa len : Nat) : List Nat := (List.range ((pa % 64 + len + 63) / 64)).map (fun i => pa / 64 + i)

/-- Versions after a write to some sectors (R195). -/
def bumpVersions (m : Map Nat) (secs : List Nat) : Map Nat :=
  secs.foldl (fun m n => Map.put 0 m n ((Map.get 0 m n + 1) % 2 ^ 32)) m

/-- Two byte ranges meet. -/
def overlap (a la b lb : Nat) : Bool := a < b + lb && b < a + la

/-- Bytes of `x` at address `a` laid over the bytes `bs` at address `b`. -/
def patch (b : Nat) (bs : List Byte) (a : Nat) (x : List Byte) : List Byte :=
  (List.range bs.length).map (fun i =>
    if a ≤ b + i && b + i < a + x.length then x.getD (b + i - a) 0 else bs.getD i 0)

/-- The version of a sector (R195). -/
def State.version (s : State) (pa : Nat) : Nat := Map.get 0 s.vers (pa / 64)

/-- The range that the entry at position `j` of a walk maps (R350): the subtree of an entry of level 4 - j, or the whole page
of a leaf. -/
def TlbEntry.range (t : TlbEntry) (j : Nat) : Nat × Nat × Nat :=
  let size := max t.size (2 ^ (12 + 9 * (4 - j)))
  let size := if j + 1 = t.ptes.length then t.size else size
  (t.ctx, t.va / size * size, size)

/-- A translation comes from the page-table entry at `e`; every leaf of a 64 KiB or 16 GiB page counts as an entry of the whole page
(R346). -/
def TlbEntry.from (t : TlbEntry) (e : Nat) : Bool :=
  t.ptes.contains e || ((t.size == 0x10000 || t.size == 0x400000000) && t.ptes.getLast?.any (fun x => x / 128 == e / 128))

/-- The place in the walk of the entry at `e`. -/
def TlbEntry.level (t : TlbEntry) (e : Nat) : Nat := (t.ptes.findIdx? (fun x => x == e)).getD (t.ptes.length - 1)

/-- What a write to the page-table entry at `e` leaves pending: the ranges of the translations derived from it (R350). -/
def State.derived (s : State) (e : Nat) : List (Nat × Nat × Nat) :=
  (s.tlb.filter (fun t => t.from e)).map (fun t => t.range (t.level e))

/-- Entries of 8 bytes that a range touches. -/
def entries (pa len : Nat) : List Nat := (List.range ((pa % 8 + len + 7) / 8)).map (fun i => (pa / 8 + i) * 8)

/-- A WRITE PERFORMED AT ITS HOME (R195, R350, R391): the bytes, the versions of its sectors, an error of a sector written
whole, and a pending completion for each page-table entry that a translator holds something derived from. -/
def State.homeWrite (s : State) (wave op pa : Nat) (data : List Byte) : State :=
  let secs := sectors pa data.length
  let s1 := s.setBytes pa data
  let s2 := { s1 with
    vers := bumpVersions s1.vers secs
    bad := s1.bad.filter (fun n => !(pa ≤ 64 * n && 64 * n + 64 ≤ pa + data.length)) }
  (entries pa data.length).foldl (fun t e =>
    let r := t.derived e
    if r.isEmpty then t
    else { t with ptPend := t.ptPend ++ [{ num := t.fresh, pte := e, ranges := r, wave := wave, op := op }], fresh := t.fresh + 1 }) s2

/-- Copies at some places are updated in place (R209). -/
def State.updateLines (s : State) (sel : Place → Bool) (pa : Nat) (data : List Byte) : State :=
  { s with lines := s.lines.map (fun l =>
      if sel l.place && overlap l.pa 64 pa data.length then { l with data := patch l.pa l.data pa data } else l) }

/-- Set a cause in POST_EVENT of the hub postilion (R371). -/
def State.postEvent (s : State) (code : Nat) : State :=
  { s with posts := updAt s.posts 8 (fun p => { p with event := p.event ||| Config.eventBit code }) }

/-- A report that kills nothing (R371): the record and the cause bit. -/
def State.report (s : State) (r : Report) : State := { s with reports := s.reports ++ [r] }.postEvent r.code

/-- A report to firmware of uncorrectable data that no wave consumed (R391). -/
def State.reportBad (s : State) (spoke pa : Nat) : State :=
  (s.report { code := 0x23, origin := 0, reason := 0, word := 0, addr := BitVec.ofNat 64 pa, hdr := 0, ident := [spoke] }).count spoke
    0x20

/-- `n` bytes that the manual gives no value for. -/
def State.freeBytes (s : State) (n : Nat) : State × List Byte :=
  ({ s with freeCtr := s.freeCtr + n }, (List.range n).map (fun i => Config.freeByte (s.freeCtr + i)))

/-- The cache that a write in flight has reached. -/
def Write.place (x : Write) : Place := if x.stage = 1 then .l1 x.l1 else .l2 x.spoke

/-- WHAT A CACHE GIVES ON OF A WRITE: its bytes, or, where the copy holds an uncorrectable error, bytes that the manual gives no value for;
the error is reported and counted (R391; assumption log 106). -/
def State.writeBack (s : State) (x : Write) : State × List Byte :=
  if s.lines.any (fun l => l.bad && l.place == x.place && l.pa == x.pa / 64 * 64) then (s.reportBad x.spoke x.pa).freeBytes x.data.length
  else (s, x.data)

/-- A write in flight reaches its home. The copies it passed were updated as it passed them; those that it passes only now are updated
now (R185, R232). -/
def State.land (s : State) (x : Write) : State :=
  let r := s.writeBack x
  let s1 := { r.1 with writes := r.1.writes.filter (fun y => y != x) }
  (s1.updateLines (fun p => (x.frame && p == .l1 x.l1) || (x.stage == 1 && p == .l2 x.spoke)) x.pa r.2).homeWrite x.wave x.op x.pa r.2

/-- Every write in flight that satisfies a test reaches its home, those beyond an L1 first, and with each what else its die holds of the
same 128 bytes, which no write crosses: none passes an earlier one (R232). A frame store that is hidden still goes only where the test
names it (R185). -/
def State.landAll (s : State) (sel : Write → Bool) : State :=
  let with_ (y : Write) : Bool := sel y || (!y.frame && s.writes.any (fun x => sel x && x.pa / 128 == y.pa / 128 && x.spoke == y.spoke))
  let go (t : State) (st : Nat) : State := (t.writes.filter (fun x => with_ x && x.stage == st)).foldl State.land t
  go (go s 2) 1

/-- Everything held of a page is written back and dropped. -/
def State.recallPage (s : State) (page : Nat) : State :=
  let s1 := s.landAll (fun x => x.pa / 4096 == page && !x.frame)
  { s1 with lines := s1.lines.filter (fun l => l.pa / 4096 != page) }

/-- An access that no core's miss stands behind, of the host, a peer or a copy for another core: the page is shared (R193). -/
def State.share (s : State) (pa : Nat) : State :=
  match Map.find s.classes (pa / 4096) with
  | some .shared => s
  | some (.owned _ _ _) =>
    let s1 := s.recallPage (pa / 4096)
    { s1 with classes := Map.ins s1.classes (pa / 4096) .shared }
  | none => { s with classes := Map.ins s.classes (pa / 4096) .shared }

/-- A WRITE BY THE COMMAND PROCESSOR at its home (R35, R193, R195, R357): the bytes and the versions; a page that one core owned is written
back and becomes shared first. A sector written whole holds no error any more (R391). -/
def State.cpWrite (s : State) (pa : Nat) (data : List Byte) : State :=
  let t := s.share pa
  { t.setBytes pa data with
    vers := bumpVersions t.vers (sectors pa data.length)
    bad := t.bad.filter (fun n => !(pa ≤ 64 * n && 64 * n + 64 ≤ pa + data.length)) }

/-- Write a little-endian number of `n` bytes (R7). -/
def State.setNum (s : State) (a n x : Nat) : State := s.setBytes a (toBytes n x)

/-! ## The path that issues -/

/-- The wave, the path and the clause whose next word issues. -/
structure Issue where
  w : Wave
  p : Path
  c : Clause

/-- The word that issues. -/
def Issue.word (i : Issue) : Word64 := i.c.words.getD i.c.idx 0

/-- Its address (R51). -/
def Issue.addr (i : Issue) : Word64 := i.c.addr + BitVec.ofNat 64 (8 * (i.c.idx + 1))

/-- The address of the word after the clause (R282). -/
def Clause.after (c : Clause) : Word64 := c.addr + BitVec.ofNat 64 (8 * (c.words.length + 1))

/-- The path selected by `cur`, when it has a word to issue. -/
def State.issue? (s : State) : Option Issue :=
  match s.cur with
  | none => none
  | some (u, l) =>
    match s.wave? u with
    | none => none
    | some w =>
      match w.paths.find? (fun p => p.lanes.getLsbD l) with
      | none => none
      | some p =>
        match p.clause with
        | none => none
        | some c => if c.idx < c.words.length then some ⟨w, p, c⟩ else none

/-- Two paths that are one: at the same clause header, or trap point, with neither inside a clause (R278). -/
def Path.same (p q : Path) : Bool :=
  p.clause.isNone && q.clause.isNone && p.pc == q.pc && p.entry == q.entry && p.waitOnly == q.waitOnly && !p.waiting
    && !q.waiting && !p.halted && !q.halted && !p.dbg && !q.dbg && !p.step && !q.step

/-- Add a path to a wave's paths, joining it to the one it is the same as (R278). A path without lanes is none. -/
def addPath (p : Path) : List Path → List Path
  | [] => if p.lanes = 0 then [] else [p]
  | q :: t =>
    if p.same q then { q with lanes := p.lanes ||| q.lanes, passed := max p.passed q.passed } :: t
    else q :: addPath p t

/-- Replace the path that holds these lanes by others. -/
def replacePath (ps : List Path) (lanes : LaneMask) (new : List Path) : List Path :=
  new.foldl (fun acc p => addPath p acc) (ps.filter (fun q => q.lanes &&& lanes == 0))

/-- A path at a clause header. No clause has led it there yet: until one does, `prev`, the header that a record of reason 0x10 names, is 0,
as for a wave's ENTRY or HANDLER that is no header, of which R73 says nothing (assumption log 88). -/
def Path.at (lanes : LaneMask) (pc : Word64) : Path :=
  { lanes := lanes, pc := pc, entry := 0, prev := 0, clause := none, slot := false, waiting := false, waitOnly := false, halted := false,
    dbg := false, step := false, gen := none, phase := none, passed := 0 }

/-- The path moved past its word: to the next word of its clause, or to the word after the clause (R56). One that has waited
has no slot (R279). -/
def Path.advance (p : Path) (c : Clause) : Path :=
  if c.idx + 1 < c.words.length then
    { p with clause := some { c with idx := c.idx + 1 }, slot := p.slot && !p.waiting, waiting := false, waitOnly := false }
  else { Path.at p.lanes c.after with prev := c.addr, passed := p.passed, halted := p.halted, dbg := p.dbg, step := p.step }

/-- A stepping path whose word has issued, and that does not wait at it, stops again (R390). -/
def Path.stepped (p : Path) : Path := if p.step && !p.waiting then { p with dbg := true, step := false } else p

/-! ## Taking a user trap (R377) -/

/-- Where a path would resume: the word it is at (R377, R383, R384). -/
def Path.trapPoint (p : Path) : TrapPoint :=
  match p.clause with
  | some c => { hdr := c.addr, idx := c.idx + 1, waitOnly := p.waitOnly }
  | none => { hdr := p.pc, idx := p.entry, waitOnly := p.waitOnly }

/-- The address of a trap point, as TRAPPC_LO and TRAPPC_HI read (R45). -/
def TrapPoint.pc (t : TrapPoint) : Word64 := t.hdr + BitVec.ofNat 64 (8 * t.idx)

/-- The path has stopped where a trap may be taken: between clauses, waiting at a word, or halted (R377). -/
def Path.atStop (p : Path) : Bool := p.clause.isNone || p.waiting || p.halted

/-- The lanes that have not exited. -/
def Wave.live (w : Wave) : LaneMask := w.exist &&& ~~~w.exited

/-- The trap points of a wave's lanes. -/
def trapPoints (paths : List Path) : Map TrapPoint :=
  paths.foldl (fun m p => (lanesOf p.lanes).foldl (fun m l => Map.ins m l p.trapPoint) m) []

/-- TAKING A USER TRAP (R377): the cause goes to TRAPCODE, each lane's trap point to its TRAPPC, and every unexited lane
becomes active on one path at the handler. Registers, flags and FPSTAT are not changed. A single step ends there (R390). -/
def Wave.enterTrap (w : Wave) (handler : Word64) (code : Nat) : Wave :=
  { w with
    paths := addPath { Path.at w.live handler with dbg := w.paths.any (fun p => p.step) } []
    trap := { w.trap with
      inHandler := true
      code := code
      cause := code
      pts := trapPoints w.paths
      returned := 0
      pend := none
      preempt := if code = 1 then false else w.trap.preempt
      taken := w.trap.taken || code == 1 } }

/-! ## Reports and fault domains (R73, R74, R363, R371) -/

/-- The identifier of a wave: node, batch sequence number, linear id, wave index (R29). -/
def State.identOf (s : State) (w : Wave) : List Nat :=
  [w.node, (match s.batch? w.batch with | some b => b.seq | none => 0),
    (match s.wg? w.wg with | some g => g.lid | none => 0), w.idx]

/-- A region and those above it, up to but without region 0; at most `fuel` levels (R357). -/
def State.regionPath (s : State) : Nat → Nat → List Nat
  | 0, _ => []
  | fuel + 1, r =>
    if r = 0 then []
    else r :: (match s.region? r with | some b => s.regionPath fuel b.parent | none => [])

/-- The root of the fault domain of a region, and whether it is a whole subtree (R363). -/
def State.domainRoot (s : State) (r : Nat) : Nat × Bool :=
  match (s.regionPath 17 r).find? (fun x => match s.region? x with | some b => b.faultDomain | none => false) with
  | some x => (x, true)
  | none => (r, false)

/-- Does region `x` lie in the fault domain of region `r`? (R363) -/
def State.inDomain (s : State) (r x : Nat) : Bool :=
  let root := s.domainRoot r
  x == root.1 || (root.2 && (s.regionPath 17 x).contains root.1)

/-- The address of a node's record (R312). -/
def State.recordOf (s : State) (n : Node) : Nat := (s.rings.getD n.ring .reset).base + 256 * n.slot

/-- The 64 bytes of a debug event (R421). -/
def State.dbgEvent (s : State) (w : Wave) (kind imm : Nat) (lanes : LaneMask) (pc : Word64) : DbgEvent :=
  let id := s.identOf w
  let tag := (s.descOf w).dbgTag
  let n := s.node? w.node
  toBytes 4 (2 ^ 31 + kind % 16 + tag % 256 * 2 ^ 8 + imm % 256 * 2 ^ 16) ++ toBytes 4 lanes.toNat ++ toBytes 8 pc.toNat
    ++ toBytes 4 (id.getD 1 0) ++ toBytes 4 (id.getD 2 0) ++ toBytes 1 w.idx ++ toBytes 1 w.core ++ toBytes 1 w.slot
    ++ toBytes 1 0 ++ toBytes 2 w.ctx ++ toBytes 1 (match n with | some x => x.ring | none => 0) ++ toBytes 1 0
    ++ toBytes 4 (match n with | some x => x.slot | none => 0) ++ toBytes 4 0 ++ toBytes 8 s.tick ++ toBytes 16 0

/-- A stopped wave has an event to post (R421). -/
def State.queueEvent (s : State) (e : DbgEvent) : State := { s with mail := { s.mail with due := s.mail.due ++ [e] } }

/-- Stepping paths of a wave that have stopped since it was `before` have each an event to post (R390, R421). -/
def State.noteStep (s : State) (before : Wave) : State :=
  match s.wave? before.uid with
  | none => s
  | some w =>
    let ended (p : Path) : Bool := p.dbg && before.paths.any (fun q => q.step && (q.lanes &&& p.lanes) != 0)
    (w.paths.filter ended).foldl (fun t p => t.queueEvent (s.dbgEvent w 2 0 p.lanes p.trapPoint.pc)) s

/-- The access has begun to take effect and is not performed again (R213, R373): an atomic, a blend, a PUBLISH or an IO
access. -/
def Access.fixed (a : Access) : Bool :=
  a.started && (match a.instr with
    | .ats .. | .atc .. | .atg .. | .ath .. | .publish .. | .pixBlend .. => true
    | _ => !a.aux.isEmpty)

/-- ROLLBACK (R373): the wave returns to its checkpoint; words issued beyond it leave nothing behind. -/
def Wave.rollback (w : Wave) : Wave :=
  match w.ckpt with
  | none => w
  | some c =>
    { w with
      rf := c.rf, paths := c.paths, bar := c.bar, access := none, unconf := [], ckpt := none, beyond := 0
      marks := w.marks.filter (fun m => m.op < c.op), bound := w.bound.filter (fun b => b.op < c.op) }

/-- A wave's operation waits for a REPLAY (R352, R354). -/
def State.blocked (s : State) (wave op : Nat) : Bool :=
  s.filters.any (fun f => !f.replayed && f.waiters.contains (wave, op) && !f.todo.contains (wave, op))

/-- The wave has a checkpoint behind its position: an access not performed or a leased value not confirmed (R372). -/
def Wave.behind (w : Wave) : Bool := w.access.isSome || !w.unconf.isEmpty

/-- A PENDING USER TRAP IS TAKEN once every path of the wave has stopped and its checkpoint has reached them (R374, R377). -/
def State.settleTrap (s : State) (u : Nat) : State :=
  match s.wave? u with
  | none => s
  | some w =>
    match w.trap.pend with
    | none => s
    | some code =>
      if !w.behind && w.paths.all Path.atStop then (s.putWave (w.enterTrap (s.descOf w).handler code)).noteStep w
      else s

/-! ## A path moves on -/

/-- A WAVE THAT A DEBUGGER'S SCOPE STOPS (R288, R390): once each of its paths is between clauses, waiting or already stopped, and
no rollback can move it from there, all are stopped, and the wave has one event to post. -/
def State.settleDbg (s : State) (u : Nat) : State :=
  match s.wave? u with
  | none => s
  | some w =>
    match lowestLane w.live with
    | none => s
    | some l =>
      if w.dbgWant && !w.behind && w.paths.all (fun p => p.atStop || p.dbg) then
        let pc := match w.paths.find? (fun p => p.lanes.getLsbD l) with | some p => p.trapPoint.pc | none => 0
        (s.putWave { w with dbgWant := false, paths := w.paths.map (fun p => { p with dbg := true }) }).queueEvent
          (s.dbgEvent w 4 0 w.live pc)
      else s

/-- Where `State.used` counts a cluster's gangs of a region. -/
def useKey (cluster region : Nat) : Nat := 16 * cluster + region

/-- An issue cycle or span pass of a gang on its cluster counts (R361). -/
def noteUse (used : Map Nat) (core region : Nat) : Map Nat :=
  let k := useKey (clusterOfCore core) region
  Map.ins used k (Map.get 0 used k + 1)

/-- Put paths in the place of the issuing path. A clause whose header has the yield hint moves the wave back in its
partition's rotation once its last word has issued, be it to wait there (R56, R275, R287); the gang has used its cluster (R361), unless a
waiting path only looked again. A trap
that waited for this path is taken once it has stopped (R377); ballast of the cluster stops (R334). -/
def State.replace (s : State) (i : Issue) (w : Wave) (new : List Path) : State :=
  let done := i.c.idx + 1 == i.c.words.length && !i.p.waiting && new.all (fun p => p.lanes == 0 || p.clause.isNone || p.waiting)
  let y := done && i.c.head.yieldHint
  let new := if i.p.step then new.map (fun (p : Path) => { p with step := true }.stepped) else new
  let s0 := s.putWave { w with paths := replacePath w.paths i.p.lanes new, turn := if y then s.fresh else w.turn }
  let s1 := if i.p.step then s0.noteStep i.w else s0
  let idle := i.p.waiting && new.all (fun p => p.waiting)
  let s2 := if idle then s1 else { s1 with
    clusters := updAt s1.clusters (clusterOfCore w.core) (fun c => { c with issued := some s.tick, ballast := 0 })
    fresh := if y then s.fresh + 1 else s.fresh
    used := noteUse s.used w.core (s.regionOf w) }
  State.settleDbg (State.settleTrap s2 w.uid) w.uid

/-- The issuing path moves past its word. -/
def State.retire (s : State) (i : Issue) (w : Wave) : State := s.replace i w [i.p.advance i.c]

/-! ## Removal of waves and nodes (R35, R254, R363) -/

/-- An open tenure of some waves ends, with the pass in progress if there is one (R171). -/
def Span.disown (sp : Span) (gone : Nat → Bool) : Span :=
  match sp.owner with
  | some u => if gone u then { sp with owner := none, ending := true } else sp
  | none => sp

/-- A span without the entries and the open tenure of some waves (R171, R363). -/
def Span.without (sp : Span) (gone : Nat → Bool) : Span :=
  { sp.disown gone with entries := sp.entries.filter (fun e => !gone e.wave) }

/-- The waves of saved gangs, which the save engine keeps (R384). -/
def State.keptWaves (s : State) : List Wave := s.gangs.flatMap (fun g => g.kept.elim [] (fun k => k.waves))

/-- The lanes of a wave at which a debugger has stopped. -/
def Wave.stoppedLanes (w : Wave) : LaneMask := (w.paths.filter (fun p => p.dbg)).foldl (fun m p => m ||| p.lanes) 0

/-- STOPPED WAVES THAT A KILL OF THEIR FAULT DOMAIN REMOVES, a saved gang's too, post an event of KIND 5 each (R421): their stopped
lanes, and the address of the lowest of them (assumption log 51). -/
def State.goneEvents (s : State) (gone : Nat → Bool) : State :=
  ((s.waves ++ s.keptWaves).filter (fun w => gone w.uid)).foldl (fun t w =>
    match (lowestLane w.stoppedLanes).bind (fun l => w.paths.find? (fun p => p.lanes.getLsbD l)) with
    | some p => t.queueEvent (s.dbgEvent w 5 0 w.stoppedLanes p.trapPoint.pc)
    | none => t) s

/-- Everything of some waves that has not been performed goes (R363). -/
def State.dropWaves (s : State) (gone : Nat → Bool) : State :=
  let t := s
  { t with
    waves := t.waves.filter (fun w => !gone w.uid)
    copies := t.copies.filter (fun c => !gone c.wave)
    walks := t.walks.filter (fun c => !gone c.wave)
    filters := (t.filters.map (fun f => { f with
      waiters := f.waiters.filter (fun x => !gone x.1), todo := f.todo.filter (fun x => !gone x.1) })).filter (fun f => !f.waiters.isEmpty)
    clusters := t.clusters.map (fun c => { c with span := c.span.without gone }) }

/-- The gang occupies cores (R379). -/
def Gang.onCores (g : Gang) : Bool := g.state != .saved

/-- A latch without a resident gang is released (R341). -/
def State.releaseLatches (s : State) : State :=
  { s with ctxs := s.ctxs.filter (fun c => s.gangs.any (fun g => g.onCores && (match s.node? g.node with
      | some n => n.ctx == c.id
      | none => false))) }

/-- Remove the gangs of a node, with everything of theirs that has not been performed, saved ones too; its open raster passes close
FAILED, and the latch of its context is released where no other gang holds it (R254, R341, R363). `kill`: a kill of its fault domain
removes them. -/
def State.dropNode (s : State) (u : Nat) (kill : Bool) : State :=
  let mine (w : Nat) : Bool := (s.waves ++ s.keptWaves).any (fun x => x.uid == w && x.node == u)
  let s0 := if kill then s.goneEvents mine else s
  let s1 := (s0.passes.filter (fun p => p.node == u)).foldl (fun t p => t.cpWrite (p.pa + 0x40) (toBytes 4 3)) s0
  let s2 := s1.dropWaves mine
  State.releaseLatches { s2 with
    wgs := s2.wgs.filter (fun g => match s2.gang? g.gang with | some x => x.node != u | none => true)
    gangs := s2.gangs.filter (fun g => g.node != u)
    batches := s2.batches.filter (fun b => b.node != u)
    nodes := s2.nodes.filter (fun n => n.uid != u)
    passes := s2.passes.filter (fun p => p.node != u) }

/-- A node ends FAILED with a REASON: STATUS and T_END of its record are written, and its gangs are removed (R35, R314). -/
def State.failNode (s : State) (n : Node) (reason : Nat) : State :=
  let a := s.recordOf n
  let st := s.numAt a 4
  let s1 := (s.cpWrite a (toBytes 4 (st / 65536 * 65536 + reason % 256 * 256 + st / 16 % 16 * 16 + 5))).cpWrite (a + 0x50)
    (toBytes 8 s.tick)
  s1.dropNode n.uid (reason == 0x09)

/-- Kill the fault domain of region `r`: every RUNNING node of it (R314); node `also` is killed wherever its region lies (R363). -/
def State.killDomain (s : State) (r : Nat) (also : Option Nat) : State :=
  let hit (n : Node) : Bool :=
    n.running && (some n.uid == also || s.inDomain r n.region || s.batches.any (fun b => b.node == n.uid && s.inDomain r b.region))
  (s.nodes.filter hit).foldl (fun t n =>
    let t1 := t.failNode n 0x09
    match t1.region? n.region with
    | some b => t1.putRegion { b with kills := b.kills + 1 }
    | none => t1) s

/-- The unexited lanes of a wave have an address in TRAPPC_LO and TRAPPC_HI (R45, R73). -/
def Wave.pointAt (w : Wave) (addr : Word64) : Wave :=
  { w with trap := { w.trap with pts := (lanesOf w.live).map (fun l => (l, { hdr := addr, idx := 0, waitOnly := false })) } }

/-- Registers at wave start (R40): all zero and false. -/
def RegFile.zero : RegFile :=
  { v := [], s := [], p := [], j := [], a := [], fpstat := 0, seed := [], timeHi := 0, bad := [] }

/-- A wave outside its handler. -/
def Trap.none : Trap :=
  { inHandler := false, code := 0, pts := [], returned := 0, pend := Option.none, preempt := false, taken := false,
    reported := false, cause := 0 }

/-- No arrival at any barrier (R298). -/
def WaveBar.zero : WaveBar :=
  { mask := [], first := [], again := [], freed := [], ticket := [], arrived := 0, gmask := 0, gform := false
    gticket := 0, gcounted := false
    kticket := 0, kcounted := false }

/-- A wave at its start, with one path of the lanes that exist at an address. -/
def Wave.start (uid : Nat) (lanes : LaneMask) (pc : Word64) : Wave :=
  { uid := uid, wg := 0, gang := 0, batch := 0, node := 0, ctx := 0xFFFF, idx := 0, role := 0, budget := 192, core := 0,
    slot := 0, vdie := 0, post := none, exist := lanes, exited := 0, rf := .zero, paths := [Path.at lanes pc]
    marks := [], reads := [], bound := [],
    spanHeld := 0, trap := .none, bar := .zero, access := none, ckpt := none, beyond := 0, unconf := [], floor := 0,
    floorL1 := 0, ops := [], waybill := [], enqs := [], frags := [], walkIdx := [], walkSteps := 0, dbgWant := false,
    turn := 0 }

/-- The sites that hold a postilion: the hub's 8 and one for each populated spoke (R2, R10, R392). -/
def State.postSites (s : State) : List Nat :=
  match s.variant with
  | .kz9 => [0, 1, 2, 3, 4, 5, 6, 7, 8]
  | .kz96 => [0, 1, 2, 3, 4, 5, 8]

/-- Every postilion starts at the running image (R392, R393), its heartbeat counted from now. A postilion has no batch: RNDSEED is 1 in
every lane (assumption log 87). -/
def State.startPosts (s : State) : State :=
  s.postSites.foldl (fun t site =>
    { t with
      waves := t.waves ++ [{ Wave.start t.fresh allLanes Config.fwEntry with core := 256 + site, post := some site }]
      fresh := t.fresh + 1 }) { s with posts := s.posts.map (fun p => { p with beat := s.tick }) }

/-- Every node that is RUNNING ends FAILED with a REASON. -/
def State.failRunning (s : State) (reason : Nat) : State :=
  (s.nodes.filter (fun n => n.running)).foldl (fun t n => t.failNode n reason) s

/-- THE BOOT ROM RESTARTS EVERY POSTILION from the running slot (R392): nodes RUNNING end FAILED with REASON 0x0D. -/
def State.restartPosts (s : State) : State :=
  let s1 := { s with waves := s.waves.filter (fun w => w.post.isNone) }.failRunning 0x0D
  { s1.count 8 0x60 with posts := Post.resets }.startPosts

/-- An uncontained fault of a wave: the record of R73, the address of its word in TRAPPC for ILLEGAL, the cause bit, and the kill of
the fault domain (R371). A postilion, which no region holds, stops; inside its firmware trap handler it restarts every postilion (R367). -/
def State.uncontained (s : State) (w : Wave) (r : Report) : State :=
  let w1 := if r.code = 0x22 then w.pointAt r.addr else w
  if w.post.isSome && w.trap.inHandler then State.restartPosts { s with reports := s.reports ++ [r] }
  else if w.post.isSome then
    State.putWave { s with reports := s.reports ++ [r] }
      { w1 with paths := w.paths.map (fun p => { p with halted := true }) }
  else ((State.putWave { s with reports := s.reports ++ [r] } w1).postEvent r.code).killDomain (s.regionOf w) (some w.node)

/-- The record of a fault at the issuing word (R73). -/
def State.reportAt (s : State) (i : Issue) (code reason : Nat) : Report :=
  { code := code, origin := 0, reason := reason, word := i.word, addr := i.addr, hdr := i.c.addr, ident := s.identOf i.w }

/-- ILLEGAL at the issuing word, which has no effect (R73, R74). -/
def State.illegal (s : State) (i : Issue) (reason : Nat) : State := s.uncontained i.w (s.reportAt i 0x22 reason)

/-- Another system fault at the issuing word (R370, R371). -/
def State.sysFault (s : State) (i : Issue) (code : Nat) : State := s.uncontained i.w (s.reportAt i code 0)

/-! ## Raising a user trap, and the end of a handler (R370, R378, R289) -/

/-- RAISING A USER TRAP (R370, R377, R378): inside a handler it is ILLEGAL 0x1F; with HANDLER 0 it is an uncontained fault (R371);
otherwise the path becomes `new` and the trap is taken when every path has stopped. Where another path's trap waits already, only that
one is taken: the word writes nothing, and issues again when its path next runs (R115). `w` is the wave with what the trapping
instruction leaves in FPSTAT. -/
def State.raiseTrap (s : State) (i : Issue) (w : Wave) (code : Nat) (new : List Path) : State :=
  if w.trap.inHandler then (s.putWave w).illegal i 0x1F
  else if (s.descOf w).handler = 0 then (s.putWave w).uncontained w (s.reportAt i code 0)
  else
    let w1 := if w.trap.pend.isSome then { i.w with paths := replacePath i.w.paths i.p.lanes [{ i.p with halted := true }] }
      else { w with paths := replacePath w.paths i.p.lanes new, trap := { w.trap with pend := some code } }
    (s.putWave w1).settleTrap w.uid

/-- A user trap whose trap point is its own word. -/
def State.userTrap (s : State) (i : Issue) (w : Wave) (code : Nat) : State := s.raiseTrap i w code [{ i.p with halted := true }]

/-- TOKEN at the issuing word (R44, R160). In a handler it is ILLEGAL 0x1F, and of two reasons the lowest is reported (R74): `run` is what
the word would do with the token. -/
def State.tokenTrap (s : State) (i : Issue) (run : Option State) : State :=
  match run with
  | some t => if i.w.trap.inHandler && (t.reports.drop s.reports.length).any (fun r => r.code == 0x22) then t else s.userTrap i i.w 0x06
  | none => s.userTrap i i.w 0x06

/-- A user trap of the lanes `q` whose trap point is the next word: BPT and TRAP (R288). The other lanes go on as a path of their
own (R280). -/
def State.userTrapAfter (s : State) (i : Issue) (q : LaneMask) (code : Nat) : State :=
  s.raiseTrap i i.w code [{ { i.p with lanes := q }.advance i.c with halted := true }, { i.p with lanes := i.p.lanes &&& ~~~q }.advance i.c]

/-- A path at a trap point (R289): inside the clause without its earlier words, or at its header. -/
def TrapPoint.path (t : TrapPoint) (lanes : LaneMask) : Path :=
  { Path.at lanes t.hdr with entry := t.idx, waitOnly := t.waitOnly }

/-- THE END OF A HANDLER (R289, R378): when every unexited lane has returned, the trap state clears, TRAPCODE reads 0, and a
pended PREEMPT is taken. -/
def State.settleHandler (s : State) (u : Nat) : State :=
  match s.wave? u with
  | none => s
  | some w =>
    if w.trap.inHandler && (w.live &&& ~~~w.trap.returned) == 0 then
      let w1 := { w with trap := { w.trap with inHandler := false, code := 0, cause := 0, pts := [], returned := 0 } }
      let w2 := if w.trap.preempt && (s.descOf w).handler != 0 then
          { w1 with trap := { w1.trap with pend := some 1 }, paths := w1.paths.map (fun p => { p with halted := true }) }
        else w1
      (s.putWave w2).settleTrap u
    else s

/-! ## What holds a word at issue (R44, R58, R372) -/

/-- Registers are named by a pending mark of the wave (R58). -/
def Wave.marked (w : Wave) (regs : List RegId) : Bool := w.marks.any (fun m => m.regs.any (fun r => regs.contains r))

/-- A span operation of the wave has still to read one of these registers: a write of it is held (R58, R164). -/
def Wave.readMarked (w : Wave) (regs : List RegId) : Bool := w.reads.any (fun m => m.regs.any (fun r => regs.contains r))

/-- A register lies in a block whose token the span holds (R44). -/
def Wave.tokenBlocked (w : Wave) (regs : List RegId) : Bool :=
  regs.any (fun r => match r with
    | .v n => w.spanHeld.getLsbD (n / 32)
    | .s _ | .p _ | .fpstat | .seed => false)

/-- What the issue stage does with a word. -/
inductive Gate where
  | hold
  | token
  /-- A copy of the wave met uncorrectable data: the trap is taken now (R211, R218). -/
  | check
  | go
  deriving DecidableEq, Repr

/-- A fence of the wave is in progress (R222 to R224). -/
def Wave.fencing (w : Wave) : Bool :=
  w.ops.any (fun o => match o.instr with
    | .fence _ _ | .fenceXp _ _ | .fencePt _ => true
    | _ => false)

/-- No wave of the core's cluster issues from the first hitch cycle to the last unhitch cycle (R19, R157). -/
def State.hitchedAt (s : State) (core : Nat) : Bool :=
  core < 256 && (s.cluster (clusterOfCore core)).span.hitched

/-- The postilion of a gated spoke stands still, with all that it has in flight (R11). -/
def State.powered (s : State) (w : Wave) : Bool :=
  match w.post with
  | some site => site = 8 || !(s.spokes.getD site .reset).gated
  | none => true

/-- The wave is on its core and its gang is in a state in which waves run (R379): a postilion runs while its spoke is not
gated (R11). -/
def State.running (s : State) (w : Wave) : Bool :=
  match w.post with
  | some _ => s.powered w
  | none => match s.gang? w.gang with
    | some g => g.state == .resident || g.state == .requested || g.state == .handling
    | none => false

/-- What holds a word at issue whether or not its cluster is hitched (R157). -/
def State.gateAny (s : State) (w : Wave) (mem : Bool) (regs : List RegId) : Gate :=
  if !s.running w then .hold
  else if (s.copies.any (fun c => c.wave == w.uid && c.dead) || s.walks.any (fun c => c.wave == w.uid && c.dead)) && !w.behind then .check
  else if w.marked regs || (w.behind && (mem || 64 ≤ w.beyond)) || (mem && w.fencing) then .hold
  else if w.tokenBlocked regs then (if w.behind then .hold else .token)
  else .go

/-- WHAT HOLDS A WORD AT ISSUE. A word that only changes registers: a pending mark (R58), or 64 words beyond the checkpoint
(R372). Any other word (`mem`): also a checkpoint it has not reached and a fence in progress (R222, R372). Both: a hitched
cluster (R19). TOKEN when a block it names is with the span (R44), once the checkpoint reaches it (R374). -/
def State.gate (s : State) (w : Wave) (mem : Bool) (regs : List RegId) : Gate :=
  if s.hitchedAt w.core then .hold else s.gateAny w mem regs

/-- The guard of a lane (R63). -/
def guardLane (rf : RegFile) (g : Guard) (l : Nat) : Bool :=
  let pr (n : Fin 8) : Bool := n == 7 || (Map.get 0 rf.p n).getLsbD l
  let a := pr g.p != g.neg
  match g.comb with
  | .only => a
  | .and q n => a && (pr q != n)
  | .or q n => a || (pr q != n)

/-- The qualifying lanes: active and with a true guard (R63). -/
def qualify (rf : RegFile) (g : Guard) (act : LaneMask) : LaneMask := maskOf (fun l => act.getLsbD l && guardLane rf g l)

/-- The flag a long-latency word is bound to: SETA for the first of its clause, SETB for the second (R57). -/
def Issue.flag (i : Issue) : Option Nat :=
  let earlier := (i.c.words.take i.c.idx).filter (fun w =>
    match decode .user w with
    | .ok x => x.isLong
    | .error _ => false)
  let f := if earlier.isEmpty then i.c.head.seta else i.c.head.setb
  if f < 12 then some f else none

/-- Bind an operation to a flag (R59). -/
def Wave.bind (w : Wave) (op : Nat) (flag : Option Nat) : Wave :=
  match flag with
  | some f => { w with bound := w.bound ++ [⟨op, f⟩] }
  | none => w

/-- The operation has completed: its flag entry and its mark go (R58, R59). -/
def Wave.complete (w : Wave) (op : Nat) : Wave :=
  { w with
    bound := w.bound.filter (fun b => b.op != op), marks := w.marks.filter (fun m => m.op != op)
    reads := w.reads.filter (fun m => m.op != op) }

/-- The count of a completion flag (R59). -/
def Wave.flagCount (w : Wave) (f : Nat) : Nat := (w.bound.filter (fun b => b.flag == f)).length

end Sys2Proof.Machine
end

