-- ==== Sys2Proof/Machine/Operands.lean ====
section
/-! DEFINITION. Operand reads and result writes (R42, R64 to R66, R116, R117), the registers an operand names for marks and
tokens, and the issue of an instruction whose every effect is on registers. -/

namespace Sys2Proof.Machine

/-! ## Reads -/

/-- A lane register. -/
def RegFile.vreg (rf : RegFile) (n lane : Nat) : Word := Map.get 0 rf.v (32 * n + lane)

/-- A scalar register. -/
def RegFile.sreg (rf : RegFile) (n : Nat) : Word := Map.get 0 rf.s n

/-- A predicate in a lane; p7 is true (R40). -/
def RegFile.pred (rf : RegFile) (n : Nat) (lane : Nat) : Bool := n == 7 || (Map.get 0 rf.p n).getLsbD lane

/-- A pcomb operand in a lane (R116). -/
def RegFile.pcomb (rf : RegFile) (c : PComb) (lane : Nat) : Bool := rf.pred c.p lane != c.neg

end Sys2Proof.Machine

namespace Sys2Proof
open Machine

/-- A 32-bit source in a lane (R64); `lit` is the clause literal. -/
def Src.read (rf : RegFile) (lit : Word) (lane : Nat) : Src → Word
  | .v n => rf.vreg n lane
  | .s n => rf.sreg n
  | .zero => 0
  | .lit => lit
  | .lane => BitVec.ofNat 32 lane

/-- How a 64-bit operand widens the literal (R66). -/
inductive Widen where
  | sext | zext | fp
  deriving DecidableEq, Repr

/-- A 64-bit source in a lane (R65, R66): the even register is the low half. -/
def Src.read64 (rf : RegFile) (lit : Word) (wd : Widen) (lane : Nat) : Src → Word64
  | .v n => rf.vreg (n + 1) lane ++ rf.vreg n lane
  | .s n => rf.sreg (n + 1) ++ rf.sreg n
  | .zero => 0
  | .lit => match wd with
    | .sext => lit.signExtend 64
    | .zext => lit.zeroExtend 64
    | .fp => lit ++ (0 : Word)
  | .lane => BitVec.ofNat 64 lane

/-- Register `k` of a source run of `n` registers (R139): beyond a register pair, literals fill the low register only, but
a 64-bit element type widens them. -/
def Src.readRun (rf : RegFile) (lit : Word) (wide : Option Widen) (lane k : Nat) (a : Src) : Word :=
  match a with
  | .v n => rf.vreg (n + k) lane
  | .s n => rf.sreg (n + k)
  | .zero => 0
  | .lit | .lane =>
    match wide with
    | some wd =>
      let x := a.read64 rf lit wd lane
      if k = 0 then x.extractLsb' 0 32 else x.extractLsb' 32 32
    | none => if k = 0 then a.read rf lit lane else 0

/-- The predicates a guard reads. -/
def Guard.regs (g : Guard) : List RegId :=
  (if g.p == 7 then [] else [.p g.p]) ++ (match g.comb with
    | .only => []
    | .and q _ | .or q _ => if q == 7 then [] else [.p q])

def Src.regs : Src → List RegId
  | .v n => [.v n]
  | .s n => [.s n]
  | .zero | .lit | .lane => []

/-- The registers of a source run of `n`. -/
def Src.regsRun (n : Nat) : Src → List RegId
  | .v r => (List.range n).map (fun k => .v (r + k))
  | .s r => (List.range n).map (fun k => .s (r + k))
  | .zero | .lit | .lane => []

def Src.regsOpt : Option Src → List RegId
  | none => []
  | some a => a.regs

def Dst.regs : Dst → List RegId
  | .v n => [.v n]
  | .s n => [.s n]
  | .zero => []

/-- The registers of a destination run of `n`. -/
def Dst.regsRun (n : Nat) : Dst → List RegId
  | .v r => (List.range n).map (fun k => .v (r + k))
  | .s r => (List.range n).map (fun k => .s (r + k))
  | .zero => []

end Sys2Proof

namespace Sys2Proof.Machine

/-! ## Writes -/

/-- Write a lane register in the lanes of a mask; what is written holds no error any more (R391). -/
def RegFile.putV (rf : RegFile) (n : Nat) (q : LaneMask) (f : Nat → Word) : RegFile :=
  { rf with
    v := (lanesOf q).foldl (fun m l => Map.put 0 m (32 * n + l) (f l)) rf.v
    bad := rf.bad.filter (fun x => !(x.1 == .v n && q.getLsbD x.2)) }

/-- Write a scalar register from the lowest qualifying lane (R42). -/
def RegFile.putS (rf : RegFile) (n : Nat) (q : LaneMask) (f : Nat → Word) : RegFile :=
  match lowestLane q with
  | some l => { rf with s := Map.put 0 rf.s n (f l), bad := rf.bad.filter (fun x => x.1 != .s n) }
  | none => rf

/-- Write a 32-bit result (R42, R64). -/
def RegFile.write (rf : RegFile) (d : Dst) (q : LaneMask) (f : Nat → Word) : RegFile :=
  match d with
  | .v n => rf.putV n q f
  | .s n => rf.putS n q f
  | .zero => rf

/-- Write register `k` of a destination run. -/
def RegFile.writeRun (rf : RegFile) (d : Dst) (k : Nat) (q : LaneMask) (f : Nat → Word) : RegFile :=
  match d with
  | .v n => rf.putV (n + k) q f
  | .s n => rf.putS (n + k) q f
  | .zero => rf

/-- Write a 64-bit result into an even-odd pair (R65). -/
def RegFile.write64 (rf : RegFile) (d : Dst) (q : LaneMask) (f : Nat → Word64) : RegFile :=
  (rf.writeRun d 0 q (fun l => (f l).extractLsb' 0 32)).writeRun d 1 q (fun l => (f l).extractLsb' 32 32)

/-- Write a predicate in the lanes of a mask; a write to p7 is discarded (R40). -/
def RegFile.writePred (rf : RegFile) (n : Nat) (q : LaneMask) (f : Nat → Bool) : RegFile :=
  if n = 7 then rf
  else { rf with p := Map.put 0 rf.p n ((Map.get 0 rf.p n &&& ~~~q) ||| maskOf (fun l => q.getLsbD l && f l)) }

/-- Flags ORed into FPSTAT (R47). -/
def RegFile.orFlags (rf : RegFile) (fl : BitVec 6) : RegFile := { rf with fpstat := rf.fpstat ||| fl }

/-! ## The registers operands name -/

/-- A run of lane registers. -/
def vRun (r n : Nat) : List RegId := (List.range n).map (fun k => .v (r + k))

/-- A predicate; p7 is never written. -/
def predReg (n : Nat) : List RegId := if n = 7 then [] else [.p n]

/-! ## Issue of a register instruction -/

/-- What a register instruction sees: the registers, the clause literal, its path's lanes and the qualifying lanes. -/
structure RegIn where
  rf : RegFile
  lit : Word
  act : LaneMask
  q : LaneMask

/-- The trap enables among raised flags (R114): bit k of TRAP_EN enables bit k of FPSTAT, SATC has none. -/
def trapHit (en : BitVec 5) (fl : BitVec 6) : Bool := (fl.extractLsb' 0 5 &&& en) != 0

/-- The iteration vector of a unit in walk order, level 0 fastest. -/
def vectorOf (lv : List (Nat × Int × Int)) (k : Nat) : List Nat :=
  match lv with
  | [] => []
  | l :: t => (k % l.1) :: vectorOf t (k / l.1)

/-- Bytes of a row of a CPYX (R219). -/
def CopyOp.rowLen (c : CopyOp) : Nat :=
  match c.instr with
  | .cpyx _ _ _ _ _ r => 16 * 2 ^ r.val
  | _ => 16

/-- The iteration vector at which a copy stands (R218, R219): for a gather the lowest lane whose row is not complete. -/
def CopyOp.iter (c : CopyOp) : List Nat :=
  if c.rows.isEmpty then (match c.levels with | some lv => vectorOf lv c.upto | none => [0])
  else [(c.rows.getD (c.upto / (c.rowLen / 16)) (0, 0)).1]

/-- The indices of a step of a walk. -/
def Walk.vector (k : Walk) (step : Nat) : List Nat := match k.levels with | some lv => vectorOf lv step | none => [0]

/-- The report of uncorrectable data that a copy or a walk of the wave met (R178, R211, R218): its word, and after the wave's identifier
the iteration vector, for which the manual gives no place in a MACHINE_CHECK report (assumption log 82). -/
def State.checkOf (s : State) (w : Wave) : Option Report :=
  let report (word addr hdr : Word64) (v : List Nat) : Report :=
    { code := 0x23, origin := 0, reason := 0, word := word, addr := addr, hdr := hdr, ident := s.identOf w ++ v }
  match s.copies.find? (fun c => c.wave == w.uid && c.dead) with
  | some c => some (report c.word c.addr c.hdr c.iter)
  | none => (s.walks.find? (fun k => k.wave == w.uid && k.dead)).map (fun k => report k.word k.addr k.hdr (k.vector k.n))

/-- That MACHINE_CHECK is taken (R211, R218). -/
def State.takeCheck (s : State) (w : Wave) : State :=
  match s.checkOf w with
  | some r => (s.count (spokeOfCore w.core) 0x28).uncontained w r
  | none => s

/-- MACHINE_CHECK of a copy, taken when its wave next issues (R211, R218). -/
def State.checkTrap (s : State) (i : Issue) : State := s.takeCheck i.w

/-- One of these registers holds an uncorrectable error that the lanes of a mask would read (R391). -/
def RegFile.spoilt (rf : RegFile) (regs : List RegId) (q : LaneMask) : Bool :=
  rf.bad.any (fun x => regs.contains x.1 && (match x.1 with
    | .v _ => q.getLsbD x.2
    | .s _ => q != 0
    | .p _ | .fpstat | .seed => false))

/-- A word that would read such a register raises MACHINE_CHECK once the checkpoint has reached it (R374, R391), in a postilion with a
restart of all (R367). -/
def State.registerCheck (s : State) (i : Issue) : State :=
  if i.w.behind then s
  else if i.w.post.isSome then (s.count (spokeOfCore i.w.core) 0x28).restartPosts
  else (s.count (spokeOfCore i.w.core) 0x28).uncontained i.w (s.reportAt i 0x23 0)

/-- The issue of an instruction whose every effect is on registers (R58, R63, R114, R117, R372): held, or TOKEN, or the
arithmetic trap with the flags in FPSTAT and nothing else written, or the new registers with a pending mark on what it
writes and its flag bound when it is long-latency. `reads` are the registers it names as sources, `writes` as results. -/
def regIssue (g : Guard) (reads writes : List RegId) (long : Bool) (f : RegIn → RegFile × BitVec 6) (s : State) :
    Out State :=
  match s.issue? with
  | none => .fault .noPath
  | some i =>
    match s.gate i.w false (g.regs ++ reads ++ writes) with
    | .hold => .next s
    | .check => .next (s.checkTrap i)
    | .token => .next (s.userTrap i i.w 0x06)
    | .go =>
      let q := qualify i.w.rf g i.p.lanes
      if i.w.readMarked writes then .next s
      else if i.w.rf.spoilt reads q then .next (s.registerCheck i)
      else
      let r := f { rf := i.w.rf, lit := i.c.head.lit, act := i.p.lanes, q := q }
      if trapHit (s.descOf i.w).trapEn r.2 then
        if i.w.behind then .next s
        else .next (s.userTrap i { i.w with rf := i.w.rf.orFlags r.2 } 0x04)
      else
        let w1 := { i.w with
          rf := r.1.orFlags r.2
          marks := if writes.isEmpty && !long then i.w.marks else i.w.marks ++ [⟨s.fresh, writes⟩]
          beyond := if i.w.behind then i.w.beyond + 1 else i.w.beyond }
        let w2 := if long then w1.bind s.fresh i.flag else w1
        .next ({ s with fresh := s.fresh + 1 }.retire i w2)

/-- A per-lane result without flags. -/
def noFlags (rf : RegFile) : RegFile × BitVec 6 := (rf, 0)

/-- The flags of every qualifying lane ORed together (R117). -/
def orLanes (q : LaneMask) (f : Nat → BitVec 6) : BitVec 6 := (lanesOf q).foldl (fun a l => a ||| f l) 0

/-- One-source instruction: registers read, one result per lane with flags. -/
def op1 (g : Guard) (d : Dst) (a : Src) (long : Bool) (f : Word → Word × BitVec 6) (s : State) : Out State :=
  regIssue g a.regs d.regs long (fun x =>
    let v (l : Nat) := f (a.read x.rf x.lit l)
    (x.rf.write d x.q (fun l => (v l).1), orLanes x.q (fun l => (v l).2))) s

/-- Two-source instruction. -/
def op2 (g : Guard) (d : Dst) (a b : Src) (f : Word → Word → Word × BitVec 6) (s : State) : Out State :=
  regIssue g (a.regs ++ b.regs) d.regs false (fun x =>
    let v (l : Nat) := f (a.read x.rf x.lit l) (b.read x.rf x.lit l)
    (x.rf.write d x.q (fun l => (v l).1), orLanes x.q (fun l => (v l).2))) s

/-- Three-source instruction. -/
def op3 (g : Guard) (d : Dst) (a b c : Src) (f : Word → Word → Word → Word × BitVec 6) (s : State) : Out State :=
  regIssue g (a.regs ++ b.regs ++ c.regs) d.regs false (fun x =>
    let v (l : Nat) := f (a.read x.rf x.lit l) (b.read x.rf x.lit l) (c.read x.rf x.lit l)
    (x.rf.write d x.q (fun l => (v l).1), orLanes x.q (fun l => (v l).2))) s

/-- Two-source instruction over pairs. -/
def op2w (g : Guard) (d : Dst) (a b : Src) (wd : Widen) (f : Word64 → Word64 → Word64 × BitVec 6) (s : State) : Out State :=
  regIssue g (a.regsRun 2 ++ b.regsRun 2) (d.regsRun 2) false (fun x =>
    let v (l : Nat) := f (a.read64 x.rf x.lit wd l) (b.read64 x.rf x.lit wd l)
    (x.rf.write64 d x.q (fun l => (v l).1), orLanes x.q (fun l => (v l).2))) s

end Sys2Proof.Machine
end

