-- ==== Sys2Proof/Machine/Flags.lean ====
section
/-! DEFINITION. How results and predicates come from values: saturation with SATC (R96, R120), integer comparison (R122), the
combination of an outcome with a predicate (R122, R134). -/

namespace Sys2Proof.Machine

/-- The S32 reading of a word. -/
def s32 (x : Word) : Int := x.toInt

/-- The Z32 reading of a word. -/
def z32 (x : Word) : Int := x.toNat

/-- S32 or Z32. -/
def rd32 (z : Bool) (x : Word) : Int := if z then z32 x else s32 x

/-- An exact integer wrapped into a word. -/
def wrap32 (t : Int) : Word := BitVec.ofInt 32 t

/-- An exact integer saturated into S32 or Z32: the bound and SATC where it lies outside (R96, R120). -/
def sat32 (z : Bool) (t : Int) : Word × BitVec 6 :=
  let c := if z then Machine.clampInt 0 (2 ^ 32 - 1) t else Machine.clampInt (-(2 ^ 31)) (2 ^ 31 - 1) t
  (wrap32 c.1, if c.2 then 32 else 0)

/-- An integer comparison (R122). -/
def icmp (c : ICmp) (x y : Int) : Bool :=
  match c with
  | .eq => x == y
  | .ne => x != y
  | .lt => decide (x < y)
  | .le => decide (x ≤ y)
  | .gt => decide (y < x)
  | .ge => decide (y ≤ x)

/-- An outcome combined with a predicate (R122). -/
def combine (k : PCombine) (c q : Bool) : Bool :=
  match k with
  | .and => c && q
  | .or => c || q
  | .xor => c != q

end Sys2Proof.Machine
end

