-- ==== Sys2Proof/Machine/Translate.lean ====
section
/-! DEFINITION. The memory-side translators: homes of physical bytes (R12, R344), the Sv57 walk with its causes and their
order (R342 to R349), the two filter stages and the fault records (R352 to R354), and the faults an access can raise
(R343, R355). -/

namespace Sys2Proof.Machine

/-! ## Homes -/

/-- The first physical address of device memory (R344). -/
def devBase : Nat := 0x010000000000

/-- The physical range of one spoke (R344). -/
def spokeSpan : Nat := 0x001000000000

def State.spoke (s : State) (n : Nat) : Spoke := s.spokes.getD n .reset

def State.updSpoke (s : State) (n : Nat) (f : Spoke → Spoke) : State := { s with spokes := updAt s.spokes n f }

/-- The home spoke of a physical byte; none where it is not device memory (R344). -/
def State.homeOf (s : State) (pa : Nat) : Option Nat :=
  if devBase ≤ pa ∧ (pa - devBase) / spokeSpan < 8
      ∧ (pa - devBase) % spokeSpan < (s.spoke ((pa - devBase) / spokeSpan)).capacity then
    some ((pa - devBase) / spokeSpan)
  else none

/-- The site a virtual die is bound to (R48, R343). -/
def Ctx.site (c : Ctx) (vd : Nat) : Option Nat :=
  let b := c.bind.getD vd 0
  if b.getLsbD 7 then some (b.toNat % 8) else none

/-- The kinds of physical address (R411). -/
inductive PhysKind where
  | device | hostDie | pcie (w : Nat) | window | unused
  deriving DecidableEq, Repr

/-- The physical map (R411). -/
def State.physKind (s : State) (pa : Nat) : PhysKind :=
  if pa < 0x010000000000 then .hostDie
  else if (s.homeOf pa).isSome then .device
  else if 0x020000000000 ≤ pa ∧ pa < 0x021000000000 then .pcie (pa / 2 ^ 33 % 8)
  else if 0x021000000000 ≤ pa ∧ pa < 0x021004000000 then .window
  else .unused

/-- The base of the management window (R411). -/
def windowBase : Nat := 0x021000000000

/-! ## Accesses and rights -/

/-- The rights an access needs at its leaf (R345), where it comes from (R347) and its bit in FR_ACCESS (R353). -/
structure Want where
  r : Bool
  w : Bool
  x : Bool
  host : Bool
  shadow : Bool
  bit : Nat
  deriving DecidableEq, Repr

def Want.fetch : Want := { r := false, w := false, x := true, host := false, shadow := false, bit := 3 }
def Want.load (host : Bool) : Want := { r := true, w := false, x := false, host := host, shadow := false, bit := 0 }
def Want.store (host : Bool) : Want := { r := false, w := true, x := false, host := host, shadow := false, bit := 1 }
def Want.atomic (host : Bool) : Want := { r := true, w := true, x := false, host := host, shadow := false, bit := 2 }
def Want.copyRead : Want := { r := true, w := false, x := false, host := false, shadow := false, bit := 4 }
def Want.copyWrite (shw : Bool) : Want := { r := false, w := true, x := false, host := false, shadow := shw, bit := 4 }
def Want.loopRead : Want := { r := true, w := false, x := false, host := false, shadow := false, bit := 5 }
def Want.table : Want := { r := true, w := false, x := false, host := false, shadow := false, bit := 6 }
def Want.publish : Want := { r := true, w := true, x := false, host := false, shadow := false, bit := 7 }

/-! ## The walk -/

/-- The outcome of a translation. -/
inductive Tr where
  | ok (m : Mapped)
  /-- TRANSLATION with its cause, level and entry (R349). -/
  | bad (cause level pte : Nat)
  /-- DIE_BINDING sub-cause 0x1 (R343). -/
  | unbound
  /-- Refused until a page-table write completes (R245, R350). -/
  | refused
  deriving DecidableEq, Repr

/-- Bit `k` of an entry. -/
def pteBit (e k : Nat) : Bool := e / 2 ^ k % 2 == 1

/-- A field of an entry. -/
def pteField (e lo n : Nat) : Nat := e / 2 ^ lo % 2 ^ n

/-- Bits that must hold in an entry that is not a leaf (R345). -/
def State.nonLeafOk (s : State) (e : Nat) : Bool :=
  pteField e 54 10 == 0 && !pteBit e 7 && !pteBit e 6 && !pteBit e 4 && (s.homeOf (pteField e 10 44 * 4096)).isSome

/-- The size of the page a leaf maps, or none where it is malformed (R345, R346). -/
def leafSize (e level vpn2 : Nat) : Option Nat :=
  let n := pteBit e 63
  let sp := pteField e 58 3
  let ppn := pteField e 10 44
  if pteField e 61 2 = 3 || (pteBit e 2 && !pteBit e 1) then none
  else match level with
    | 0 => if sp != 0 then none else if !n then some 0x1000 else if ppn % 16 = 8 then some 0x10000 else none
    | 1 => if sp == 0 && !n && ppn % 512 == 0 then some 0x200000 else none
    | 2 =>
      if ppn % 2 ^ 18 != 0 then none
      else if sp == 0 && !n then some 0x40000000
      else if sp == 1 && n && ppn / 2 ^ 18 % 16 == vpn2 % 16 then some 0x400000000
      else none
    | _ => none

/-- A leaf that names an unused address, or an IO leaf that names device memory, is malformed (R411). -/
def State.leafNames (s : State) (e pa : Nat) : Bool :=
  match s.physKind pa with
  | .unused => false
  | .device => pteField e 61 2 != 2
  | .hostDie | .pcie _ | .window => true

/-- The checks at a leaf, in the order of R349, after V and the form of the entry. -/
def State.leafCheck (s : State) (want : Want) (site : Nat) (e pa : Nat) : Option Nat :=
  let pbmt := pteField e 61 2
  if !s.leafNames e pa then some 0x07
  else if pbmt = 2 && !want.host then some 0x08
  else if pbmt = 0 && s.homeOf pa != some site then some 0x06
  else if pbmt = 1 && (s.homeOf pa).isNone then some 0x06
  else if pteBit e 54 && !want.shadow then some 0x03
  else if !pteBit e 4 || (want.r && !pteBit e 1) || (want.w && !pteBit e 2) || (want.x && !pteBit e 3)
      || s.physKind pa == .window then some 0x02
  else if !pteBit e 6 || (want.w && !pteBit e 7) then some 0x04
  else none

/-- Among the 16 leaves of a 16 GiB span the translator may use any (R346): the entry `k` places on, where it is a well-formed
member too, with PPN[21:18] from the address: its address, its value so, and its value as it stands. -/
def State.spanLeaf (s : State) (table vpn2 k e : Nat) : Nat × Nat × Nat :=
  let own := table + 8 * vpn2
  let n := vpn2 / 16 * 16 + (vpn2 + k) % 16
  let alt := table + 8 * n
  let x := s.numAt alt 8
  if n != vpn2 && pteBit e 0 && pteBit e 63 && pteField e 58 3 == 1 && pteBit x 0 && leafSize x 2 n == some 0x400000000 then
    (alt, x / 2 ^ 32 * 2 ^ 32 + vpn2 % 16 * 2 ^ 28 + x % 2 ^ 28, x)
  else (own, e, e)

/-- The walk from a table of some level down (R345 to R349). An entry whose write has not completed is read by no translation (R246,
R350). -/
def State.walkFrom (s : State) (want : Want) (site va k : Nat) : Nat → Nat → List Nat → Tr
  | level, table, ptes =>
    let idx := va / 2 ^ (12 + 9 * level) % 512
    let own := s.numAt (table + 8 * idx) 8
    let at_ := if level = 2 then s.spanLeaf table idx k own else (table + 8 * idx, own, own)
    let e := at_.2.1
    let read := at_.2.2
    let seen := ptes ++ [at_.1]
    if s.ptPend.any (fun p => p.pte == at_.1) then .refused
    else if !pteBit e 0 then .bad 0x01 level read
    else if pteBit e 1 || pteBit e 2 || pteBit e 3 then
      match leafSize e level (va / 2 ^ 30 % 512) with
      | none => .bad 0x07 level read
      | some size =>
        let unit := if size = 0x400000000 then 0x40000000 else size
        let pa := pteField e 10 44 * 4096 / unit * unit + va % unit
        match s.leafCheck want site e pa with
        | some cause => .bad cause level read
        | none => .ok { pa := pa, pbmt := pteField e 61 2, lease := pteField e 56 2, atom := pteBit e 55,
                        va := va / size * size, size := size, ptes := seen }
    else if !s.nonLeafOk e then .bad 0x07 level e
    else match level with
      | 0 => .bad 0x07 0 e
      | l + 1 => s.walkFrom want site va k l (pteField e 10 44 * 4096) seen

/-- Translation of a virtual address for a context (R342, R343, R349, R350). -/
def State.translate (s : State) (c : Ctx) (want : Want) (va : Nat) : Tr :=
  match c.site (va / 2 ^ 53 % 8) with
  | none => .unbound
  | some site =>
    if va / 2 ^ 56 ≠ 0 then .bad 0x05 0 0
    else if s.ptPend.any (fun p => p.ranges.any (fun r => r.1 == c.id && r.2.1 ≤ va && va < r.2.1 + r.2.2)) then .refused
    else s.walkFrom want site va (s.choices.headD 0) 4 c.root []

/-- A context descriptor as it stands in the table (R340). -/
def State.readCtx (s : State) (id : Nat) : Ctx :=
  let a := s.hub.ctxBase + 64 * id
  { id := id, root := s.numAt (a + 8) 8 % 2 ^ 44 * 4096
    bind := (List.range 8).map (fun n => s.byteAt (a + 0x10 + n))
    region := s.numAt (a + 4) 2, faultRing := s.numAt a 4 / 2 % 4 }

/-- TRANSLATION OF A WAVE'S ADDRESS: through its context; a postilion's through POST_CTX, or physical when that is 0xFFFF,
where only an unused address fails (R365, R367). -/
def State.xlate (s : State) (w : Wave) (want : Want) (va : Nat) : Tr :=
  match w.post with
  | none => match s.ctx? w.ctx with
    | some c => s.translate c want va
    | none => .unbound
  | some site =>
    let id := (s.posts.getD site (.reset site)).ctx
    if id = 0xFFFF || want.x then
      if s.physKind va == .unused then .bad 0x07 0 0
      else .ok { pa := va, pbmt := if s.physKind va == .device then 0 else 2, lease := 3, atom := true, va := va / 4096 * 4096,
                 size := 4096, ptes := [] }
    else s.translate ((s.ctx? id).getD (s.readCtx id)) want va

/-- The lease of PTE bits [57:56] in ticks (R195). -/
def leaseTicks (f : Nat) : Nat :=
  match f with
  | 0 => 400
  | 1 => 100
  | 2 => 1600
  | _ => 0

/-- A translation has been returned to a spoke: the translator keeps the entry and its sharer (R348). The hub, where no line is held, is
no sharer. -/
def State.noteTlb (s : State) (c : Ctx) (m : Mapped) (spoke : Nat) : State :=
  let home := (c.site (m.va / 2 ^ 53 % 8)).getD 0
  let key (t : TlbEntry) : Bool := t.spoke == home && t.ctx == c.id && t.va == m.va && t.ptes == m.ptes
  if s.tlb.any key then
    { s with tlb := s.tlb.map (fun t =>
        if key t && !t.dies.contains spoke && spoke < 8 then { t with dies := t.dies ++ [spoke] } else t) }
  else
    { s with tlb := s.tlb ++ [{
        spoke := home, ctx := c.id, va := m.va, pa := m.pa / m.size * m.size, size := m.size, ptes := m.ptes
        dies := if spoke < 8 then [spoke] else [] }] }

/-- A wave has been given some translations (R348); those of a postilion that names physical addresses come from no translator. -/
def State.noteMaps (s : State) (w : Wave) (ms : List Mapped) : State :=
  let c := match w.post with
    | none => s.ctx? w.ctx
    | some site =>
      let id := (s.posts.getD site (.reset site)).ctx
      if id = 0xFFFF then none else some ((s.ctx? id).getD (s.readCtx id))
  match c with
  | some c => (ms.filter (fun m => !m.ptes.isEmpty)).foldl (fun t m => t.noteTlb c m (spokeOfCore w.core)) s
  | none => s

/-- An address is translated for a wave and the translation kept where there is one. -/
def State.noteVa (s : State) (w : Wave) (want : Want) (va : Nat) : State :=
  match s.xlate w want va with
  | .ok m => s.noteMaps w [m]
  | .bad _ _ _ | .unbound | .refused => s

/-! ## Filters and records -/

/-- Some waiters leave their entries; an entry without waiters is free (R352), and the cores that hold one are those of the waiters that
stay. -/
def State.leave (s : State) (gone : Nat × Nat → Bool) : State :=
  let core (x : Nat × Nat) : Option Nat := (s.wave? x.1).map (fun w => w.core)
  let stay (f : Filter) : Filter :=
    let ws := f.waiters.filter (fun x => !gone x)
    { f with
      waiters := ws, todo := f.todo.filter (fun x => !gone x)
      cores := if ws == f.waiters || ws.any (fun x => (core x).isNone) then f.cores else (ws.filterMap core).eraseDups }
  { s with filters := (s.filters.map stay).filter (fun f => !f.waiters.isEmpty) }

/-- A retry has succeeded: the operation leaves its filter entries (R352). -/
def State.unwait (s : State) (wave op : Nat) : State := s.leave (fun x => x == (wave, op))

/-- The next fault id: 1 to 0xFFFF_FFFF, then 1 again (R353). -/
def nextId (n : Nat) : Nat := if n = 0xFFFFFFFF then 1 else n + 1

/-- Entries in use by a core, and by a cluster (R352). -/
def State.coreEntries (s : State) (core : Nat) : Nat := (s.filters.filter (fun f => !f.replayed && f.cores.contains core)).length
def State.clusterEntries (s : State) (cl : Nat) : Nat := (s.filters.filter (fun f => !f.replayed && f.cluster == cl)).length

/-- A TRANSLATION fault of an operation of a wave (R352, R354): a page with an open entry takes one more waiter, where its core has an
entry for it or one free; otherwise an entry opens where both stages have one free. The first of the waiters of a released entry whose
retry fails opens it again with all of them, under a new id with REPEAT; the others make their own retry, and where one of them fails on
another page its entry has REPEAT too. A core that has no entry free for it gets one when a waiter of its own fails again (R352). A copy or
walk (`iter`) always has an entry of its own. -/
def State.openFault (s : State) (w : Wave) (op va : Nat) (want : Want) (cause level pte : Nat) (iter : Option (List Nat)) :
    State :=
  let page := va / 4096 * 4096
  let cl := clusterOfCore w.core
  let me := (w.uid, op)
  let bit := 2 ^ want.bit
  let retry (f : Filter) : Bool := (f.replayed && f.waiters.contains me) || f.todo.contains me
  let joins (f : Filter) : Bool := !f.replayed && f.iter.isNone && iter.isNone && f.ctx == w.ctx && f.page == page && f.cluster == cl
  let full := 16 ≤ s.coreEntries w.core
  match s.filters.find? joins with
  | some f =>
    if !f.cores.contains w.core && full then s
    else
      let t := if f.waiters.contains me then s else s.unwait w.uid op
      { t with filters := t.filters.map (fun f => if joins f then
          { f with
            waiters := if f.waiters.contains me then f.waiters else f.waiters ++ [me]
            todo := f.todo.filter (fun x => x != me)
            cores := if f.cores.contains w.core then f.cores else f.cores ++ [w.core]
            access := f.access ||| bit
            kinds := Map.ins f.kinds w.core (Map.get 0 f.kinds w.core ||| bit) }
        else f) }
  | none =>
    if full || 32 ≤ s.clusterEntries cl then s
    else
      let old := s.filters.find? retry
      let new : Filter :=
        { id := s.nextFault, ctx := w.ctx, page := page, cluster := cl, cores := [w.core], waiters := [me]
          access := bit, kinds := [(w.core, bit)], cause := cause, level := level, pte := pte, iter := iter, rep := old.isSome, written := false, replayed := false, todo := [] }
      match old with
      | some f =>
        if f.replayed && f.page = page && f.cluster = cl then
          { s with
            filters := s.filters.map (fun g => if g.id == f.id && g.replayed then
                { new with
                  cores := w.core :: f.cores.filter (fun c => c != w.core && decide (s.coreEntries c < 16))
                  kinds := Map.ins f.kinds w.core (Map.get 0 f.kinds w.core ||| bit)
                  waiters := f.waiters, access := f.access ||| bit, todo := f.waiters.filter (fun x => x != me) }
              else g)
            nextFault := nextId s.nextFault }
        else
          let t := s.unwait w.uid op
          { t with filters := t.filters ++ [new], nextFault := nextId s.nextFault }
      | none => { s with filters := s.filters ++ [new], nextFault := nextId s.nextFault }

/-- The waiters that an entry counts: one for each wave, and a copy's own (R352). -/
def Filter.count (f : Filter) : Nat := ((f.waiters.map (fun x => x.1)).eraseDups).length

/-- The core of the first waiter (R353). -/
def State.firstCore (s : State) (f : Filter) : Nat :=
  match (f.waiters.head?).bind (fun x => s.wave? x.1) with
  | some w => w.core
  | none => f.cores.headD 0

/-- The 64 bytes of a fault record (R353); `core` is that of the first waiter. -/
def Filter.record (f : Filter) (core : Nat) : List Byte :=
  let info := 2 ^ 31 + (if f.rep then 2 ^ 30 else 0) + (if f.iter.isSome then 2 ^ 29 else 0) + f.cause % 256 * 2 ^ 16
    + f.level % 8 * 2 ^ 13
  let it := f.iter.getD []
  toBytes 4 info ++ toBytes 4 f.id ++ toBytes 8 f.page ++ toBytes 2 f.ctx ++ toBytes 2 (min f.count 0xFFFF)
    ++ toBytes 1 f.access ++ toBytes 1 core ++ toBytes 2 0 ++ toBytes 8 f.pte
    ++ (List.range 5).foldr (fun k t => toBytes 4 (it.getD k 0) ++ t) [] ++ toBytes 12 0

/-- A fault report at a given instruction word of a wave. -/
def State.reportOf (s : State) (w : Wave) (code reason : Nat) (word addr hdr : Word64) : Report :=
  { code := code, origin := 0, reason := reason, word := word, addr := addr, hdr := hdr, ident := s.identOf w }

end Sys2Proof.Machine
end

