-- ==== Sys2Proof/Machine/Order.lean ====
section
/-! DEFINITION. The caches between a lane and memory, and when an access is performed at which point (R187 to R198, R229 to
R243): leased copies, writes on their way from an L1 to their home, reads at a scope, releases, acquires and the rollback of
a wave whose leased value was contradicted. -/

namespace Sys2Proof.Machine

/-! ## The instructions -/

/-- The six spaces (R182). -/
inductive Space where
  | frame | scratch | cluster | device | sampler | host
  deriving DecidableEq, Repr

/-- A memory instruction as the access machinery sees it. -/
structure MemOp where
  space : Space
  at_ : Attr
  len : Nat
  deriving DecidableEq, Repr

/-- Is the space reached through translation? (R182) -/
def Space.mapped : Space → Bool
  | .frame | .device | .sampler | .host => true
  | .scratch | .cluster => false

end Sys2Proof.Machine

namespace Sys2Proof
open Machine

/-- Bytes of an atomic (R212). -/
def Attr.atomLen (a : Attr) : Nat := if a.bit2 then 8 else 4

/-- The space, attributes and size of a load, store, atomic or reduction. -/
def Instr.memOp : Instr → Option MemOp
  | .ldf _ _ _ _ t sz => some ⟨.frame, t, sz.bytes⟩
  | .stf _ _ _ _ t sz => some ⟨.frame, t, sz.bytes⟩
  | .lds _ _ _ _ t sz => some ⟨.scratch, t, sz.bytes⟩
  | .sts _ _ _ _ t sz => some ⟨.scratch, t, sz.bytes⟩
  | .ats _ _ _ _ _ t _ => some ⟨.scratch, t, t.atomLen⟩
  | .ldc _ _ _ _ t sz => some ⟨.cluster, t, sz.bytes⟩
  | .stc _ _ _ _ t sz => some ⟨.cluster, t, sz.bytes⟩
  | .atc _ _ _ _ _ t _ => some ⟨.cluster, t, t.atomLen⟩
  | .ldg _ _ _ _ t sz => some ⟨.device, t, sz.bytes⟩
  | .stg _ _ _ _ t sz => some ⟨.device, t, sz.bytes⟩
  | .atg _ _ _ _ _ t _ => some ⟨.device, t, t.atomLen⟩
  | .redg _ _ _ t _ => some ⟨.device, t, t.atomLen⟩
  | .ldt _ _ _ _ t sz => some ⟨.sampler, t, sz.bytes⟩
  | .ldh _ _ _ _ t sz => some ⟨.host, t, sz.bytes⟩
  | .sth _ _ _ _ t sz => some ⟨.host, t, sz.bytes⟩
  | .ath _ _ _ _ _ t _ => some ⟨.host, t, t.atomLen⟩
  | .redh _ _ _ t _ => some ⟨.host, t, t.atomLen⟩
  | .spanRelSt .. => some ⟨.device, { scope := .dev, order := .rlx, bit2 := false, hint := .norm }, 128⟩
  | _ => none

/-- The read-modify-write an instruction performs. -/
def Instr.atomic : Instr → Option AtomOp
  | .ats _ _ _ _ _ _ o | .atc _ _ _ _ _ _ o | .atg _ _ _ _ _ _ o | .ath _ _ _ _ _ _ o | .redg _ _ _ _ o
  | .redh _ _ _ _ o => some o
  | _ => none

/-- A load extends what it reads (R206). -/
def LoadSize.extend (sz : LoadSize) (x : Nat) : Word :=
  match sz with
  | .s8 => (BitVec.ofNat 8 x).signExtend 32
  | .s16 => (BitVec.ofNat 16 x).signExtend 32
  | .z8 | .z16 | .b32 | .b64 | .b128 => BitVec.ofNat 32 x

/-- Registers of a load's run (R204). -/
def LoadSize.regs (sz : LoadSize) : Nat := (sz.bytes + 3) / 4

def StoreSize.regs (sz : StoreSize) : Nat := (sz.bytes + 3) / 4

end Sys2Proof

namespace Sys2Proof.Machine

/-- Acquire and release parts of an order (R202). -/
def orderAcq (o : Order) : Bool := o == .acq || o == .ar
def orderRel (o : Order) : Bool := o == .rel || o == .ar

/-- Those of an access: a frame access ignores its order (R185, R203). -/
def MemOp.acq (m : MemOp) : Bool := m.space != .frame && orderAcq m.at_.order
def MemOp.rel (m : MemOp) : Bool := m.space != .frame && orderRel m.at_.order

/-! ## Where a wave reaches the caches -/

/-- Is the cluster of this core fused? (R190) -/
def State.fusedAt (s : State) (core : Nat) : Bool := core < 256 && (s.cluster (clusterOfCore core)).fused.isSome

/-- The L1 that holds an address for a core (R190): in a fused cluster the slice of address bits [9:8]. -/
def State.l1Of (s : State) (core va : Nat) : Nat := if s.fusedAt core then core / 4 * 4 + va / 256 % 4 else core

/-- Can the core see what an L1 holds? In a fused cluster the four slices are one. -/
def State.seesL1 (s : State) (core l1 : Nat) : Bool :=
  if s.fusedAt core then l1 < 256 && l1 / 4 == core / 4 else l1 == core

/-- The die of a core has an L2: the hub has none (R9). -/
def hasL2 (core : Nat) : Bool := core != 264

/-- The coherence point of a scope (R191): 1 the L1, 2 the die L2, 3 the home, which is the hub postilion's where a die has its L2. -/
def State.stageOf (s : State) (core : Nat) : Scope → Nat
  | .wave | .wg => 1
  | .clu => if s.fusedAt core then 1 else if hasL2 core then 2 else 3
  | .die => if hasL2 core then 2 else 3
  | .dev | .sys => 3

/-- A place is an L1 that the core sees or the L2 of its spoke. -/
def State.sidePlace (s : State) (core : Nat) : Place → Bool
  | .l1 c => s.seesL1 core c
  | .l2 sp => sp == spokeOfCore core
  | .table _ => false

/-- A frame store that every thread may see from now on stands in its L1 like any write, the newest one (R185). -/
def State.reveal (s : State) (x : Write) : State :=
  { s with writes := s.writes.filter (fun y => y != x) ++ [{ x with frame := false }] }.updateLines
    (fun p => p == Place.l1 x.l1) x.pa x.data

/-- A wave, or one lane of it, sees a frame store that is hidden still (R185): its own, or one of a wave that has released it at a scope
in which it lies. -/
def State.seesFrame (s : State) (w : Wave) (lane : Option Nat) (x : Write) : Bool :=
  x.frame && ((x.wave == w.uid && lane.all (fun l => l == x.lane)) || (match s.wave? x.wave with
    | some o =>
      (1 ≤ x.shown && o.uid == w.uid) || (2 ≤ x.shown && o.wg == w.wg) || (3 ≤ x.shown && clusterOfCore o.core == clusterOfCore w.core)
        || (4 ≤ x.shown && o.ctx == w.ctx && o.vdie == w.vdie)
    | none => false))

/-- What is left of a write where some bytes are written over. -/
def Write.without (x : Write) (pa len : Nat) : List Write :=
  if overlap x.pa x.data.length pa len then
    (if x.pa < pa then [{ x with data := x.data.take (pa - x.pa) }] else [])
      ++ (if pa + len < x.pa + x.data.length then
          [{ x with pa := pa + len, va := x.va + (pa + len - x.pa), data := x.data.drop (pa + len - x.pa) }] else [])
  else [x]

/-- A WRITE OVER FRAME STORES that the thread sees and no other has seen comes after them: of those bytes nothing is left (R185, R232). -/
def State.overFrames (s : State) (w : Wave) (lane : Option Nat) (pa len : Nat) : State :=
  { s with writes := s.writes.flatMap (fun x => if s.seesFrame w lane x then x.without pa len else [x]) }

/-- The next stage of a write: from the L1 to the L2 of its die, or home. It keeps its place behind earlier writes of the same bytes
(R232). -/
def State.advanceWrite (s : State) (x : Write) : State :=
  let ahead := (s.writes.takeWhile (fun y => y != x)).any (fun y =>
    !y.frame && y.stage == x.stage && overlap y.pa y.data.length x.pa x.data.length
      && (if x.stage = 1 then y.l1 == x.l1 else y.spoke == x.spoke))
  if ahead then s
  else if x.stage = 1 && x.spoke < 8 then
    let r := s.writeBack x
    { r.1 with writes := r.1.writes.filter (fun y => y != x) ++ [{ x with stage := 2, data := r.2 }] }.updateLines
      (fun p => p == Place.l2 x.spoke) x.pa r.2
  else s.land x

/-! ## Page classes and leases (R193 to R195) -/

/-- A miss, or a store that it stands for, reaches the home of a page (R193): its class, and whether a granted copy is leased. -/
def State.classify (s : State) (core ctx va pa : Nat) : State × Bool :=
  let page := pa / 4096
  match Map.find s.classes page with
  | none => ({ s with classes := Map.ins s.classes page (.owned core ctx (va / 4096)) }, false)
  | some (.owned c x v) =>
    if c == core && x == ctx && v == va / 4096 then (s, false)
    else
      let s1 := s.recallPage page
      ({ s1 with classes := Map.ins s1.classes page .shared }, true)
  | some .shared => (s, true)

/-- Scratchpad units of 32 KiB that a core's workgroups take (R13). -/
def State.padUnits (s : State) (core : Nat) : Nat :=
  (s.wgs.filter (fun g => g.core == core)).foldl (fun n g =>
    n + ((s.gang? g.gang).bind (fun x => s.batch? x.batch)).elim 0 (fun b => b.desc.scratch)) 0

/-- Lines of 256 bytes that a cache holds (R10, R13, R20, R187): an L1 the 384 KiB of its core that are not scratchpad, a table cache
32 KiB, an L2 at most 32 MiB of data in 16 MiB, with two tags to a slot (R188). Which lines it can compress, and the sets of each cache,
the manual leaves to the device: the model lets the oldest line go when a cache is full (assumption log 85). -/
def State.linesOf (s : State) : Place → Nat
  | .l1 core => (12 - s.padUnits core) * 128
  | .table _ => 128
  | .l2 _ => 131072

/-- A cache lets its oldest lines go down to its size, but for the line `keep`. What was written to them is in flight already. -/
def State.trim (s : State) (p : Place) (keep : Nat × Nat) : State :=
  let tags := ((s.lines.filter (fun l => l.place == p)).map (fun l => (l.ctx, l.va / 256))).eraseDups
  let out := (tags.filter (fun t => t != keep)).take (tags.length - s.linesOf p)
  if out.isEmpty then s else { s with lines := s.lines.filter (fun l => !(l.place == p && out.contains (l.ctx, l.va / 256))) }

/-- A copy stands in a cache, replacing what the cache held of that sector; the hub has no L2 to hold one (R9). -/
def State.fill (s : State) (l : Line) : State :=
  let key (x : Line) : Bool := x.place == l.place && x.ctx == l.ctx && x.va == l.va
  if (match l.place with | .l2 spoke => decide (8 ≤ spoke) | .l1 _ | .table _ => false) then s
  else if s.lines.any key then { s with lines := s.lines.map (fun x => if key x then l else x) }
  else { s with lines := s.lines ++ [l] }.trim l.place (l.ctx, l.va / 256)

/-- At most two virtual addresses of a physical line are cached in the device: a third recalls the older, with every write to the line
that is in flight (R194, R232). -/
def State.thirdName (s : State) (ctx va pa : Nat) : State :=
  let names := ((s.lines.filter (fun l => l.pa / 256 == pa / 256)).map (fun l => (l.ctx, l.va / 256))).eraseDups
  if names.contains (ctx, va / 256) then s
  else match names with
    | old :: _ :: _ =>
      let s1 := s.landAll (fun x => x.pa / 256 == pa / 256 && !x.frame)
      { s1 with lines := s1.lines.filter (fun l => !(l.pa / 256 == pa / 256 && (l.ctx, l.va / 256) == old)) }
    | _ => s

/-- A REQUEST OF A CORE for a cached page reaches the home (R193, R194): a third name is recalled, and the page classified. -/
def State.request (s : State) (core ctx va pa : Nat) : State × Bool := (s.thirdName ctx va pa).classify core ctx va pa

/-- A request for device memory at its home (R193, R347): one under a leaf that lets nothing be cached is classified as any other, and
stands for no cached copy. -/
def State.atHomeAs (s : State) (core ctx va : Nat) (m : Mapped) : State :=
  if m.pbmt = 0 then (s.request core ctx va m.pa).1
  else if (s.homeOf m.pa).isSome then (s.classify core ctx va m.pa).1
  else s

/-! ## Reads -/

/-- A copy may be hit by the wave (R196, R197, R241): its lease is live and its grant not before the freshness floors. -/
def State.usable (s : State) (w : Wave) (l : Line) : Bool :=
  (match l.expiry with | none => true | some e => s.tick < e)
    && w.floor ≤ l.born
    && (match l.place with | .l1 _ => w.floorL1 ≤ l.born | .l2 _ | .table _ => true)

/-- The copy of a sector at a place. -/
def State.lineAt (s : State) (p : Place) (ctx va : Nat) : Option Line :=
  s.lines.find? (fun l => l.place == p && l.ctx == ctx && l.va == va / 64 * 64)

/-- Writes in flight laid over bytes. -/
def State.overlay (s : State) (sel : Write → Bool) (pa : Nat) (bs : List Byte) : List Byte :=
  s.writes.foldl (fun b x => if sel x then patch pa b x.pa x.data else b) bs

/-- The writes that stand in the L1 of a wave's core, and those of its die's L2, but for frame stores that are hidden still (R185). -/
def State.inL1 (l1 : Nat) (x : Write) : Bool := x.stage == 1 && x.l1 == l1 && !x.frame
def State.inL2 (core : Nat) (x : Write) : Bool := x.stage == 2 && x.spoke == spokeOfCore core

/-- A sector read at its home and granted to the caches of the wave (R195), to its L1 too where `near`: the sector's bytes as
the nearest of them sees them. A page that may not be cached (`cache` false) leaves no copy (R347). -/
def State.fetchSector (s : State) (w : Wave) (m : Mapped) (cache near : Bool) (sec : Nat) : State × List Byte :=
  let va := m.va + (sec - m.pa / m.size * m.size)
  if !cache then
    let s1 := s.atHomeAs w.core w.ctx va { m with pa := sec }
    (s1, s1.bytesAt sec 64)
  else
    let r := s.request w.core w.ctx va sec
    let s1 := r.1
    let l1 := s1.l1Of w.core va
    let b2 := s1.overlay (State.inL2 w.core) sec (s1.bytesAt sec 64)
    let b1 := s1.overlay (State.inL1 l1) sec b2
    let line (p : Place) (b : List Byte) : Line :=
      { place := p, ctx := w.ctx, va := va, pa := sec, data := b, born := s1.fresh, grant := s1.tick,
        expiry := if r.2 then some (s1.tick + leaseTicks m.lease) else none, version := s1.version sec,
        bad := s1.bad.contains (sec / 64) }
    let s2 := s1.fill (line (.l2 (spokeOfCore w.core)) b2)
    ({ (if near then s2.fill (line (.l1 l1) b1) else s2) with fresh := s1.fresh + 1 }, if near then b1 else b2)

/-- A copy of a page that is private to another core: a miss for this one (R193). -/
def State.othersPrivate (s : State) (core : Nat) (l : Line) : Bool :=
  l.expiry.isNone && (match Map.find s.classes (l.pa / 4096) with
    | some (.owned c _ _) => c != core
    | some .shared | none => false)

/-- Where a load finds its bytes: in its L1, in a copy there whose lease has run out, in the L2, or in neither. -/
inductive Hit where
  | l1 (l : Line)
  | late (l : Line)
  | l2 (l : Line)
  | none
  deriving DecidableEq, Repr

/-- The copy that a load at the point `stage` hits (R191, R195 to R198, R241); see `State.loadBytes`. -/
def State.hitOf (s : State) (w : Wave) (m : Mapped) (va stage : Nat) (fresh : Bool) (k : Nat) : Hit :=
  let cache := m.pbmt == 0
  let viaL2 : Hit :=
    match s.lineAt (.l2 (spokeOfCore w.core)) w.ctx va with
    | some l => if s.usable w l && k / 2 % 2 == 0 && cache && !s.othersPrivate w.core l then .l2 l else .none
    | none => .none
  if stage = 3 && fresh then .none
  else if stage = 2 && fresh then viaL2
  else
    match s.lineAt (.l1 (s.l1Of w.core va)) w.ctx va with
    | some l =>
      if cache && s.usable w l && k % 2 == 0 then .l1 l
      else if cache && !fresh && l.expiry.any (fun e => e ≤ s.tick) && w.floor ≤ l.born && w.floorL1 ≤ l.born && k / 4 % 2 == 1
          && w.unconf.length < 4 then .late l
      else viaL2
    | none => viaL2

/-- THE VALUE A LOAD OF A LANE RETURNS of one piece inside a sector (R191, R195 to R198, R241), performed at its scope. `k` is the
latitude taken: 1 no copy in the L1, 2 none in the L2, 4 consume with a renewal in flight a copy whose lease has run out; one that an
acquire has made count as expired is never consumed, and a fresh load consumes none. `fresh` bypasses every cache nearer than the point
`stage`; copies that a load of a page that is not cached passes by are refreshed (R232). -/
def State.loadBytes (s : State) (w : Wave) (lane : Nat) (m : Mapped) (va pa len stage : Nat) (fresh : Bool) (k : Nat) :
    State × Wave × List Byte :=
  let sec := pa / 64 * 64
  let cache := m.pbmt == 0
  let cut (b : List Byte) : List Byte := ((s.overlay (s.seesFrame w (some lane)) sec b).drop (pa - sec)).take len
  let m' : Mapped := { m with va := va / 64 * 64, pa := sec, size := 64 }
  match s.hitOf w m va stage fresh k with
  | .none =>
    let r := s.fetchSector w m' cache true sec
    (if cache then r.1 else r.1.updateLines (r.1.sidePlace w.core) pa ((r.2.drop (pa - sec)).take len), w, cut r.2)
  | .l2 l =>
    let l1 := s.l1Of w.core va
    let b := s.overlay (State.inL1 l1) sec l.data
    (s.fill { l with place := .l1 l1, data := b }, w, cut b)
  | .l1 l => (s, w, cut l.data)
  | .late l =>
    let u : Unconfirmed := { va := va / 64 * 64, pa := sec, version := l.version, lease := leaseTicks m.lease,
                             expired := l.expiry.getD s.tick, sent := s.tick }
    (s, { w with unconf := w.unconf ++ [u] }, cut l.data)

/-- What the sampler path reads of a sector at the coherence point of a scope (R189, R210): at the home, in the die's L2, past what
stands in an L1, or in the L1. -/
def State.tableBytes (s : State) (w : Wave) (m : Mapped) (va pa stage : Nat) : State × List Byte :=
  let atHome : State × List Byte :=
    let t := s.atHomeAs w.core w.ctx va { m with pa := pa }
    (t, t.bytesAt pa 64)
  if stage = 3 || m.pbmt != 0 then atHome
  else if stage = 2 then
    match s.lineAt (.l2 (spokeOfCore w.core)) w.ctx va with
    | some l =>
      if s.usable w l && !s.othersPrivate w.core l then (s, l.data)
      else s.fetchSector w { m with va := va, pa := pa, size := 64 } true false pa
    | none => s.fetchSector w { m with va := va, pa := pa, size := 64 } true false pa
  else
    let r := s.loadBytes w 32 m va pa 64 stage true 0
    (r.1, r.2.2)

/-- Writes that the core could have read and that are not yet at a coherence point (R232, R237). -/
def State.notAt (s : State) (w : Wave) (stage : Nat) (x : Write) : Bool :=
  !x.frame && x.stage < stage && (x.wave == w.uid || (x.stage == 1 && s.seesL1 w.core x.l1)
    || (x.stage == 2 && x.spoke == spokeOfCore w.core))

/-- Bytes may be read at a coherence point by a wave that could have seen later values nearer to it (R232). -/
def State.mayReadAt (s : State) (w : Wave) (stage pa len : Nat) : Bool :=
  !s.writes.any (fun x => s.notAt w stage x && overlap x.pa x.data.length pa len)

/-! ## Writes -/

/-- A postilion that writes its heartbeat word is heard (R392; assumption log 102). -/
def State.heartbeat (s : State) (w : Wave) (pa len : Nat) : State :=
  match w.post with
  | none => s
  | some k =>
    if overlap pa len (Config.beatWord k) 4 then { s with posts := updAt s.posts k (fun p => { p with beat := s.tick }) } else s

/-- A STORE OF A LANE PERFORMED at the wave's L1, or at the home of a page that is not cached (R191, R193, R209, R347); copies of the same
bytes that it passes on its way are updated (R232). -/
def State.storeBytes (s : State) (w : Wave) (op lane : Nat) (m : Mapped) (va pa need : Nat) (frame : Bool) (data : List Byte) :
    State :=
  let s0 := (s.heartbeat w pa data.length).overFrames w (some lane) pa data.length
  if m.pbmt ≠ 0 then
    let s1 := s0.atHomeAs w.core w.ctx va { m with pa := pa }
    (s1.updateLines (s1.sidePlace w.core) pa data).homeWrite w.uid op pa data
  else
    let s1 := (s0.request w.core w.ctx va pa).1
    let l1 := s1.l1Of w.core va
    let x : Write := { op := op, wave := w.uid, lane := lane, ctx := w.ctx, l1 := l1, spoke := spokeOfCore w.core, va := va, pa := pa,
                       data := data, stage := 1, need := need, frame := frame, shown := 0 }
    let s2 := { s1 with writes := s1.writes ++ [x] }
    if frame then s2 else s2.updateLines (fun p => p == .l1 l1) pa data

/-- A READ-MODIFY-WRITE OF A LANE at its coherence point (R212, R233): the value read there, and the new bytes from it; none writes
nothing. -/
def State.rmwBytes (s : State) (w : Wave) (op lane : Nat) (m : Mapped) (va pa len stage k : Nat)
    (f : List Byte → Option (List Byte)) : State × List Byte :=
  let stage := if m.pbmt = 0 then stage else 3
  let r := s.loadBytes w lane m va pa len stage (stage != 1) (k % 4)
  let old := r.2.2
  match f old with
  | none => (r.1, old)
  | some new =>
    if stage = 3 then
      let t := (r.1.heartbeat w pa len).overFrames w (some lane) pa len
      (((t.updateLines (t.sidePlace w.core) pa new).homeWrite w.uid op pa new), old)
    else
      let t := (((r.1.heartbeat w pa len).overFrames w (some lane) pa len).request w.core w.ctx va pa).1
      let l1 := t.l1Of w.core va
      let x : Write := { op := op, wave := w.uid, lane := lane, ctx := w.ctx, l1 := l1, spoke := spokeOfCore w.core, va := va, pa := pa,
                         data := new, stage := stage, need := stage, frame := false, shown := 0 }
      ({ t with writes := t.writes ++ [x] }.updateLines
        (fun p => p == Place.l1 l1 || (stage == 2 && p == Place.l2 (spokeOfCore w.core))) pa new, old)

/-! ## Releases and acquires -/

/-- An operation in flight that writes memory, a scratchpad or a sync word, or that will (R222). -/
def Access.writes (a : Access) : Bool :=
  match a.instr with
  | .stf .. | .sts .. | .stc .. | .stg .. | .sth .. | .redg .. | .redh .. | .spanRelSt .. | .synci .. | .pbarArr ..
  | .savewC .. | .savewV .. | .savewS ..
  | .restwC .. | .restwV .. | .restwS .. => true
  | _ => false

/-- How wide a scope is (R191). -/
def scopeWidth : Scope → Nat
  | .wave => 1
  | .wg => 2
  | .clu => 3
  | .die => 4
  | .dev | .sys => 5

/-- How wide the release of an operation is (R234). -/
def Access.width (a : Access) : Nat :=
  match a.instr with
  | .fence _ t | .fenceXp _ t => scopeWidth t.scope
  | .barArr .. | .barSync .. => 2
  | .pbarArr _ _ _ clu => if clu then 3 else 2
  | i => match i.memOp with
    | some m => scopeWidth m.at_.scope
    | none => 5

/-- That of operation `op` of a wave; what is no operation of it, an ENQ or a word still to issue, releases at device scope. -/
def Wave.widthOf (w : Wave) (op : Nat) : Nat := ((w.access.toList ++ w.ops ++ w.waybill).find? (fun o => o.op == op)).elim 5 Access.width

/-- THE RELEASE PART of operation `op` at a coherence point is done (R222, R237, R243): every earlier write of the wave, and every write
it may have observed, is performed there, and its frame stores are seen at the release's scope (R185); the waybill holds nothing older;
no leased value is unconfirmed. -/
def State.released (s : State) (w : Wave) (op stage : Nat) : Bool :=
  !w.ops.any (fun o => o.op < op && o.writes) && !w.waybill.any (fun o => o.op < op)
    && !s.writes.any (fun x => (s.notAt w stage x || (x.frame && x.wave == w.uid && x.shown < w.widthOf op))
      && !(x.wave == w.uid && op ≤ x.op))
    && w.unconf.isEmpty
    && !s.ioWrites.any (fun x => x.wave == w.uid && x.op < op)

/-- Every write of a gang's waves, and every write that they may have observed, is at its home (R28, R234, R237). -/
def State.atHome (s : State) (ws : List Wave) : Bool := !s.writes.any (fun x => ws.any (fun w => x.wave == w.uid || s.notAt w 3 x))

/-- The lanes whose later accesses wait for an operation beside the wave: those of a SYNCW's path, in which it is an acquire read (R221,
R229), and those in which a PIX.ORD is one (R264). -/
def Access.awaitedBy (a : Access) : LaneMask :=
  match a.instr with
  | .syncw .. => BitVec.ofNat 32 (a.aux.getD 2 0)
  | .pixOrd .. => a.mask
  | _ => 0

/-- AN ACCESS OF SOME LANES MAY BE PERFORMED as far as their wave's earlier ones go (R196, R236, R239, R241): no SYNCW or PIX.ORD of
theirs before it is incomplete and, for one that writes, no leased value is unconfirmed. -/
def Wave.mayPerform (w : Wave) (op : Nat) (lanes : LaneMask) (writes : Bool) : Bool :=
  w.ops.all (fun o => op ≤ o.op || (o.awaitedBy &&& lanes) == 0) && (!writes || w.unconf.isEmpty)

/-- THE ACQUIRE PART may be taken (R222, R242): earlier loads have returned and are confirmed, and every write the wave may
have read stands at the scope's coherence point. -/
def State.mayAcquire (s : State) (w : Wave) (stage : Nat) : Bool :=
  !w.behind && !s.writes.any (fun x => s.notAt w stage x)

/-- An acquire at a scope raises the freshness floor (R197, R241). -/
def State.acquire (s : State) (w : Wave) : Scope → Wave
  | .wave | .wg => w
  | .clu => if s.fusedAt w.core then w else { w with floorL1 := s.fresh }
  | .die | .dev | .sys => { w with floor := s.fresh }

/-! ## Completion and rollback -/

/-- A result written by an operation: into the registers, and into the checkpoint's where the operation is older (R373). -/
def Wave.writeBack (w : Wave) (op : Nat) (f : RegFile → RegFile) : Wave :=
  { w with
    rf := f w.rf
    ckpt := match w.ckpt with
      | some c => if op < c.op then some { c with rf := f c.rf } else some c
      | none => none }

/-- The checkpoint passes the access once it is performed and confirmed (R372). -/
def Wave.settleCkpt (w : Wave) : Wave := if w.behind then w else { w with ckpt := none, beyond := 0 }

end Sys2Proof.Machine
end

