-- ==== Sys2Proof/Machine/Post.lean ====
section
/-! DEFINITION. A wave at its start (R40, R41), the postilions' waves, their firmware traps and their restart (R365, R367,
R392). -/

namespace Sys2Proof.Machine

/-- A FAULT OF A POSTILION'S OWN ACCESS (R367): a precise trap at the firmware handler with the access described; inside that
handler it restarts every postilion. `code` is the code of R370, `cause` what POST_FINFO holds. -/
def State.postTrap (s : State) (w : Wave) (site code cause level bit va : Nat) : State :=
  if w.trap.inHandler then s.restartPosts
  else
    let info : Word := BitVec.ofNat 32 (2 ^ 31 + cause % 256 * 2 ^ 16 + level % 8 * 2 ^ 13 + 2 ^ bit)
    let w0 := { w.rollback with access := none, ckpt := none }
    let w1 := w0.enterTrap Config.fwHandler code
    { s.putWave w1 with posts := updAt s.posts site (fun p =>
        { p with fvaLo := BitVec.ofNat 32 va, fvaHi := BitVec.ofNat 32 (va / 2 ^ 32), finfo := info }) }

/-- What an access that does not translate does (R343, R352, R355, R367): DIE_BINDING and ATOMIC_PATH are uncontained, a
TRANSLATION fault enters a filter; a postilion's traps. -/
def State.accessFault (s : State) (w : Wave) (op va : Nat) (want : Want) (t : Tr) (word addr hdr : Word64)
    (iter : Option (List Nat)) : State :=
  match w.post, t with
  | _, .ok _ => s
  | _, .refused => s
  | some site, .unbound => s.postTrap w site 0x24 0x24 0 want.bit va
  | some site, .bad cause level _ => s.postTrap w site 0x20 cause level want.bit va
  | none, .unbound => s.uncontained w (s.reportOf w 0x24 0x1 word addr hdr)
  | none, .bad cause level pte => s.openFault w op va want cause level pte iter

/-- ATOMIC_PATH with its sub-cause (R213, R355, R367). -/
def State.atomicPath (s : State) (w : Wave) (sub va : Nat) (want : Want) (word addr hdr : Word64) : State :=
  match w.post with
  | some site => s.postTrap w site 0x21 0x21 0 want.bit va
  | none => s.uncontained w (s.reportOf w 0x21 sub word addr hdr)

/-- MACHINE_CHECK in the wave that consumes uncorrectable data (R391); in a postilion every postilion restarts (R367). -/
def State.machineCheck (s : State) (w : Wave) (word addr hdr : Word64) : State :=
  match w.post with
  | some _ => (s.count (spokeOfCore w.core) 0x28).restartPosts
  | none => (s.count (spokeOfCore w.core) 0x28).uncontained w (s.reportOf w 0x23 0 word addr hdr)

end Sys2Proof.Machine
end

