-- ==== Sys2Proof/Machine/Memory.lean ====
section
/-! DEFINITION. The memory instructions (R182 to R186, R202 to R214): issue with the checks of R184, the steps in which an
access is translated and performed, and the waybill (R211, R243, R375, R376). -/

namespace Sys2Proof.Machine

/-! ## Spaces without translation -/

/-- Scratchpad bytes of a launch (R32, R182). -/
def Desc.scratchBytes (d : Desc) : Nat := d.scratch * 32768

/-- Workgroups of a gang (R27). -/
def Desc.gangSize (d : Desc) : Nat := 2 ^ d.gang

/-- Waves of a workgroup (R31). -/
def Desc.waveCount (d : Desc) : Nat := d.waves.foldl (fun a b => a + b) 0

/-- Size of a space that a wave addresses by offset (R182). -/
def State.spaceSize (s : State) (w : Wave) : Space → Nat
  | .frame => (s.descOf w).framePerLane
  | .scratch => (s.descOf w).scratchBytes
  | .cluster => (s.descOf w).gangSize * (s.descOf w).scratchBytes
  | .device | .sampler | .host => 2 ^ 64

/-- The workgroup and the byte in its scratchpad behind an offset (R27, R182). -/
def State.padOf (s : State) (w : Wave) (cluster : Bool) (off : Nat) : Option (Workgroup × Nat) :=
  if cluster then
    let sz := (s.descOf w).scratchBytes
    (s.wgs.find? (fun g => g.gang == w.gang && g.member == off / sz)).map (fun g => (g, off % sz))
  else (s.wg? w.wg).map (fun g => (g, off))

/-- A byte of scratch or cluster space (R192). -/
def State.padByte (s : State) (w : Wave) (cluster : Bool) (off : Nat) : Byte :=
  match s.padOf w cluster off with
  | some (g, o) => Map.get 0 g.scratch o
  | none => 0

def State.padBytes (s : State) (w : Wave) (cluster : Bool) (off n : Nat) : List Byte :=
  (List.range n).map (fun i => s.padByte w cluster (off + i))

/-- Bytes written to scratch or cluster space; a word written whole holds no error any more (R391). -/
def State.setPad (s : State) (w : Wave) (cluster : Bool) (off : Nat) : List Byte → State
  | [] => s
  | b :: t =>
    let s1 := match s.padOf w cluster off with
      | some (g, o) => s.putWg { g with
          scratch := Map.put 0 g.scratch o b
          padBad := if o % 4 = 0 && 3 ≤ t.length then g.padBad.filter (fun x => x != o / 4) else g.padBad }
      | none => s
    s1.setPad w cluster (off + 1) t

/-- A byte of the range lies in a word that holds an uncorrectable error (R391). -/
def State.padSpoilt (s : State) (w : Wave) (cluster : Bool) (off n : Nat) : Bool :=
  (List.range n).any (fun i => (s.padOf w cluster (off + i)).any (fun x => x.1.padBad.contains (x.2 / 4)))

/-! ## Addresses and pieces (R183, R184, R201, R205) -/

/-- Frame byte `x` of a lane (R183). -/
def State.frameAddr (s : State) (w : Wave) (lane x : Nat) : Nat :=
  let d := s.descOf w
  let n := (match s.wg? w.wg with | some g => g.lid | none => 0) * d.waveCount + w.idx
  (d.frameBase.toNat + ((n * (d.framePerLane / 16) + x / 16) * 32 + lane) * 16 + x % 16) % 2 ^ 64

/-- The address of a load or store in a lane (R205); an atomic takes A alone. -/
def laneAddr (space : Space) (rf : RegFile) (lit : Word) (a : Src) (b : Option Src) (lane : Nat) : Nat :=
  let off (x : Src) : Word := x.read rf lit lane
  match space with
  | .frame | .scratch | .cluster => match b with
    | some y => (off a + off y).toNat
    | none => (off a).toNat
  | .device | .sampler | .host =>
    let base := a.read64 rf lit .zext lane
    match b with
    | some y => (base + (off y).signExtend 64).toNat
    | none => base.toNat

/-- The reasons for which the lanes' addresses are refused (R184, R210), lowest first. -/
def State.addrReason (s : State) (w : Wave) (m : MemOp) (atomic : Bool) (addrs : List Nat) : Option Nat :=
  let bounded := !(m.space == .device || m.space == .sampler || m.space == .host)
  if bounded && addrs.any (fun x => s.spaceSize w m.space < x + m.len) then some 0x15
  else if (atomic || m.space == .sampler) && addrs.any (fun x => x % m.len != 0) then some 0x16
  else none

/-- The pieces of one lane's access (R201): whole when aligned, else split at every 16-byte boundary. -/
def splitAccess (addr len : Nat) : List (Nat × Nat) :=
  if len = 0 || addr % len = 0 then [(addr, len)]
  else
    let n := min (16 - addr % 16) len
    if n = len then [(addr, len)] else [(addr, n), ((addr + n) % 2 ^ 64, len - n)]

/-- The pieces of all lanes, lane 31 first (R207). -/
def State.piecesOf (s : State) (w : Wave) (m : MemOp) (q : LaneMask) (addr : Nat → Nat) (x y : Nat → List Byte) : List Piece :=
  (lanesOf q).reverse.flatMap (fun l =>
    (splitAccess (addr l) m.len).map (fun p =>
      let k := (p.1 + 2 ^ 64 - addr l) % 2 ^ 64
      { lane := l, addr := if m.space = .frame then s.frameAddr w l p.1 else p.1, len := p.2, x := ((x l).drop k).take p.2
        y := ((y l).drop k).take p.2, got := [], done := false }))

/-! ## Issue -/

/-- The issue of a word whose effects reach beyond registers (R63, R222, R372): held, TOKEN, nothing when no lane
qualifies, or its effect; an effect that answers none holds the word. It reads `regs` and writes `dests`. -/
def memIssue (g : Guard) (regs dests : List RegId) (f : State → Issue → LaneMask → Option State) (s : State) : Out State :=
  match s.issue? with
  | none => .fault .noPath
  | some i =>
    match s.gate i.w true (g.regs ++ (regs ++ dests)) with
    | .hold => .next s
    | .check => .next (s.checkTrap i)
    | .token =>
      let q := qualify i.w.rf g i.p.lanes
      .next (s.tokenTrap i (if q = 0 then none else f s i q))
    | .go =>
      let q := qualify i.w.rf g i.p.lanes
      if i.w.readMarked (regs ++ dests) then .next s
      else if i.w.rf.spoilt regs q then .next (s.registerCheck i)
      else if q = 0 then .next (s.retire i i.w)
      else match f s i q with
        | none => .next s
        | some t => .next t

/-- An operation as it is recorded at issue. -/
def Issue.access (i : Issue) (s : State) (instr : Instr) (q : LaneMask) (pieces : List Piece) (aux : List Nat) : Access :=
  { op := s.fresh, instr := instr, word := i.word, addr := i.addr, hdr := i.c.addr, mask := q, pieces := pieces, maps := [],
    aux := aux, started := false }

/-- The operation becomes the wave's outstanding access and its checkpoint (R372): its results are marked and its flag bound. -/
def State.issueAccess (s : State) (i : Issue) (a : Access) (writes : List RegId) : State :=
  let w1 := { i.w with
    access := some a
    ckpt := some { rf := i.w.rf, paths := i.w.paths, op := s.fresh, bar := i.w.bar }
    marks := i.w.marks ++ [Mark.mk s.fresh writes] }
  { s with fresh := s.fresh + 1 }.retire i (w1.bind s.fresh i.flag)

/-- The operation runs on beside the wave: its results are marked and its flag bound. -/
def State.issueOp (s : State) (i : Issue) (a : Access) (writes : List RegId) (long : Bool) : State :=
  let w1 := { i.w with
    ops := i.w.ops ++ [a]
    marks := if writes.isEmpty then i.w.marks else i.w.marks ++ [Mark.mk s.fresh writes] }
  { s with fresh := s.fresh + 1 }.retire i (if long then w1.bind s.fresh i.flag else w1)

/-- A load (R209, R210). -/
def loadIssue (ins : Instr) (g : Guard) (d : Dst) (a b : Src) (m : MemOp) (sz : LoadSize) (s : State) : Out State :=
  let ra := if m.space.mapped && m.space != .frame then a.regsRun 2 else a.regs
  memIssue g (ra ++ b.regs) (d.regsRun sz.regs) (fun s i q =>
    let addr (l : Nat) := laneAddr m.space i.w.rf i.c.head.lit a (some b) l
    match s.addrReason i.w m false ((lanesOf q).map addr) with
    | some r => some (s.illegal i r)
    | none =>
      let ps := s.piecesOf i.w m q addr (fun _ => []) (fun _ => [])
      some (s.issueAccess i (i.access s ins q ps []) (d.regsRun sz.regs))) s

/-- A store or reduction that has no translation, or has one no more, and so may still enter the waybill (R211, R350). -/
def Access.unmapped (a : Access) : Bool :=
  a.writes && a.maps.isEmpty && (match a.instr with
    | .spanRelSt .. => false
    | i => i.memOp.any (fun m => m.space.mapped))

/-- An operation before `op` holds the wave's memory unit: it is to be translated again (R245). -/
def Wave.unitHeld (w : Wave) (op : Nat) : Bool := w.ops.any (fun o => o.op < op && o.unmapped)

/-- Entries of the waybill and stores that may still need one (R211). -/
def Wave.waybillLoad (w : Wave) : Nat := w.waybill.length + (w.ops.filter Access.unmapped).length

/-! ## The translation of a whole instruction (R211, R213, R343, R355) -/

/-- The fault an instruction reports among those its pieces meet (R355): DIE_BINDING, cause 0x05, another cause; a refusal
only when nothing faults. -/
def worst (l : List (Nat × Tr)) : Option (Nat × Tr) :=
  (l.find? (fun x => match x.2 with | .unbound => true | _ => false)).orElse fun _ =>
  (l.find? (fun x => match x.2 with | .bad 5 _ _ => true | _ => false)).orElse fun _ =>
  (l.find? (fun x => match x.2 with | .bad _ _ _ => true | _ => false)).orElse fun _ =>
  l.find? (fun x => match x.2 with | .refused => true | _ => false)

/-- The pieces with their translations when all translate. -/
def State.mapPieces (s : State) (w : Wave) (want : Want) (ps : List Piece) : List (Piece × Mapped) :=
  ps.filterMap (fun p => match s.xlate w want p.addr with | .ok m => some (p, m) | _ => none)

/-- Is a mapping an IO resource, or the management window of a postilion? (R365, R414) -/
def State.isIo (s : State) (m : Mapped) : Bool := s.physKind m.pa != .device

/-- The IO path of an address carries this atomic (R415). -/
def State.ioCarries (s : State) (o : AtomOp) (pa : Nat) : Bool :=
  (o == .add || o == .exch || o == .cas) && (match s.physKind pa with
    | .hostDie => true
    | .pcie w => s.hub.pcieAtom.getLsbD w
    | _ => false)

/-- The sub-cause of ATOMIC_PATH that a mapped piece meets, if any (R213, R355, R415). -/
def State.pathCause (s : State) (m : MemOp) (o : AtomOp) (x : Mapped) : Option Nat :=
  if m.space == .host || m.at_.scope == .sys || s.isIo x then
    if !x.atom then some 0x1
    else if s.isIo x && !s.ioCarries o x.pa then some 0x2
    else none
  else none

/-- An IO access that is not 1, 2, 4 or 8 aligned bytes (R414). -/
def badIo (m : MemOp) (p : Piece) : Bool := 8 < m.len || p.len != m.len || p.addr % m.len != 0

/-- The rights a store or reduction needs. -/
def MemOp.want (m : MemOp) (atomic : Bool) (result : Bool) : Want :=
  let h := m.space == .host
  if !atomic then { Want.store h with bit := 1 }
  else if result then Want.atomic h else Want.store h

/-- The rights of a store or reduction in flight: a SPAN.REL.ST may be let write shadow pages (R172). -/
def Access.storeWant (a : Access) (m : MemOp) : Want :=
  match a.instr with
  | .spanRelSt _ _ _ _ shw => { Want.store false with shadow := shw }
  | _ => m.want a.instr.atomic.isSome false

/-- The first ATOMIC_PATH that the pieces of an atomic or reduction meet: its address and sub-cause. -/
def State.pathFault (s : State) (m : MemOp) (a : Access) (maps : List (Piece × Mapped)) : Option (Nat × Nat) :=
  a.instr.atomic.bind (fun o => maps.findSome? (fun pm => (s.pathCause m o pm.2).map (fun c => (pm.1.addr, c))))

/-- What the translation of a whole store or reduction comes to: it is refused for now, a fault is taken, it does not translate, or its
pieces have their translations. -/
inductive Enter where
  | wait
  | stop (t : State)
  | fault (va : Nat) (t : Tr)
  | go (maps : List Mapped)

/-- A STORE OR REDUCTION IS TRANSLATED WHOLE (R211, R213, R343, R355, R414): DIE_BINDING, ATOMIC_PATH and a malformed IO access are taken
here, before any part of it has an effect; so is a postilion's TRANSLATION fault (R367). -/
def State.enter (s : State) (w : Wave) (a : Access) (m : MemOp) : Enter :=
  let want := a.storeWant m
  match worst (a.pieces.map (fun p => (p.addr, s.xlate w want p.addr))) with
  | some (_, .refused) => .wait
  | some (va, .bad c l e) =>
    if w.post.isSome then .stop (s.accessFault w a.op va want (.bad c l e) a.word a.addr a.hdr none) else .fault va (.bad c l e)
  | some (va, t) => .stop (s.accessFault w a.op va want t a.word a.addr a.hdr none)
  | none =>
    let maps := s.mapPieces w want a.pieces
    match s.pathFault m a maps with
    | some (va, sub) => .stop (s.atomicPath w sub va want a.word a.addr a.hdr)
    | none =>
      if maps.any (fun pm => s.isIo pm.2 && badIo m pm.1) then
        .stop (s.uncontained w (s.reportOf w 0x22 0x16 a.word a.addr a.hdr))
      else .go (maps.map (fun pm => pm.2))

/-- A STORE OR REDUCTION IS ISSUED (R59, R211, R243): behind a waybill that is not empty it enters it and is complete for its flag, but
for a frame store; one that does not translate enters it with its fault; another runs on beside the wave with its translations. None
holds the word: a refused translation (R245), or no entry left. -/
def State.issueStore (s : State) (i : Issue) (m : MemOp) (a : Access) : Option State :=
  let room := i.w.waybillLoad < 8
  let bill : State := { s with fresh := s.fresh + 1 }.retire i { i.w with waybill := i.w.waybill ++ [a] }
  let behind := !i.w.waybill.isEmpty && (m.space == .device || m.space == .host)
  if !m.space.mapped then some (s.issueOp i a [] true)
  else match s.enter i.w a m with
    | .stop t => some t
    | .wait => if behind && room then some bill else none
    | .fault va t =>
      if !room then none
      else if behind then some bill
      else match bill.wave? i.w.uid with
        | some w => some (bill.accessFault w a.op va (m.want a.instr.atomic.isSome false) t a.word a.addr a.hdr none)
        | none => some bill
    | .go maps =>
      if behind then (if room then some bill else none)
      else some ((s.noteMaps i.w maps).issueOp i { a with maps := maps } [] true)

/-- The bytes of a store's operand in a lane (R206). -/
def storeData (rf : RegFile) (lit : Word) (c : Src) (sz : StoreSize) (lane : Nat) : List Byte :=
  match sz with
  | .b8 => toBytes 1 (c.read rf lit lane).toNat
  | .b16 => toBytes 2 (c.read rf lit lane).toNat
  | .b32 => toBytes 4 (c.read rf lit lane).toNat
  | .b64 => toBytes 8 (c.read64 rf lit .zext lane).toNat
  | .b128 => (List.range 4).flatMap (fun k => toBytes 4 (c.readRun rf lit none lane k).toNat)

/-- A store (R209). -/
def storeIssue (ins : Instr) (g : Guard) (a b c : Src) (m : MemOp) (sz : StoreSize) (s : State) : Out State :=
  let ra := if m.space.mapped && m.space != .frame then a.regsRun 2 else a.regs
  memIssue g (ra ++ b.regs ++ c.regsRun sz.regs) [] (fun s i q =>
    let addr (l : Nat) := laneAddr m.space i.w.rf i.c.head.lit a (some b) l
    match s.addrReason i.w m false ((lanesOf q).map addr) with
    | some r => some (s.illegal i r)
    | none =>
      let ps := s.piecesOf i.w m q addr (storeData i.w.rf i.c.head.lit c sz) (fun _ => [])
      s.issueStore i m (i.access s ins q ps [])) s

/-- An atomic's operand in a lane (R66, R212). -/
def atomData (rf : RegFile) (lit : Word) (o : AtomOp) (wide : Bool) (b : Src) (lane : Nat) : List Byte :=
  if wide then
    let wd : Widen := match o with
      | .min | .max => .sext
      | .fadd => .fp
      | _ => .zext
    toBytes 8 (b.read64 rf lit wd lane).toNat
  else toBytes 4 (b.read rf lit lane).toNat

/-- An atomic with a result, or a reduction (`d` none) (R212). -/
def atomIssue (ins : Instr) (g : Guard) (d : Option Dst) (a b : Src) (c : Option Src) (m : MemOp) (o : AtomOp) (s : State) :
    Out State :=
  let n := m.len / 4
  let ra := if m.space.mapped then a.regsRun 2 else a.regs
  let rc := match c with | some x => x.regsRun n | none => []
  let rd := match d with | some x => x.regsRun n | none => []
  memIssue g (ra ++ b.regsRun n ++ rc) rd (fun s i q =>
    let addr (l : Nat) := laneAddr m.space i.w.rf i.c.head.lit a none l
    match s.addrReason i.w m true ((lanesOf q).map addr) with
    | some r => some (s.illegal i r)
    | none =>
      let y (l : Nat) : List Byte := match c with
        | some x => atomData i.w.rf i.c.head.lit o (n == 2) x l
        | none => []
      let ps := s.piecesOf i.w m q addr (atomData i.w.rf i.c.head.lit o (n == 2) b) y
      match d with
      | some x => some (s.issueAccess i (i.access s ins q ps []) (x.regsRun n))
      | none => s.issueStore i m (i.access s ins q ps [])) s

/-! ## The value of an atomic (R212) -/

/-- What the operation leaves in memory; a failed CAS leaves nothing. -/
def atomNew (o : AtomOp) (len : Nat) (old x y : List Byte) : Option (List Byte) :=
  let w := 8 * len
  let m := ofBytes old
  let b := ofBytes x
  let sm := (BitVec.ofNat w m).toInt
  let sb := (BitVec.ofNat w b).toInt
  let put (n : Nat) : Option (List Byte) := some (toBytes len n)
  match o with
  | .add => put ((m + b) % 2 ^ w)
  | .fadd => put ((if len = 8 then fp64 else fp32).add .rne false m b).bits
  | .min => put (if sm ≤ sb then m else b)
  | .minZ => put (min m b)
  | .max => put (if sb ≤ sm then m else b)
  | .maxZ => put (max m b)
  | .and => put (m &&& b)
  | .or => put (m ||| b)
  | .xor => put (m ^^^ b)
  | .exch => put b
  | .cas => if m = ofBytes y then put b else none

/-! ## The instructions (R209 to R214) -/

def execLdf (g : Guard) (d : Dst) (a b : Src) (t : Attr) (sz : LoadSize) (s : State) : Out State :=
  loadIssue (.ldf g d a b t sz) g d a b ⟨.frame, t, sz.bytes⟩ sz s
def execStf (g : Guard) (a b c : Src) (t : Attr) (sz : StoreSize) (s : State) : Out State :=
  storeIssue (.stf g a b c t sz) g a b c ⟨.frame, t, sz.bytes⟩ sz s
def execLds (g : Guard) (d : Dst) (a b : Src) (t : Attr) (sz : LoadSize) (s : State) : Out State :=
  loadIssue (.lds g d a b t sz) g d a b ⟨.scratch, t, sz.bytes⟩ sz s
def execSts (g : Guard) (a b c : Src) (t : Attr) (sz : StoreSize) (s : State) : Out State :=
  storeIssue (.sts g a b c t sz) g a b c ⟨.scratch, t, sz.bytes⟩ sz s
def execAts (g : Guard) (d : Dst) (a b : Src) (c : Option Src) (t : Attr) (o : AtomOp) (s : State) : Out State :=
  atomIssue (.ats g d a b c t o) g (some d) a b c ⟨.scratch, t, t.atomLen⟩ o s
def execLdc (g : Guard) (d : Dst) (a b : Src) (t : Attr) (sz : LoadSize) (s : State) : Out State :=
  loadIssue (.ldc g d a b t sz) g d a b ⟨.cluster, t, sz.bytes⟩ sz s
def execStc (g : Guard) (a b c : Src) (t : Attr) (sz : StoreSize) (s : State) : Out State :=
  storeIssue (.stc g a b c t sz) g a b c ⟨.cluster, t, sz.bytes⟩ sz s
def execAtc (g : Guard) (d : Dst) (a b : Src) (c : Option Src) (t : Attr) (o : AtomOp) (s : State) : Out State :=
  atomIssue (.atc g d a b c t o) g (some d) a b c ⟨.cluster, t, t.atomLen⟩ o s
def execLdg (g : Guard) (d : Dst) (a b : Src) (t : Attr) (sz : LoadSize) (s : State) : Out State :=
  loadIssue (.ldg g d a b t sz) g d a b ⟨.device, t, sz.bytes⟩ sz s
def execStg (g : Guard) (a b c : Src) (t : Attr) (sz : StoreSize) (s : State) : Out State :=
  storeIssue (.stg g a b c t sz) g a b c ⟨.device, t, sz.bytes⟩ sz s
def execAtg (g : Guard) (d : Dst) (a b : Src) (c : Option Src) (t : Attr) (o : AtomOp) (s : State) : Out State :=
  atomIssue (.atg g d a b c t o) g (some d) a b c ⟨.device, t, t.atomLen⟩ o s
def execRedg (g : Guard) (a b : Src) (t : Attr) (o : AtomOp) (s : State) : Out State :=
  atomIssue (.redg g a b t o) g none a b none ⟨.device, t, t.atomLen⟩ o s
def execLdt (g : Guard) (d : Dst) (a b : Src) (t : Attr) (sz : LoadSize) (s : State) : Out State :=
  loadIssue (.ldt g d a b t sz) g d a b ⟨.sampler, t, sz.bytes⟩ sz s
def execLdh (g : Guard) (d : Dst) (a b : Src) (t : Attr) (sz : LoadSize) (s : State) : Out State :=
  loadIssue (.ldh g d a b t sz) g d a b ⟨.host, t, sz.bytes⟩ sz s
def execSth (g : Guard) (a b c : Src) (t : Attr) (sz : StoreSize) (s : State) : Out State :=
  storeIssue (.sth g a b c t sz) g a b c ⟨.host, t, sz.bytes⟩ sz s
def execAth (g : Guard) (d : Dst) (a b : Src) (c : Option Src) (t : Attr) (o : AtomOp) (s : State) : Out State :=
  atomIssue (.ath g d a b c t o) g (some d) a b c ⟨.host, t, t.atomLen⟩ o s
def execRedh (g : Guard) (a b : Src) (t : Attr) (o : AtomOp) (s : State) : Out State :=
  atomIssue (.redh g a b t o) g none a b none ⟨.host, t, t.atomLen⟩ o s

/-- PF (R214): the line of the lowest qualifying lane's address is asked for; its arrival is the access's performance. -/
def execPf (g : Guard) (a b : Src) (l2 : Bool) (s : State) : Out State :=
  memIssue g (a.regsRun 2 ++ b.regs) [] (fun s i q =>
    match lowestLane q with
    | none => none
    | some l =>
      let va := laneAddr .device i.w.rf i.c.head.lit a (some b) l
      some (s.issueOp i (i.access s (.pf g a b l2) q [] [va]) [] true)) s

end Sys2Proof.Machine
end

