-- ==== Sys2Proof/Machine/Perform.lean ====
section
/-! DEFINITION. The steps in which an issued access is performed (R191, R209 to R214): translation of the whole instruction,
then its pieces one by one or together, at the L1, at the L2 and at the home; entry into the waybill and its drain (R375,
R376); IO accesses (R414, R415). -/

namespace Sys2Proof.Machine

/-! ## What an access still waits for -/

/-- The space of an operation in flight. -/
def Access.space (a : Access) : Option Space :=
  match a.instr with
  | .synci _ _ _ _ clu => some (if clu then .cluster else .scratch)
  | .pbarArr _ _ _ clu => some (if clu then .cluster else .scratch)
  | .savewC .. | .savewV .. | .savewS .. | .restwC .. | .restwV .. | .restwS .. => some .device
  | i => i.memOp.map (fun m => m.space)

/-- A scratch or cluster offset as an offset of cluster space. -/
def State.padAddr (s : State) (w : Wave) (clu : Bool) (off : Nat) : Nat :=
  if clu then off
  else off + (match s.wg? w.wg with | some g => g.member * (s.descOf w).scratchBytes | none => 0)

/-- Two accesses of a wave meet in a byte: by physical address where both translate, by virtual address, or in the
scratchpads. -/
def State.meets (s : State) (w : Wave) (sp1 : Space) (a1 n1 : Nat) (sp2 : Space) (a2 n2 : Nat) : Bool :=
  if sp1.mapped != sp2.mapped then false
  else if sp1.mapped then
    overlap a1 n1 a2 n2 || (match s.xlate w (Want.load true) a1, s.xlate w (Want.load true) a2 with
      | .ok x, .ok y => overlap x.pa n1 y.pa n2
      | _, _ => false)
  else overlap (s.padAddr w (sp1 == .cluster) a1) n1 (s.padAddr w (sp2 == .cluster) a2) n2

/-- An earlier operation of the wave has still to touch these bytes (R230, R232). -/
def State.behindOwn (s : State) (w : Wave) (op : Nat) (sp : Space) (addr len : Nat) : Bool :=
  w.ops.any (fun o => o.op < op && o.writes && (match o.space with
    | some sp2 => o.pieces.any (fun p => !p.done && s.meets w sp addr len sp2 p.addr p.len)
    | none => false))

/-- A waybill entry overlaps these bytes (R243). -/
def State.behindWaybill (s : State) (w : Wave) (sp : Space) (addr len : Nat) : Bool :=
  sp.mapped && w.waybill.any (fun o => o.pieces.any (fun p => s.meets w sp addr len .device p.addr p.len))

/-- A WHOLE WAVE'S ACCESS that R201 makes one event at the home: a plain load or store, or an atomic, of device or host space by all 32
lanes, lane `l` at word `l` of an aligned block of 128 bytes. -/
def Access.whole (a : Access) (m : MemOp) : Bool :=
  (m.space == .device || m.space == .host) && m.len == 4 && a.mask == allLanes && a.pieces.length == 32
    && a.pieces.all (fun p => p.len == 4 && p.addr % 128 == 4 * p.lane
      && p.addr / 128 == (a.pieces.headD p).addr / 128)

/-- That access as one piece of 128 bytes. -/
def Access.wide (a : Access) : Piece :=
  { lane := 0, addr := (a.pieces.map (fun p => p.addr)).foldl min (2 ^ 64), len := 128
    x := (List.range 32).flatMap (fun l => (a.pieces.find? (fun p => p.lane == l)).elim [] (fun p => p.x)), y := [], got := []
    done := false }

/-- The pieces a step names: one by number, or all of those not yet performed. -/
def selects (sel i : Nat) (p : Piece) : Bool := !p.done && (sel == 255 || sel == i)

/-! ## Results -/

/-- The bytes a lane has read, its pieces in address order. -/
def Access.laneBytes (a : Access) (lane : Nat) : List Byte := (a.pieces.filter (fun p => p.lane == lane)).flatMap (fun p => p.got)

/-- A 32-bit register of a lane's bytes. -/
def wordAt (b : List Byte) (k : Nat) : Word := BitVec.ofNat 32 (ofBytes ((b.drop (4 * k)).take 4))

/-- A result of `n` registers read from the lanes' bytes. -/
def Access.writeResult (a : Access) (d : Dst) (n : Nat) (rf : RegFile) : RegFile :=
  (List.range n).foldl (fun r k => r.writeRun d k a.mask (fun l => wordAt (a.laneBytes l) k)) rf

/-- What a load or an atomic writes when it completes (R206, R212). -/
def Access.result (a : Access) (rf : RegFile) : RegFile :=
  let load (d : Dst) (sz : LoadSize) : RegFile :=
    if sz.bytes ≤ 4 then rf.write d a.mask (fun l => sz.extend (ofBytes (a.laneBytes l)))
    else a.writeResult d sz.regs rf
  match a.instr with
  | .ldf _ d _ _ _ sz | .lds _ d _ _ _ sz | .ldc _ d _ _ _ sz | .ldg _ d _ _ _ sz | .ldt _ d _ _ _ sz
  | .ldh _ d _ _ _ sz => load d sz
  | .ats _ d _ _ _ t _ | .atc _ d _ _ _ t _ | .atg _ d _ _ _ t _ | .ath _ d _ _ _ t _ =>
    a.writeResult d (t.atomLen / 4) rf
  | .publish _ d _ _ _ => a.writeResult d 2 rf
  | _ => rf

/-- THE OUTSTANDING ACCESS IS PERFORMED (R209, R212, R372): its result is written, its acquire taken, its mark and flag
cleared, and the checkpoint passes it. -/
def State.finishAccess (s : State) (w : Wave) (a : Access) : State :=
  let w1 := { w with rf := a.result w.rf, access := none }.complete a.op
  let w2 := match a.instr.memOp with
    | some m => if m.acq then s.acquire w1 m.at_.scope else w1
    | none => w1
  (s.putWave w2.settleCkpt).unwait w.uid a.op

/-- A SPAN.REL.ST whose rows are not stored yet (R172). -/
def Access.reserved (a : Access) : Bool :=
  match a.instr with
  | .spanRelSt .. => !a.started
  | _ => false

/-- The operation beside the wave is complete for its flag once nothing of it is short of its scope (R59, R172, R209). -/
def State.settleOp (s : State) (wave op : Nat) : State :=
  match s.wave? wave with
  | none => s
  | some w =>
    if w.ops.any (fun o => o.op == op) || w.waybill.any (fun o => o.op == op && o.reserved)
        || s.writes.any (fun x => x.wave == wave && x.op == op && x.stage < x.need) then s
    else s.putWave (w.complete op)

/-- Put an operation of a wave back as it stands, or drop it when all its pieces are performed. -/
def State.putOp (s : State) (wave : Nat) (a : Access) : State :=
  match s.wave? wave with
  | none => s
  | some w =>
    let done := a.pieces.all (fun p => p.done)
    let w1 := { w with ops := if done then w.ops.filter (fun o => o.op != a.op)
                              else w.ops.map (fun o => if o.op == a.op then a else o) }
    (s.putWave w1).settleOp wave a.op

/-! ## Loads and atomics with a result -/

/-- A fill of the table cache (R189, R210): a fresh read of the 256-byte line at the coherence point of the LDT's scope. -/
def State.fillTable (s : State) (w : Wave) (m : Mapped) (va pa stage : Nat) : State × List (List Byte) :=
  (List.range 4).foldl (fun (acc : State × List (List Byte)) j =>
    let v := va / 256 * 256 + 64 * j
    let p := pa / 256 * 256 + 64 * j
    let x := acc.1.tableBytes w m v p stage
    let l : Line := { place := .table w.core, ctx := w.ctx, va := v, pa := p, data := x.2, born := x.1.fresh,
                      grant := x.1.tick, expiry := none, version := x.1.version p
                      bad := x.1.bad.contains (p / 64) }
    (if m.pbmt = 0 then x.1.fill l else x.1, acc.2 ++ [x.2])) (s, [])

/-- The sampler path (R189, R210): the table cache's line, or a fill. -/
def State.tableLoad (s : State) (w : Wave) (m : Mapped) (va pa len stage k : Nat) : State × List Byte :=
  let cut (b : List Byte) : List Byte := (b.drop (pa % 64)).take len
  match s.lineAt (.table w.core) w.ctx va with
  | some l =>
    if k % 2 == 0 then (s, cut l.data)
    else
      let r := s.fillTable w m va pa stage
      (r.1, cut (r.2.getD (va / 64 % 4) []))
  | none =>
    let r := s.fillTable w m va pa stage
    (r.1, cut (r.2.getD (va / 64 % 4) []))

/-- The point where an access is performed (R186, R191, R201): a whole wave's, and one of host space, at the home. -/
def State.pointOf (s : State) (w : Wave) (a : Access) (m : MemOp) : Nat :=
  if m.space == .frame then 1 else if m.space == .host || a.whole m then 3 else s.stageOf w.core m.at_.scope

/-- A load that bypasses the caches nearer than its point (R196, R197, R201). -/
def Access.fresh (a : Access) (m : MemOp) (x : Mapped) : Bool :=
  m.space == .host || (m.at_.bit2 && m.space == .device) || x.lease == 3 || a.whole m

/-- One piece of a load is read (R209). -/
def State.loadPiece (s : State) (w : Wave) (a : Access) (m : MemOp) (x : Mapped) (p : Piece) (k : Nat) :
    State × Wave × Option Piece :=
  let stage := s.pointOf w a m
  if s.behindOwn w a.op m.space p.addr p.len then (s, w, none)
  else match a.instr.atomic with
    | some o =>
      if !s.mayReadAt w stage x.pa p.len || (m.rel && !s.released w a.op stage) then (s, w, none)
      else
        let r := s.rmwBytes w a.op p.lane x p.addr x.pa p.len stage k (fun old => atomNew o p.len old p.x p.y)
        (r.1, w, some { p with got := r.2, done := true })
    | none =>
      if m.space == .sampler then
        let r := s.tableLoad w x p.addr x.pa p.len stage k
        (r.1, w, some { p with got := r.2, done := true })
      else
        let fresh := a.fresh m x
        if (fresh || m.acq || x.pbmt != 0) && !s.mayReadAt w (if x.pbmt != 0 then 3 else stage) x.pa p.len then (s, w, none)
        else
          let r := s.loadBytes w p.lane x p.addr x.pa p.len stage fresh (if m.acq || m.space == .frame then k % 4 else k)
          (r.1, r.2.1, some { p with got := r.2.2, done := true })

/-- A piece that is still to be read would consume an uncorrectable error: that of the copy it hits, or of the memory (R391). -/
def State.spoilt (s : State) (w : Wave) (a : Access) (m : MemOp) (x : Mapped) (p : Piece) (k : Nat) : Bool :=
  let stage := s.pointOf w a m
  let k := if m.acq || m.space == .frame || a.instr.atomic.isSome then k % 4 else k
  let fresh := if a.instr.atomic.isSome then stage != 1 else a.fresh m x
  let here : Option Line :=
    if m.space == .sampler then (if k % 2 = 0 then s.lineAt (.table w.core) w.ctx p.addr else none)
    else match s.hitOf w x p.addr stage fresh k with
      | .l1 l | .late l | .l2 l => some l
      | .none => none
  !p.done && (match here with
    | some l => l.bad
    | none => s.bad.contains (x.pa / 64))

/-- A piece that comes before another of the same bytes has still to be performed (R207): they are the same where their physical addresses
are. -/
def Access.before (ps : List Piece) (maps : List (Piece × Mapped)) (x : Piece × Mapped) : Bool :=
  (ps.zip maps).any (fun e => !e.1.done && overlap e.2.2.pa e.1.len x.2.pa x.1.len)

/-- Pieces of the outstanding access are read one after the other, those of one place lane 31 first; a piece that waits stays (R207). A
whole wave's are read together or not at all (R201). -/
def State.loadPieces (s : State) (w : Wave) (a : Access) (m : MemOp) (maps : List (Piece × Mapped)) (sel k : Nat) :
    State × Wave × List Piece :=
  let sel := if a.whole m then 255 else sel
  let r := maps.zipIdx.foldl (fun (acc : State × Wave × List Piece) pm =>
    let p := pm.1.1
    if selects sel pm.2 p && !Access.before acc.2.2 maps pm.1 then
      let r := acc.1.loadPiece acc.2.1 a m pm.1.2 p k
      (r.1, r.2.1, acc.2.2 ++ [r.2.2.getD p])
    else (acc.1, acc.2.1, acc.2.2 ++ [p])) (s, w, [])
  if a.whole m && r.2.2.any (fun p => !p.done) then (s, w, a.pieces) else r

/-- A load or atomic of scratch or cluster space (R192), which consumes an uncorrectable error there (R391). -/
def State.padAccess (s : State) (w : Wave) (a : Access) (m : MemOp) (sel : Nat) : State :=
  let clu := m.space == .cluster
  let rel := orderRel m.at_.order && !s.released w a.op (s.stageOf w.core m.at_.scope)
  if !rel && a.pieces.any (fun p => !p.done && s.padSpoilt w clu p.addr p.len) then s.machineCheck w a.word a.addr a.hdr
  else
  let r := a.pieces.zipIdx.foldl (fun (acc : State × List Piece) pi =>
    let p := pi.1
    let earlier := acc.2.any (fun e => !e.done && overlap e.addr e.len p.addr p.len)
    if selects sel pi.2 p && !earlier && !rel && !acc.1.behindOwn w a.op m.space p.addr p.len then
      let old := acc.1.padBytes w clu p.addr p.len
      let t := match a.instr.atomic with
        | some o => match atomNew o p.len old p.x p.y with
          | some new => acc.1.setPad w clu p.addr new
          | none => acc.1
        | none => acc.1
      (t, acc.2 ++ [{ p with got := old, done := true }])
    else (acc.1, acc.2 ++ [p])) (s, [])
  let a1 := { a with pieces := r.2, started := true }
  if a1.pieces.all (fun p => p.done) then r.1.finishAccess w a1 else r.1.putWave { w with access := some a1 }

/-- An IO access of the wave that is older than operation `op` and may still be on its way to the same destination (R414): a store or
reduction that runs beside the wave, or one of host space that waits in the waybill. -/
def Wave.olderIo (w : Wave) (op : Nat) : Bool :=
  w.ops.any (fun o => o.op < op && o.writes) || w.waybill.any (fun o => o.op < op && o.space == some .host)

/-- The lanes of a load or atomic that reach IO resources (R414, R415): sent, then answered with bytes the manual gives no value for, or,
for a load, with an error. A postilion's load of the management window reads it with `rd`. The access's other lanes come after them. -/
def State.ioAccess (s : State) (rd : State → Nat → Nat → List Byte) (w : Wave) (a : Access) (m : MemOp) (maps : List (Piece × Mapped))
    (k : Nat) : State :=
  if w.olderIo a.op then s
  else if s.ioWrites.any (fun x => x.wave == w.uid && s.physKind x.pa == .window) then s
  else if orderRel m.at_.order && !s.released w a.op 3 then s
  else if !a.started then s.putWave { w with access := some { a with started := true, aux := [s.tick] } }
  else
    let failed := k % 2 == 1 && a.instr.atomic.isNone && maps.any (fun pm => s.isIo pm.2 && s.physKind pm.2.pa != .window)
    let s0 := if failed then s.count (spokeOfCore w.core) 0x48 else s
    let r := maps.foldl (fun (acc : State × List Piece) pm =>
      let p := pm.1
      match acc.1.physKind pm.2.pa with
      | .device => (acc.1, acc.2 ++ [p])
      | .window => (acc.1, acc.2 ++ [{ p with got := rd acc.1 (pm.2.pa - windowBase) p.len, done := true }])
      | _ =>
        if failed then (acc.1, acc.2 ++ [{ p with got := List.replicate p.len 0xFF, done := true }])
        else
          let f := acc.1.freeBytes p.len
          (f.1, acc.2 ++ [{ p with got := f.2, done := true }])) (s0, [])
    let a1 := { a with pieces := r.2 }
    if a1.pieces.all (fun p => p.done) then r.1.finishAccess w a1 else r.1.putWave { w with access := some a1 }

/-- The outstanding access has its translations: what its pieces do next. -/
def State.mappedStep (s : State) (rd : State → Nat → Nat → List Byte) (w : Wave) (a : Access) (m : MemOp) (sel : Nat) : State :=
  let k := s.choices.headD 0
  let maps := a.pieces.zip a.maps
  let io := maps.any (fun pm => s.isIo pm.2)
  if maps.any (fun pm => s.isIo pm.2 && badIo m pm.1) then s.uncontained w (s.reportOf w 0x22 0x16 a.word a.addr a.hdr)
  else if maps.any (fun pm => !s.isIo pm.2 && s.spoilt w a m pm.2 pm.1 k) then s.machineCheck w a.word a.addr a.hdr
  else if maps.any (fun pm => s.isIo pm.2 && !pm.1.done) then s.ioAccess rd w a m maps k
  else
    let r := s.loadPieces w a m maps sel (if io then k % 4 else k)
    let a1 := { a with pieces := r.2.2, started := a.started || r.2.2.any (fun p => p.done) }
    if a1.pieces.all (fun p => p.done) then r.1.finishAccess r.2.1 a1
    else r.1.putWave { r.2.1 with access := some a1 }

/-- A STEP OF THE OUTSTANDING ACCESS (R209 to R213, R243, R245, R352): translated whole, then performed under those translations. -/
def State.accessStep (s : State) (rd : State → Nat → Nat → List Byte) (w : Wave) (a : Access) (m : MemOp) (sel : Nat) : State :=
  if !w.mayPerform a.op a.mask a.instr.atomic.isSome || w.unitHeld a.op then s
  else if !m.space.mapped then s.padAccess w a m sel
  else if s.blocked w.uid a.op || a.pieces.any (fun p => s.behindWaybill w m.space p.addr p.len) then s
  else if !a.maps.isEmpty then s.mappedStep rd w a m sel
  else
    let want := if m.space == .sampler then Want.table
      else if a.instr.atomic.isSome then m.want true true else Want.load (m.space == .host)
    match worst (a.pieces.map (fun p => (p.addr, s.xlate w want p.addr))) with
    | some (va, t) => s.accessFault w a.op va want t a.word a.addr a.hdr none
    | none =>
      let maps := s.mapPieces w want a.pieces
      match s.pathFault m a maps with
      | some (va, sub) => s.atomicPath w sub va want a.word a.addr a.hdr
      | none =>
        let a1 := { a with maps := maps.map (fun pm => pm.2) }
        let w1 := { w with access := some a1 }
        ((s.noteMaps w a1.maps).putWave w1).mappedStep rd w1 a1 m sel

/-! ## Stores and reductions -/

/-- An operation is a release, or has a release part (R234). -/
def Access.releases (a : Access) : Bool :=
  match a.instr with
  | .fence _ t => orderRel t.order
  | .fenceXp .. | .fencePt .. | .barArr .. | .barSync .. | .pbarArr .. | .gbarGrid .. | .gbarGang .. | .publish .. | .rastEmit ..
  | .pixBlend .. => true
  | i => i.memOp.any MemOp.rel

/-- A path of the wave stands at a RAST.EMIT, which is a release before it is an operation (R259). -/
def Wave.atEmit (w : Wave) : Bool :=
  w.paths.any (fun p => match p.clause with
    | some c => (match decode .user (c.words.getD c.idx 0) with
      | .ok (.rastEmit ..) => true
      | .ok _ | .error _ => false)
    | none => false)

/-- HOW WIDE THE FRAME STORES OF A WAVE MAY BE SEEN (R28, R185): as wide as the releases that wait for them; 5, by every thread, once its
gang is retiring or is being drained. -/
def State.frameWidth (s : State) (w : Wave) (op : Nat) : Nat :=
  let all : Bool := !w.enqs.isEmpty || w.atEmit || (match s.gang? w.gang with
      | some g => g.state == .draining || s.waves.all (fun x => x.gang != w.gang || x.live == 0)
      | none => true)
  if all then 5
  else (w.access.toList ++ w.ops ++ w.waybill).foldl (fun n o => if op < o.op && o.releases then max n o.width else n) 0

/-- One piece of a store or reduction takes effect (R209, R212, R414). -/
def State.storePiece (s : State) (w : Wave) (a : Access) (m : MemOp) (x : Mapped) (p : Piece) (k : Nat) : State × Option Piece :=
  let stage := s.pointOf w a m
  if s.behindOwn w a.op m.space p.addr p.len then (s, none)
  else if m.rel && !s.released w a.op stage then (s, none)
  else if s.isIo x then
    if w.olderIo a.op then (s, none)
    else ({ s with ioWrites := s.ioWrites ++ [IoWrite.mk w.uid a.op x.pa p.x a.instr.atomic] }, some { p with done := true })
  else match a.instr.atomic with
    | some o =>
      if !s.mayReadAt w stage x.pa p.len then (s, none)
      else
        let r := s.rmwBytes w a.op p.lane x p.addr x.pa p.len stage k (fun old => atomNew o p.len old p.x p.y)
        (r.1, some { p with done := true })
    | none =>
      if x.pbmt != 0 && !s.mayReadAt w 3 x.pa p.len then (s, none)
      else (s.storeBytes w a.op p.lane x p.addr x.pa stage (m.space == .frame) p.x, some { p with done := true })

/-- Pieces of a store or reduction, lane 31 first, a later piece never ahead of an earlier one of the same bytes (R207). A whole wave's
take effect together: a store's as one write of 128 bytes (R201). -/
def State.storePieces (s : State) (w : Wave) (a : Access) (m : MemOp) (maps : List (Piece × Mapped)) (sel k : Nat) :
    State × List Piece :=
  let all := maps.map (fun pm => pm.1)
  let one := a.whole m && !maps.any (fun pm => s.isIo pm.2)
  if one && a.instr.atomic.isNone then
    match maps.find? (fun pm => pm.1.addr == a.wide.addr) with
    | some pm =>
      let r := s.storePiece w a m pm.2 a.wide k
      (r.1, if r.2.isSome then all.map (fun (p : Piece) => { p with done := true }) else all)
    | none => (s, all)
  else
    let r := maps.zipIdx.foldl (fun (acc : State × List Piece) pm =>
      let p := pm.1.1
      if selects (if one then 255 else sel) pm.2 p && !Access.before acc.2 maps pm.1 then
        let r := acc.1.storePiece w a m pm.1.2 p k
        (r.1, acc.2 ++ [r.2.getD p])
      else (acc.1, acc.2 ++ [p])) (s, [])
    if one && r.2.any (fun p => !p.done) then (s, all) else r

/-- A store of scratch or cluster space is performed at the scratchpad (R192). -/
def State.padStore (s : State) (w : Wave) (a : Access) (m : MemOp) (sel : Nat) : State :=
  if orderRel m.at_.order && !s.released w a.op (s.stageOf w.core m.at_.scope) then s
  else
    let r := a.pieces.zipIdx.foldl (fun (acc : State × List Piece) pi =>
      let p := pi.1
      let earlier := acc.2.any (fun e => !e.done && overlap e.addr e.len p.addr p.len)
      if selects sel pi.2 p && !earlier && !acc.1.behindOwn w a.op m.space p.addr p.len then
        (acc.1.setPad w (m.space == .cluster) p.addr p.x, acc.2 ++ [{ p with done := true }])
      else (acc.1, acc.2 ++ [p])) (s, [])
    r.1.putOp w.uid { a with pieces := r.2 }

/-- The operation leaves the wave's operations for its place in the waybill and is complete for its flag (R59, R211). -/
def Wave.toWaybill (w : Wave) (a : Access) : Wave :=
  { w with
    ops := w.ops.filter (fun o => o.op != a.op)
    waybill := w.waybill.filter (fun (o : Access) => o.op < a.op) ++ a :: w.waybill.filter (fun (o : Access) => a.op < o.op) }.complete a.op

/-- A store or reduction that lost its translations is translated again (R211, R243, R350): behind older waybill entries it enters the
waybill, with a TRANSLATION fault too; while the waybill is full it waits. -/
def State.mapStore (s : State) (w : Wave) (a : Access) (m : MemOp) : State :=
  let room := w.waybill.length < 8
  if w.waybill.any (fun o => o.op < a.op) && (m.space == .device || m.space == .host) then (if room then s.putWave (w.toWaybill a) else s)
  else match s.enter w a m with
    | .wait => s
    | .stop t => t
    | .fault va t =>
      let w1 := w.toWaybill a
      if room then (s.putWave w1).accessFault w1 a.op va (m.want a.instr.atomic.isSome false) t a.word a.addr a.hdr none else s
    | .go maps => (s.noteMaps w maps).putOp w.uid { a with maps := maps }

/-- A STEP OF A STORE OR REDUCTION (R209 to R212, R241, R245): performed piece by piece under the translations it has. -/
def State.storeStep (s : State) (w : Wave) (a : Access) (m : MemOp) (sel : Nat) : State :=
  if !w.mayPerform a.op a.mask true || w.unitHeld a.op then s
  else if !m.space.mapped then s.padStore w a m sel
  else if a.maps.isEmpty then s.mapStore w a m
  else
    let r := s.storePieces w a m (a.pieces.zip a.maps) sel (s.choices.headD 0)
    r.1.putOp w.uid { a with pieces := r.2, started := a.started || r.2.any (fun p => p.done) }

/-- THE HEAD OF A WAYBILL DRAINS (R213, R243, R351, R375, R376): translated anew; performed whole, exactly once; or it faults
again with a new record and nothing passes it. While the gang is being restored it stays (R381). -/
def State.drainHead (s : State) (w : Wave) : State :=
  match w.waybill with
  | [] => s
  | a :: rest =>
    match a.instr.memOp with
    | none => s
    | some m =>
      let restoring := match s.gang? w.gang with | some g => g.state == .restoring | none => false
      if restoring || !s.powered w || s.blocked w.uid a.op || w.unitHeld a.op || a.reserved || !w.mayPerform a.op a.mask true then s
      else
        let want := a.storeWant m
        match worst (a.pieces.map (fun p => (p.addr, s.xlate w want p.addr))) with
        | some (va, t) => s.accessFault w a.op va want t a.word a.addr a.hdr none
        | none =>
          let maps := s.mapPieces w want a.pieces
          match s.pathFault m a maps with
          | some (va, sub) => s.atomicPath w sub va want a.word a.addr a.hdr
          | none =>
            if maps.any (fun pm => s.isIo pm.2 && badIo m pm.1) then s.uncontained w (s.reportOf w 0x22 0x16 a.word a.addr a.hdr)
            else
            let r := (s.noteMaps w (maps.map (fun pm => pm.2))).storePieces w a m maps 255 (s.choices.headD 0)
            if r.2.all (fun p => p.done) then
              match r.1.wave? w.uid with
              | some w1 => (r.1.putWave { w1 with waybill := rest }).unwait w.uid a.op
              | none => r.1
            else s

/-! ## Prefetch -/

/-- PF reaches the caches (R193, R214): the 256-byte line, into the L1 and the L2 or into the L2 only; a fault drops it, and of a sector
in uncorrectable error there is only the report (R391). -/
def State.prefetch (s : State) (w : Wave) (va : Nat) (l2 : Bool) : State :=
  match s.xlate w (Want.load false) va with
  | .ok m =>
    if m.pbmt ≠ 0 then s
    else
      (List.range 4).foldl (fun t j =>
        let sec := m.pa / 256 * 256 + 64 * j
        let x : Mapped := { m with va := va / 256 * 256 + 64 * j, pa := sec, size := 64 }
        if t.bad.contains (sec / 64) then t.reportBad ((t.homeOf sec).getD 0) sec
        else (t.fetchSector w x true (!l2) sec).1) (s.noteMaps w [m])
  | .bad _ _ _ | .unbound | .refused => s

end Sys2Proof.Machine
end

