-- ==== Sys2Proof/Machine/Copy.lean ====
section
/-! DEFINITION. Bulk copies and sync words (R199, R200, R215 to R221), fences (R222 to R224), PUBLISH (R226), and the steps in
which all operations of a wave complete. -/

namespace Sys2Proof

/-- The scratchpad side of a copy is in cluster space. -/
def CpyDir.srcClu (d : CpyDir) : Bool := d == .c2d
def CpyDir.dstClu (d : CpyDir) : Bool := d == .d2c

/-- The space of a copy's sync word (R216): that of its scratch or cluster side, scratch for D2D. -/
def CpyDir.syncClu (d : CpyDir) : Bool := d.srcClu || d.dstClu

end Sys2Proof

namespace Sys2Proof.Machine

/-! ## Loop descriptors (R88, R177, R216) -/

/-- A signed 32-bit stride. -/
def stride32 (x : Nat) : Int := (BitVec.ofNat 32 x).toInt

/-- The levels of a 64-byte loop descriptor, or none where a check fails: strides multiples of `align` (R177, R216). -/
def parseLoop (bs : List Byte) (align : Nat) : Option (List (Nat × Int × Int)) :=
  let n := (bs.getD 0 0).toNat
  let num (o : Nat) : Nat := ofBytes ((bs.drop o).take 4)
  let lv := (List.range n).map (fun i => (num (4 + 12 * i), stride32 (num (8 + 12 * i)), stride32 (num (12 + 12 * i))))
  if n = 0 || 5 < n then none
  else if (bs.drop 1).take 3 != [0, 0, 0] || (bs.drop (4 + 12 * n)).any (fun b => b != 0) then none
  else if lv.any (fun l => l.1 == 0 || l.2.1 % align != 0 || l.2.2 % align != 0) then none
  else if 2 ^ 32 ≤ lv.foldl (fun a l => a * l.1) 1 then none
  else some lv

/-- The sum of index times stride for one stream. -/
def strideSum (lv : List (Nat × Int × Int)) (v : List Nat) (second : Bool) : Int :=
  (lv.zip v).foldl (fun a p => a + (p.2 : Int) * (if second then p.1.2.2 else p.1.2.1)) 0

/-- The least and the greatest sum of a stream over the walk. -/
def strideRange (lv : List (Nat × Int × Int)) (second : Bool) : Int × Int :=
  lv.foldl (fun a l =>
    let x := ((l.1 : Int) - 1) * (if second then l.2.2 else l.2.1)
    (a.1 + min x 0, a.2 + max x 0)) (0, 0)

/-! ## A copy's units -/

/-- Its direction and whether its destination may lie on shadow pages; a gather and a walk's step copy read device space. -/
def CopyOp.dir (c : CopyOp) : CpyDir × Bool :=
  match c.instr with
  | .cpy _ _ _ _ _ d shw => (d, shw)
  | .cpyx _ _ _ _ clu _ => (if clu then .d2c else .d2s, false)
  | _ => (.d2c, false)

/-- How many 16-byte units the copy moves. -/
def CopyOp.total (c : CopyOp) : Nat :=
  if c.rows.isEmpty then (match c.levels with | some lv => lv.foldl (fun a l => a * l.1) 1 | none => 1)
  else c.rows.length * (c.rowLen / 16)

/-- Source and destination of a unit (R216, R219). -/
def CopyOp.unitAt (c : CopyOp) (k : Nat) : Nat × Nat :=
  if c.rows.isEmpty then
    let lv := c.levels.getD []
    let v := vectorOf lv k
    let wrap (dev : Bool) (x : Int) : Nat := (x % (if dev then 2 ^ 64 else 2 ^ 32)).toNat
    (wrap c.dir.1.srcDev (c.src + strideSum lv v false), wrap c.dir.1.dstDev (c.dst + strideSum lv v true))
  else
    let u := c.rowLen / 16
    let r := c.rows.getD (k / u) (0, 0)
    ((r.2 + 16 * (k % u)) % 2 ^ 64, c.dst + r.1 * c.rowLen + 16 * (k % u))

/-! ## What the span reads and writes beside the wave (R162, R164, R177) -/

/-- Steps of a walk. -/
def Walk.total (k : Walk) : Nat := match k.levels with | some lv => lv.foldl (fun a l => a * l.1) 1 | none => 0

/-- Device-space source and cluster-space destination of a unit of step `fetch`. -/
def Walk.unitAt (k : Walk) (u : Nat) : Nat × Nat :=
  let lv := k.levels.getD []
  let v := vectorOf lv k.fetch
  let second := decide (256 ≤ u)
  let base : Int := if second then k.b else k.a
  (((base + strideSum lv v second + 16 * ((u % 256 : Nat) : Int)) % 2 ^ 64).toNat,
    k.stage + k.fetch % 2 * 0x1000 + (if second then 0x2000 else 0) + 16 * (u % 256))

/-- Fields of a span operand descriptor (R89). -/
def spanBase (d : Nat) : Nat := d % 2 ^ 20
def spanRow (d : Nat) : Nat := d / 2 ^ 20 % 2 ^ 16
def spanTile (d : Nat) : Nat := d / 2 ^ 36 % 2 ^ 20
def spanRot (d : Nat) : Nat := d / 2 ^ 56 % 16

/-- The cluster-space offset of logical byte `x` of row `k` of tile `t` (R162). -/
def spanOff (d t k x : Nat) : Nat :=
  spanBase d + t * spanTile d + k * spanRow d + (x / 16 + k * spanRot d) % 8 * 16 + x % 16

/-- The MMA operands of an instruction. -/
def mmaOps : Instr → Option MmaOps
  | .spanMmaBf16 _ o | .spanMmaE4m3 _ o _ | .spanMmaE5m2 _ o _ | .spanMmaE2m1 _ o _ | .spanMmaW4bf _ o _
  | .spanMmaWf4bf _ o _ | .spanMmaE4m3B32 _ o _ | .spanMmaE5m2B32 _ o _ | .spanMmaE2m1B32 _ o _ => some o
  | _ => none

/-- The rows of 128 bytes in cluster space that a span operation has still to read (R162). -/
def Access.spanRows (a : Access) : List Nat :=
  let desc (x : SpanSrc) (d t n : Nat) : List Nat := match x with
    | .run _ => []
    | .desc _ => (List.range n).map (fun k => spanBase d + t * spanTile d + k * spanRow d)
  match a.instr with
  | .spanRbox _ _ _ b t => desc (.desc b) (a.aux.getD 3 0) t 6
  | i => match mmaOps i with
    | some o => desc o.a (a.aux.getD 2 0) o.aTile 32 ++ desc o.b (a.aux.getD 3 0) o.bTile 32
    | none => []

/-- An earlier span operation of the wave has still to read these bytes, or a running walk of it to read or write them (R177, R217). A walk
that has stopped counts as ended (assumption log 84). -/
def State.behindSpan (s : State) (w : Wave) (op : Nat) (sp : Space) (addr len : Nat) : Bool :=
  w.ops.any (fun o => o.op < op && o.spanRows.any (fun r => s.meets w sp addr len .cluster r 128))
    || s.walks.any (fun k => k.wave == w.uid && k.op < op && !k.stopped
      && (s.meets w sp addr len .cluster k.stage 0x4000
        || (sp.mapped && (List.range (k.total - k.n)).any (fun j => (List.range 64).any (fun r =>
          s.meets w sp addr len .device ({ k with fetch := k.n + j }.unitAt (8 * r)).1 128)))))

/-- Every unit of a scratch or cluster side lies in its space (R184, R216). No single step of a walk can leave the space and
come back to it modulo 2^32, so the extremes decide. -/
def sideFits (size : Nat) (base : Nat) (r : Int × Int) : Bool :=
  decide (0 ≤ (base : Int) + r.1) && decide ((base : Int) + r.2 + 16 ≤ (size : Int))

/-- The range check of a copy's scratch and cluster sides. -/
def State.copyFits (s : State) (w : Wave) (c : CopyOp) : Bool :=
  let size (clu : Bool) : Nat := s.spaceSize w (if clu then .cluster else .scratch)
  if c.rows.isEmpty then
    let lv := c.levels.getD []
    (c.dir.1.srcDev || sideFits (size c.dir.1.srcClu) c.src (strideRange lv false))
      && (c.dir.1.dstDev || sideFits (size c.dir.1.dstClu) c.dst (strideRange lv true))
  else c.rows.all (fun r => c.dst + r.1 * c.rowLen + c.rowLen ≤ size c.dir.1.dstClu)

/-! ## Sync words (R199, R200) -/

/-- The word after an arrival of `k` bytes. -/
def syncArrive (word : List Byte) (k : Nat) : List Byte :=
  let target := ofBytes (word.take 4)
  let c := ofBytes ((word.drop 4).take 4) + k
  let gen := ofBytes ((word.drop 8).take 2)
  if target = 0 then toBytes 4 target ++ toBytes 4 (c % 2 ^ 32) ++ word.drop 8
  else toBytes 4 target ++ toBytes 4 (c % target) ++ toBytes 2 ((gen + c / target) % 2 ^ 16) ++ word.drop 10

/-- Generation `g` has passed when SYNC_GEN reads `now` (R200). For the generations of barriers, where the manual states no comparison,
it is the model's choice (assumption log 99). -/
def genPassed (now g : Nat) : Bool :=
  let d := (now + 2 ^ 16 - g % 2 ^ 16) % 2 ^ 16
  1 ≤ d && d ≤ 0x7FFF

/-! ## Issue of copies (R215, R216, R219) -/

/-- A core has room for `n` more copies in flight (R215): a running walk counts as the two step copies it may have. -/
def State.copyRoom (s : State) (core n : Nat) : Bool :=
  (s.copies.filter (fun c => c.core == core)).length + 2 * (s.walks.filter (fun k => k.core == core && !k.stopped)).length + n ≤ 1024

/-- A wave may issue one more copy (R215, R380). -/
def State.mayCopy (s : State) (w : Wave) : Bool :=
  (s.copies.filter (fun c => c.wave == w.uid && c.stopped)).length < 4 && s.copyRoom w.core 1

/-- The optional sync word operand. -/
def syncOf (rf : RegFile) (lit : Word) (lane : Nat) (c : Option Src) : Option Nat := c.map (fun x => (x.read rf lit lane).toNat)

/-- A copy is issued: its flag stays set until every unit is written and counted (R217). -/
def State.issueCopy (s : State) (i : Issue) (c : CopyOp) : State :=
  let w1 := i.w.bind s.fresh i.flag
  { s with copies := s.copies ++ [c], fresh := s.fresh + 1 }.retire i w1

/-- The sides of a copy. -/
def CopyOp.srcSpace (c : CopyOp) : Space := if c.dir.1.srcDev then .device else if c.dir.1.srcClu then .cluster else .scratch
def CopyOp.dstSpace (c : CopyOp) : Space := if c.dir.1.dstDev then .device else if c.dir.1.dstClu then .cluster else .scratch

/-- An earlier copy of the wave has still to move a unit from or to these bytes (R217). -/
def State.behindCopies (s : State) (w : Wave) (op : Nat) (sp : Space) (addr len : Nat) : Bool :=
  s.copies.any (fun c => c.wave == w.uid && c.op < op && (List.range (c.total - c.upto)).any (fun j =>
    let k := c.upto + j
    !c.done.contains k && (s.meets w sp addr len c.srcSpace (c.unitAt k).1 16 || s.meets w sp addr len c.dstSpace (c.unitAt k).2 16)))

/-- EARLIER ACCESSES OF THE WAVE TO SOME BYTES ARE PERFORMED where a copy reads and writes them (R217): its stores and atomics, its waybill,
its copies, its span operations and what it could have seen of others. -/
def State.copyClear (s : State) (w : Wave) (op : Nat) (sp : Space) (addr len : Nat) : Bool :=
  !s.behindOwn w op sp addr len && !s.behindCopies w op sp addr len && !s.behindSpan w op sp addr len
    && !w.waybill.any (fun o => o.op < op && o.pieces.any (fun p => s.meets w sp addr len .device p.addr p.len))
    && (!sp.mapped || (match s.xlate w (Want.load true) addr with
      | .ok m => s.mayReadAt w 3 m.pa len
      | .bad _ _ _ | .unbound | .refused => true))

/-- A translation that an access at the home uses: the translator keeps it, and the home classifies the page (R193, R194, R348). -/
def State.atHomeOf (s : State) (w : Wave) (addr : Nat) (m : Mapped) : State := (s.noteMaps w [m]).atHomeAs w.core w.ctx addr m

/-- Bytes as a copy reads them at the home (R185, R217): with the frame stores that its wave sees. -/
def State.copyBytes (s : State) (w : Wave) (pa n : Nat) : List Byte := s.overlay (s.seesFrame w none) pa (s.bytesAt pa n)

/-- The 64 bytes of a loop descriptor for operation `op` as the home gives them to the core, and whether they are in uncorrectable error,
or what reading them meets. The
wave's earlier accesses to those bytes come first, for a SPAN.LOOP as for a copy (R217; assumption log 83): until they have, the read
waits as one does that is refused. -/
def State.readLoop (s : State) (w : Wave) (op : Nat) (want : Want) (va : Nat) : Except (Nat × Tr) (State × List Byte × Bool) :=
  match s.xlate w want va with
  | .ok m =>
    let t := s.atHomeOf w va m
    if s.copyClear w op .device va 64 then .ok (t, t.copyBytes w m.pa 64, s.bad.contains (m.pa / 64)) else .error (va, .refused)
  | t => .error (va, t)

/-- CPY (R215, R216). Uncorrectable data in its loop descriptor stops it at once, as data of a unit does (R211, R218). -/
def execCpy (g : Guard) (a b : Src) (sync : Option Src) (desc : Fin 48) (dir : CpyDir) (shw : Bool) (s : State) : Out State :=
  let side (dev : Bool) (x : Src) : List RegId := if dev then x.regsRun 2 else x.regs
  memIssue g (side dir.srcDev a ++ side dir.dstDev b ++ Src.regsOpt sync ++ (Src.s desc).regsRun 2) [] (fun s i q =>
    let l := (lowestLane q).getD 0
    let rf := i.w.rf
    let lit := i.c.head.lit
    let val (dev : Bool) (x : Src) : Nat := if dev then (x.read64 rf lit .zext l).toNat else (x.read rf lit l).toNat
    let da := ((Src.s desc).read64 rf lit .zext l).toNat
    let c : CopyOp :=
      { op := s.fresh, wave := i.w.uid, core := i.w.core, instr := .cpy g a b sync desc dir shw, word := i.word, addr := i.addr,
        hdr := i.c.addr, mask := q, src := val dir.srcDev a, dst := val dir.dstDev b, desc := da, sync := syncOf rf lit l sync,
        levels := none, rows := [], upto := 0, done := [], counted := 0, stopped := false, dead := false }
    let misaligned := c.src % 16 != 0 || c.dst % 16 != 0 || (c.sync.getD 0) % 16 != 0
    let syncOut := match c.sync with
      | some o => decide (s.spaceSize i.w (if dir.syncClu then .cluster else .scratch) < o + 16)
      | none => false
    if !s.mayCopy i.w then none
    else if da % 64 != 0 then some (s.illegal i 0x14)
    else match s.readLoop i.w s.fresh Want.copyRead da with
      | .error (va, t) =>
        match t with
        | .refused => none
        | .unbound => some (s.accessFault i.w s.fresh va Want.copyRead t i.word i.addr i.c.addr none)
        | _ =>
          if i.w.post.isSome then some (s.accessFault i.w s.fresh va Want.copyRead t i.word i.addr i.c.addr none)
          else if syncOut then some (s.illegal i 0x15)
          else if misaligned then some (s.illegal i 0x17)
          else
            some ((s.openFault i.w s.fresh va Want.copyRead (match t with | .bad k _ _ => k | _ => 0)
              (match t with | .bad _ k _ => k | _ => 0) (match t with | .bad _ _ k => k | _ => 0) (some [0])).issueCopy i
              { c with stopped := true })
      | .ok (t, bs, bad) =>
        if bad then
          if i.w.post.isSome then some (s.machineCheck i.w i.word i.addr i.c.addr)
          else if syncOut then some (s.illegal i 0x15)
          else if misaligned then some (s.illegal i 0x17)
          else some (t.issueCopy i { c with dead := true })
        else match parseLoop bs 16 with
        | none => some (s.illegal i 0x14)
        | some lv =>
          let c1 := { c with levels := some lv }
          if !s.copyFits i.w c1 || syncOut then some (s.illegal i 0x15)
          else if misaligned then some (s.illegal i 0x17)
          else some (t.issueCopy i c1)) s

/-- CPYX (R219): one row for each qualifying lane. -/
def execCpyx (g : Guard) (a : Fin 192) (b : Src) (sync : Option Src) (clu : Bool) (row : Fin 9) (s : State) : Out State :=
  memIssue g (vRun a 2 ++ b.regs ++ Src.regsOpt sync) [] (fun s i q =>
    let l := (lowestLane q).getD 0
    let rf := i.w.rf
    let lit := i.c.head.lit
    let rows := (lanesOf q).map (fun k => (k, ((Src.v a).read64 rf lit .zext k).toNat))
    let c : CopyOp :=
      { op := s.fresh, wave := i.w.uid, core := i.w.core, instr := .cpyx g a b sync clu row, word := i.word, addr := i.addr,
        hdr := i.c.addr, mask := q, src := 0, dst := (b.read rf lit l).toNat, desc := 0, sync := syncOf rf lit l sync, levels := none,
        rows := rows, upto := 0, done := [], counted := 0, stopped := false, dead := false }
    let syncOut := match c.sync with
      | some o => decide (s.spaceSize i.w (if clu then .cluster else .scratch) < o + 16)
      | none => false
    if !s.mayCopy i.w then none
    else if !s.copyFits i.w c || syncOut then some (s.illegal i 0x15)
    else if rows.any (fun r => r.2 % 16 != 0) || c.dst % 16 != 0 || (c.sync.getD 0) % 16 != 0 then some (s.illegal i 0x17)
    else some (s.issueCopy i c)) s

/-! ## A unit (R200, R216 to R218) -/

def State.putCopy (s : State) (c : CopyOp) : State := { s with copies := replaceBy (fun x => x.op == c.op) c s.copies }

/-- The prefix of done units grows over units already done beyond it; at most `fuel` of them. -/
def CopyOp.absorb (c : CopyOp) : Nat → CopyOp
  | 0 => c
  | n + 1 => if c.done.contains c.upto then { c with upto := c.upto + 1, done := c.done.filter (fun k => k != c.upto) }.absorb n
             else c

/-- ARRIVALS MAY BE COUNTED INTO THE SYNC WORD (R196, R217): every earlier access of the wave to it has been performed, the arrivals of its
earlier copies among them, and nothing keeps back a write of the wave. -/
def State.syncClear (s : State) (w : Wave) (c : CopyOp) : Bool :=
  let sp (x : CopyOp) : Space := if x.dir.1.syncClu then .cluster else .scratch
  w.mayPerform c.op c.mask true && (match c.sync with
    | some o => !s.behindOwn w c.op (sp c) o 16 && !s.behindCopies w c.op (sp c) o 16 && !s.behindSpan w c.op (sp c) o 16
        && !s.copies.any (fun x => x.wave == w.uid && x.op < c.op && x.sync.any (fun p => s.meets w (sp x) p 16 (sp c) o 16))
    | none => true)

/-- Units of the prefix are counted into the sync word (R200): at once, or, where the device batches them, once 256 bytes
stand or the copy ends (R216); later, where they may not yet. -/
def State.countUnits (s : State) (w : Wave) (c : CopyOp) (wait : Bool) : State :=
  let n := c.upto - c.counted
  if n = 0 || (wait && n < 16 && c.upto < c.total) || !s.syncClear w c then s.putCopy c
  else
    let s1 := match c.sync with
      | some o =>
        let clu := c.dir.1.syncClu
        s.setPad w clu o (syncArrive (s.padBytes w clu o 16) (16 * n))
      | none => s
    s1.putCopy { c with counted := c.upto }

/-- The copy stops (R218): the prefix is counted as far as it may be, what lies beyond is copied again after REPLAY. -/
def State.stopCopy (s : State) (w : Wave) (c : CopyOp) (dead : Bool) : State × CopyOp :=
  let s1 := s.countUnits w c false
  let c1 := (s1.copies.find? (fun x => x.op == c.op)).getD c
  let c2 := { c1 with upto := c1.counted, done := [], stopped := !dead, dead := dead }
  (s1.putCopy c2, c2)

/-- A copy whose every unit is written and counted is complete for its flag (R217). -/
def State.settleCopy (s : State) (op : Nat) : State :=
  match s.copies.find? (fun c => c.op == op) with
  | none => s
  | some c =>
    if c.upto = c.total && c.counted = c.upto && (c.levels.isSome || !c.rows.isEmpty) then
      let s1 := { s with copies := s.copies.filter (fun x => x.op != op) }
      match s1.wave? c.wave with
      | some w => s1.putWave (w.complete op)
      | none => s1
    else s

/-- A stopped copy whose REPLAY has arrived reads its descriptor again if it has not yet (R216); a failed check is ILLEGAL
against the wave, and uncorrectable data stops it for good (R211). Until a unit of
it has moved it stays the waiter whose retry this is (R354). -/
def State.resumeCopy (s : State) (w : Wave) (c : CopyOp) : State :=
  if c.levels.isSome || !c.rows.isEmpty then s.putCopy { c with stopped := false }
  else match s.readLoop w c.op Want.copyRead c.desc with
    | .error (va, t) => s.accessFault w c.op va Want.copyRead t c.word c.addr c.hdr (some [0])
    | .ok (t, bs, bad) =>
      if bad then s.putCopy { c with dead := true }
      else match parseLoop bs 16 with
      | none => s.uncontained w (s.reportOf w 0x22 0x14 c.word c.addr c.hdr)
      | some lv =>
        if s.copyFits w { c with levels := some lv } then
          t.putCopy { c with levels := some lv, stopped := false }
        else s.uncontained w (s.reportOf w 0x22 0x15 c.word c.addr c.hdr)

/-- A SOURCE UNIT IS READ at the home or in a scratchpad (R193, R215): its bytes and where they lie, or what reading them meets. A
postilion's physical address may lie in the management window, which `rd` reads (R365, R366), or outside the package. -/
def State.copySource (s : State) (rd : State → Nat → Nat → List Byte) (w : Wave) (c : CopyOp) (addr : Nat) :
    Except (Nat × Tr) (State × List Byte × Nat) :=
  if c.dir.1.srcDev then
    match s.xlate w (match c.instr with | .spanLoop .. => Want.loopRead | _ => Want.copyRead) addr with
    | .ok m =>
      let t := s.atHomeOf w addr m
      match s.physKind m.pa with
      | .device => .ok (t, t.copyBytes w m.pa 16, m.pa)
      | .window => .ok (t, rd t (m.pa - windowBase) 16, m.pa)
      | .hostDie | .pcie _ | .unused =>
        let r := t.freeBytes 16
        .ok (r.1, r.2, m.pa)
    | t => .error (addr, t)
  else .ok (s, s.padBytes w c.dir.1.srcClu addr 16, 0)

/-- The unit that a copy reads holds an uncorrectable error (R211, R391). -/
def State.sourceSpoilt (s : State) (w : Wave) (c : CopyOp) (addr pa : Nat) : Bool :=
  if c.dir.1.srcDev then s.bad.contains (pa / 64) else s.padSpoilt w c.dir.1.srcClu addr 16

/-- The unit's bytes reach its destination, and the issuing core's cached copies see both sides (R232, R244). What a postilion copies to the
management window or out of the package goes there as its stores do (R365, R366). -/
def State.copyWrite (s : State) (w : Wave) (c : CopyOp) (addr : Nat) (data : List Byte) : Except (Nat × Tr) State :=
  if c.dir.1.dstDev then
    match s.xlate w (Want.copyWrite c.dir.2) addr with
    | .ok m =>
      if s.isIo m then .ok { s with ioWrites := s.ioWrites ++ [IoWrite.mk w.uid c.op m.pa data none] }
      else
        let s1 := (s.atHomeOf w addr m).overFrames w none m.pa data.length
        .ok ((s1.updateLines (s1.sidePlace w.core) m.pa data).homeWrite w.uid c.op m.pa data)
    | t => .error (addr, t)
  else .ok (s.setPad w c.dir.1.dstClu addr data)

/-- A UNIT MAY BE MOVED (R196, R217, R239, R245): the wave's earlier accesses to its bytes come first, and what keeps a write of the wave
back keeps it back too. -/
def State.copyMayRun (s : State) (w : Wave) (c : CopyOp) (src dst : Nat) : Bool :=
  s.powered w && w.mayPerform c.op c.mask true && !w.unitHeld c.op
    && s.copyClear w c.op c.srcSpace src 16 && s.copyClear w c.op c.dstSpace dst 16

/-- A unit that does not translate (R218, R343); it waits while four copies of its wave are stopped (R380). -/
def State.copyFault (s : State) (w : Wave) (c : CopyOp) (want : Want) (x : Nat × Tr) : State :=
  match x.2 with
  | .refused => s
  | .bad _ _ _ =>
    match w.post with
    | none =>
      if 4 ≤ (s.copies.filter (fun x => x.wave == w.uid && x.stopped)).length then s
      else
      let r := s.stopCopy w c false
      r.1.accessFault w c.op x.1 want x.2 c.word c.addr c.hdr (some r.2.iter)
    | some _ => s.accessFault w c.op x.1 want x.2 c.word c.addr c.hdr none
  | _ => s.accessFault w c.op x.1 want x.2 c.word c.addr c.hdr none

/-- A COPY UNIT (R216 to R218): 16 bytes read whole and written whole, at any place in the walk, a later unit never before an
earlier one of the same destination. -/
def State.copyUnit (s : State) (rd : State → Nat → Nat → List Byte) (op k : Nat) : State :=
  match s.copies.find? (fun c => c.op == op) with
  | none => s
  | some c =>
    match s.wave? c.wave with
    | none => s
    | some w =>
      let restoring := match s.gang? w.gang with | some g => g.state == .restoring | none => false
      if c.dead || restoring || (c.stopped && s.blocked c.wave op) then s
      else if c.stopped then s.resumeCopy w c
      else if c.upto = c.total then (if s.powered w then (s.countUnits w c false).settleCopy op else s)
      else if k < c.upto || c.total ≤ k || c.done.contains k then s
      else
        let u := c.unitAt k
        let ahead := (List.range (k - c.upto)).any (fun j =>
          !c.done.contains (c.upto + j) && overlap (c.unitAt (c.upto + j)).2 16 u.2 16)
        if ahead || !s.copyMayRun w c u.1 u.2 then s
        else match s.copySource rd w c u.1 with
          | .error x => s.copyFault w c Want.copyRead x
          | .ok (s1, data, pa) =>
            if s.sourceSpoilt w c u.1 pa then
              (if w.post.isSome then s.machineCheck w c.word c.addr c.hdr else (s.stopCopy w c true).1)
            else match s1.copyWrite w c u.2 data with
              | .error x => s.copyFault w c (Want.copyWrite c.dir.2) x
              | .ok t =>
                let t1 := if c.dir.1.srcDev then t.updateLines (t.sidePlace w.core) pa data else t
                let c1 := if k = c.upto then { c with upto := k + 1 }.absorb c.done.length
                          else { c with done := c.done ++ [k] }
                let t1 := if k = c.upto then t1.unwait w.uid op else t1
                ({ t1 with choices := t1.choices.drop 1 }.countUnits w c1 (s.choices.headD 0 % 2 == 1)).settleCopy op

/-! ## Sync-word instructions (R220, R221) -/

/-- SYNCI (R220). -/
def execSynci (g : Guard) (a b : Src) (c : Option Src) (clu : Bool) (s : State) : Out State :=
  memIssue g (a.regs ++ b.regs ++ Src.regsOpt c) [] (fun s i q =>
    let l := (lowestLane q).getD 0
    let off := (a.read i.w.rf i.c.head.lit l).toNat
    if s.spaceSize i.w (if clu then .cluster else .scratch) < off + 16 then some (s.illegal i 0x15)
    else if off % 16 != 0 then some (s.illegal i 0x17)
    else
      let target := (b.read i.w.rf i.c.head.lit l).toNat
      let gen := match c with | some x => [(x.read i.w.rf i.c.head.lit l).toNat % 2 ^ 16] | none => []
      let p : Piece := { lane := l, addr := off, len := 16, x := [], y := [], got := [], done := false }
      some (s.issueOp i (i.access s (.synci g a b c clu) q [p] (target :: gen)) [] true)) s

/-- SYNCI is performed (R220): one write of the whole word. -/
def State.synciStep (s : State) (w : Wave) (a : Access) (clu : Bool) : State :=
  match a.pieces with
  | p :: _ =>
    if w.unitHeld a.op || s.behindOwn w a.op (if clu then .cluster else .scratch) p.addr 16 || !w.mayPerform a.op a.mask true then s
    else
      let old := s.padBytes w clu p.addr 16
      let gen := match a.aux with | _ :: g :: _ => toBytes 2 g | _ => (old.drop 8).take 2
      (s.setPad w clu p.addr (toBytes 4 (a.aux.headD 0) ++ toBytes 4 0 ++ gen ++ toBytes 6 0)).putOp w.uid
        { a with pieces := [{ p with done := true }] }
  | [] => s

/-- SYNCW (R221); its path's lanes wait with their later accesses for its acquire read (R239). -/
def execSyncw (g : Guard) (d : Option Dst) (a b : Src) (clu : Bool) (s : State) : Out State :=
  let rd := match d with | some x => x.regs | none => []
  memIssue g (a.regs ++ b.regs) rd (fun s i q =>
    let l := (lowestLane q).getD 0
    let off := (a.read i.w.rf i.c.head.lit l).toNat
    if s.spaceSize i.w (if clu then .cluster else .scratch) < off + 16 then some (s.illegal i 0x15)
    else if off % 16 != 0 then some (s.illegal i 0x17)
    else
      let gen := (b.read i.w.rf i.c.head.lit l).toNat % 2 ^ 16
      some (s.issueOp i (i.access s (.syncw g d a b clu) q [] [off, gen, i.p.lanes.toNat]) rd true)) s

/-- SYNCW completes once its generation has passed (R221). -/
def State.syncwStep (s : State) (w : Wave) (a : Access) (d : Option Dst) (clu : Bool) : State :=
  let off := a.aux.getD 0 0
  let now := ofBytes ((s.padBytes w clu off 16).drop 8 |>.take 2)
  if w.unitHeld a.op || s.behindOwn w a.op (if clu then .cluster else .scratch) off 16 || !w.mayPerform a.op a.awaitedBy false then s
  else if genPassed now (a.aux.getD 1 0) then
    let w1 := match d with
      | some x => w.writeBack a.op (fun rf => rf.write x a.mask (fun _ => BitVec.ofNat 32 now))
      | none => w
    (s.putWave (s.acquire w1 (if clu then .clu else .wg))).putOp w.uid a
  else s

/-! ## Fences (R222 to R224) -/

/-- FENCE (R222). -/
def execFence (g : Guard) (t : Attr) (s : State) : Out State :=
  memIssue g [] [] (fun s i q => some (s.issueOp i (i.access s (.fence g t) q [] []) [] true)) s

/-- FENCE.XP (R223). -/
def execFenceXp (g : Guard) (t : Attr) (s : State) : Out State :=
  memIssue g [] [] (fun s i q => some (s.issueOp i (i.access s (.fenceXp g t) q [] []) [] true)) s

/-- FENCE.PT (R224). -/
def execFencePt (g : Guard) (s : State) : Out State :=
  memIssue g [] [] (fun s i q => some (s.issueOp i (i.access s (.fencePt g) q [] []) [] true)) s

/-- The table caches within a scope (R223). -/
def State.tablesIn (s : State) (w : Wave) (sc : Scope) (core : Nat) : Bool :=
  match sc with
  | .wave | .wg => core == w.core
  | .clu => if w.core < 256 then core / 4 == w.core / 4 else core == w.core
  | .die => spokeOfCore core == spokeOfCore w.core
  | .dev | .sys => match s.ctx? w.ctx with
    | some c => (List.range 8).any (fun n => c.site n == some (spokeOfCore core))
    | none => true

/-- Lines of every context leave the table caches of a scope (R223). -/
def State.dropTables (s : State) (w : Wave) (sc : Scope) : State :=
  { s with lines := s.lines.filter (fun l => match l.place with
      | .table c => !s.tablesIn w sc c
      | .l1 _ | .l2 _ => true) }

/-- A fence completes when its parts are done (R222 to R224), and every SYNCW of its lanes before it is (R221, R240). -/
def State.fenceStep (s : State) (w : Wave) (a : Access) : State :=
  if !w.mayPerform a.op a.mask false then s
  else match a.instr with
  | .fence _ t =>
    let st := s.stageOf w.core t.scope
    if (orderAcq t.order && !s.mayAcquire w st) || (orderRel t.order && !s.released w a.op st) then s
    else
      let w1 := if orderAcq t.order then s.acquire w t.scope else w
      (s.putWave w1).putOp w.uid a
  | .fenceXp _ t =>
    let st := s.stageOf w.core t.scope
    if !s.mayAcquire w st || !s.released w a.op st then s
    else ((s.putWave (s.acquire w t.scope)).dropTables w t.scope).putOp w.uid a
  | .fencePt _ =>
    if !s.mayAcquire w 3 || !s.released w a.op 3 || s.ptPend.any (fun p => p.wave == w.uid && p.op < a.op) then s
    else (s.putWave (s.acquire w .sys)).putOp w.uid a
  | _ => s

/-! ## PUBLISH (R226, R227) -/

/-- PUBLISH: the entry's address, the value expected and the new one from the lowest qualifying lane. -/
def execPublish (g : Guard) (d : Dst) (a b c : Src) (s : State) : Out State :=
  memIssue g (a.regsRun 2 ++ b.regsRun 2 ++ c.regsRun 2) (d.regsRun 2) (fun s i q =>
    let l := (lowestLane q).getD 0
    let val (x : Src) : Nat := (x.read64 i.w.rf i.c.head.lit .zext l).toNat
    if val a % 8 != 0 then some (s.illegal i 0x16)
    else
      let p : Piece := { lane := l, addr := val a, len := 8, x := toBytes 8 (val c), y := toBytes 8 (val b), got := [], done := false }
      some (s.issueAccess i (i.access s (.publish g d a b c) q [p] []) (d.regsRun 2))) s

/-- The steps of PUBLISH (R226): its release, with every copy of the wave complete, and the rest of its fence part (R240); the swap at the
home; the completion point of a swap that wrote. A postilion's that names a physical address outside device memory goes as an ATH.CAS would
(assumption log 96). -/
def State.publishStep (s : State) (w : Wave) (a : Access) : State :=
  match a.pieces with
  | [] => s
  | p :: _ =>
    let give (t : State) (old : List Byte) : State :=
      let all := (lanesOf a.mask).map (fun l => { p with lane := l, got := old, done := true })
      t.finishAccess (s.acquire w .sys) { a with pieces := all }
    if a.started then
      if s.ptPend.any (fun x => x.wave == w.uid && x.op == a.op) then s else give s p.got
    else if s.blocked w.uid a.op || w.unitHeld a.op || !w.mayPerform a.op a.mask true || !s.released w a.op 3
        || s.copies.any (fun c => c.wave == w.uid && c.op < a.op) then s
    else match s.xlate w Want.publish p.addr with
      | .ok m =>
        if s.isIo m then
          if s.ioCarries .cas m.pa then
            let f := s.freeBytes 8
            give f.1 f.2
          else s.atomicPath w 0x2 p.addr Want.publish a.word a.addr a.hdr
        else if s.bad.contains (m.pa / 64) then s.machineCheck w a.word a.addr a.hdr
        else
          let r := (s.noteMaps w [m]).rmwBytes w a.op p.lane m p.addr m.pa 8 3 0 (fun old => if old == p.y then some p.x else none)
          if r.2 == p.y then
            r.1.putWave { s.acquire w .sys with access := some { a with started := true, pieces := [{ p with got := r.2, done := true }] } }
          else give r.1 r.2
      | t => s.accessFault w a.op p.addr Want.publish t a.word a.addr a.hdr none

/-! ## Translators and renewals -/

/-- An address of a context lies in the ranges of a page-table write. -/
def PtPend.inside (p : PtPend) (ctx va : Nat) : Bool := p.ranges.any (fun r => r.1 == ctx && r.2.1 ≤ va && va < r.2.1 + r.2.2)

/-- The context of a wave's translations. -/
def State.ctxIdOf (s : State) (w : Wave) : Nat :=
  match w.post with
  | none => w.ctx
  | some site => (s.posts.getD site (.reset site)).ctx

/-- An access in flight uses a translation under the old entry. -/
def State.usesOld (s : State) (p : PtPend) (w : Wave) (a : Access) : Bool := a.maps.any (fun m => p.inside (s.ctxIdOf w) m.va)

/-- An access has taken effect in part and is finished under the translations it has: not a load. -/
def Access.partly (a : Access) : Bool := a.started && (a.writes || a.fixed)

/-- What a wave has in flight. -/
def Wave.inHand (w : Wave) : List Access := w.access.toList ++ w.ops

/-- The access is to be translated, and a load of it read, again (R350). -/
def Access.discard (a : Access) : Access :=
  { a with maps := [], started := false, pieces := a.pieces.map (fun (p : Piece) => { p with got := [], done := false }) }

/-- Accesses in flight that used the old entry are discarded, to be translated again (R350). -/
def State.discardOld (s : State) (p : PtPend) : State :=
  let go (w : Wave) (a : Access) : Access := if s.usesOld p w a then a.discard else a
  { s with waves := s.waves.map (fun (w : Wave) => { w with access := w.access.map (go w), ops := w.ops.map (go w) }) }

/-- A PAGE-TABLE WRITE COMPLETES (R350): the accesses in flight that used the old entry have been performed, where one of their wave's has
begun, or are discarded; what was derived from it is invalidated; dirty sectors under its range are written back through the old mapping,
with every write to their pages that is in flight (R232); copies are dropped; and the pages become unowned. -/
def State.ptComplete (s : State) (num : Nat) : State :=
  match s.ptPend.find? (fun p => p.num == num) with
  | none => s
  | some p =>
    if s.waves.any (fun w => w.inHand.any (s.usesOld p w) && w.inHand.any Access.partly) then s
    else
      let old := s.tlb.filter (fun t => t.from p.pte)
      let mapped (page : Nat) : Bool := old.any (fun t => t.pa / 4096 ≤ page && page < (t.pa + t.size) / 4096)
      let gone (pa : Nat) : Bool := mapped (pa / 4096)
        || s.writes.any (fun x => p.inside x.ctx x.va && x.pa / 4096 == pa / 4096)
      let s1 := (s.discardOld p).landAll (fun x => gone x.pa)
      { s1 with
        tlb := s1.tlb.filter (fun t => !t.from p.pte)
        lines := s1.lines.filter (fun l => !p.inside l.ctx l.va && !gone l.pa)
        classes := s1.classes.filter (fun c => !mapped c.1
          && !(match c.2 with | .owned _ ctx va => p.inside ctx (va * 4096) | .shared => false))
        ptPend := s1.ptPend.filter (fun x => x.num != num) }

/-- A LEASE RENEWAL RETURNS (R195, R196, R373): the same version confirms the value and renews the lease, counted from the tick at which
the request was sent; another version, or a lease that ended more than 1 ms before, sends the wave back to its checkpoint. Either way the
copy holds from then on what its die has for it, with every write that stands nearer than the home (R231, R241), and a trap or a stop that
waited for the checkpoint may now be taken (R374, R390). -/
def execLeaseRenewalReturn (wave unconfirmed : Nat) (s : State) : Out State :=
  match s.wave? wave with
  | none => .next s
  | some w =>
    match w.unconf[unconfirmed]? with
    | none => .next s
    | some u =>
      let l1 := s.l1Of w.core u.va
      let here (l : Line) : Bool := l.ctx == w.ctx && l.va == u.va && s.sidePlace w.core l.place
      let b2 := s.overlay (State.inL2 w.core) u.pa (s.bytesAt u.pa 64)
      let fresh (l : Line) : Line :=
        if here l then { l with data := (match l.place with | .l1 _ => s.overlay (State.inL1 l1) u.pa b2 | .l2 _ | .table _ => b2),
                                version := s.version u.pa, born := s.fresh, grant := u.sent, expiry := some (u.sent + u.lease) }
        else l
      if s.version u.pa = u.version && s.tick ≤ u.expired + 100000 then
        let w1 := { w with unconf := w.unconf.eraseIdx unconfirmed }
        .next ((({ s with lines := s.lines.map fresh, fresh := s.fresh + 1 }.putWave w1.settleCkpt).settleTrap wave).settleDbg wave)
      else
        let busy := match w.access with
          | some a => a.fixed
          | none => false
        if busy then .next s
        else .next ({ s with lines := s.lines.map fresh, fresh := s.fresh + 1 }.putWave w.rollback |>.settleTrap wave |>.settleDbg wave)

/-! ## Fault records (R353, R419) -/

/-- FAULT_RECORD_WRITE (R353, R419): the record of an open entry goes to the tail of its context's ring when that has room. -/
def execFaultRecordWrite (fault : Nat) (s : State) : Out State :=
  match s.filters.find? (fun f => f.id == fault && !f.written && !f.replayed) with
  | none => .next s
  | some f =>
    let n := match s.ctx? f.ctx with | some c => c.faultRing | none => (s.readCtx f.ctx).faultRing
    match s.faultRings[n]? with
    | none => .next s
    | some r =>
      let size := 2 ^ r.sizeLog
      if !r.enable || r.sizeLog < 6 || 16 < r.sizeLog || (r.tail + 1) % size = r.head then .next s
      else .next
        { (s.share (r.base + 64 * (r.tail % size))).homeWrite 0 0 (r.base + 64 * (r.tail % size)) (f.record (s.firstCore f)) with
          faultRings := updAt s.faultRings n (fun r => { r with tail := (r.tail + 1) % size })
          filters := s.filters.map (fun x => if x.id == fault then { x with written := true } else x) }

end Sys2Proof.Machine
end

