-- ==== Sys2Proof/Machine/Integer.lean ====
section
/-! DEFINITION. The integer, address and move instructions (R116 to R130). -/

namespace Sys2Proof.Machine

/-! ## Values -/

/-- An add-family result: wrapped, or saturated in S32 or Z32 (R120). -/
def addRes (m : AddMod) (t : Int) : Word × BitVec 6 :=
  match m with
  | .wrap => (wrap32 t, 0)
  | .sat => sat32 false t
  | .satZ => sat32 true t

/-- The operands of an add-family form (R120). -/
def addVal (m : AddMod) (x : Word) : Int :=
  match m with
  | .wrap | .sat => s32 x
  | .satZ => z32 x

/-- IADD (R120). -/
def iaddV (m : AddMod) (x y : Word) : Word × BitVec 6 := addRes m (addVal m x + addVal m y)

/-- ISUB (R120). -/
def isubV (m : AddMod) (x y : Word) : Word × BitVec 6 := addRes m (addVal m x - addVal m y)

/-- IADD3 (R120). -/
def iadd3V (x y z : Word) : Word := wrap32 (s32 x + s32 y + s32 z)

/-- INEG (R120). -/
def inegV (sat : Bool) (x : Word) : Word × BitVec 6 := addRes (if sat then .sat else .wrap) (0 - s32 x)

/-- IABS (R120). -/
def iabsV (sat : Bool) (x : Word) : Word × BitVec 6 := addRes (if sat then .sat else .wrap) (s32 x).natAbs

/-- IMIN and IMAX (R120). -/
def iminV (z : Bool) (x y : Word) : Word := wrap32 (min (rd32 z x) (rd32 z y))
def imaxV (z : Bool) (x y : Word) : Word := wrap32 (max (rd32 z x) (rd32 z y))

/-- The low 24 bits, signed or not (R121). -/
def low24 (z : Bool) (x : Word) : Int := if z then (x.extractLsb' 0 24).toNat else (x.extractLsb' 0 24).toInt

/-- IMUL24 (R121). -/
def imul24V (z : Bool) (x y : Word) : Word := wrap32 (low24 z x * low24 z y)

/-- IMUL24H: bits [47:16] of the product (R121). -/
def imul24hV (z : Bool) (x y : Word) : Word := (BitVec.ofInt 48 (low24 z x * low24 z y)).extractLsb' 16 32

/-- IMAD24 (R121). -/
def imad24V (z : Bool) (x y c : Word) : Word := wrap32 (low24 z x * low24 z y + s32 c)

/-- IMULH: bits [63:32] of the product (R121). -/
def imulhV (z : Bool) (x y : Word) : Word := (BitVec.ofInt 64 (rd32 z x * rd32 z y)).extractLsb' 32 32

/-- LOP3: bit by bit through the table (R123). -/
def lop3V (t : BitVec 8) (a b c : Word) : Word :=
  maskOf (fun i => t.getLsbD ((a.getLsbD i).toNat + 2 * (b.getLsbD i).toNat + 4 * (c.getLsbD i).toNat))

/-- Shifts by an amount that is never masked (R124). -/
def shlV (a n : Word) : Word := a <<< min n.toNat 32
def shrV (a n : Word) : Word := a >>> min n.toNat 32
def shaV (a n : Word) : Word := a.sshiftRight (min n.toNat 32)

/-- SHF (R124). -/
def shfV (left : Bool) (a b c : Word) : Word :=
  let x : Word64 := b ++ a
  let m := min c.toNat 64
  if left then (x <<< m).extractLsb' 32 32 else (x >>> m).extractLsb' 0 32

/-- BFE (R125). -/
def bfeV (sext : Bool) (a b c : Word) : Word :=
  let p := min b.toNat 32
  let n := min c.toNat (32 - p)
  if n = 0 then 0
  else
    let f := a.toNat / 2 ^ p % 2 ^ n
    if sext then BitVec.ofInt 32 (signed n f) else BitVec.ofNat 32 f

/-- BFI (R125). -/
def bfiV (a b c e : Word) : Word :=
  let p := min c.toNat 32
  let n := min e.toNat (32 - p)
  let m : Nat := (2 ^ n - 1) * 2 ^ p
  let hole := BitVec.ofNat 32 m
  (b &&& ~~~hole) ||| (BitVec.ofNat 32 (a.toNat % 2 ^ n * 2 ^ p))

/-- BREV (R126). -/
def brevV (a : Word) : Word := maskOf (fun i => a.getLsbD (31 - i))

/-- POPC (R126). -/
def popcV (a : Word) : Word := BitVec.ofNat 32 (countLanes a)

/-- CLZ: zero bits above the highest set bit (R126). -/
def clzV (a : Word) : Word := if a = 0 then 32 else BitVec.ofNat 32 (31 - Nat.log2 a.toNat)

/-- CTZ: zero bits below the lowest set bit (R126). -/
def ctzV (a : Word) : Word :=
  match lowestLane a with
  | some i => BitVec.ofNat 32 i
  | none => 32

/-- PRMT (R126). -/
def prmtV (a b c : Word) : Word :=
  let x : Word64 := b ++ a
  let byteOf (i : Nat) : Nat :=
    let s := c.toNat / 16 ^ i % 16
    let y := x.toNat / 256 ^ (s % 8) % 256
    if s < 8 then y else if 128 ≤ y then 255 else 0
  BitVec.ofNat 32 (byteOf 0 + 256 * byteOf 1 + 65536 * byteOf 2 + 16777216 * byteOf 3)

/-- LEA (R127). -/
def leaV (shift : Nat) (z : Bool) (a : Word64) (b : Word) : Word64 :=
  a + ((if z then b.zeroExtend 64 else b.signExtend 64) <<< shift)

/-- IADD64 (R127). -/
def iadd64V (sub : Bool) (a b : Word64) : Word64 := if sub then a - b else a + b

/-- MOVI (R128). -/
def moviV (z : Bool) (imm : BitVec 8) : Word := if z then imm.zeroExtend 32 else imm.signExtend 32

/-! ## Meanings -/

def execIadd (g : Guard) (d : Dst) (a b : Src) (m : AddMod) (s : State) : Out State := op2 g d a b (iaddV m) s
def execIadd3 (g : Guard) (d : Dst) (a b c : Src) (s : State) : Out State :=
  op3 g d a b c (fun x y z => (iadd3V x y z, 0)) s
def execIsub (g : Guard) (d : Dst) (a b : Src) (m : AddMod) (s : State) : Out State := op2 g d a b (isubV m) s
def execIneg (g : Guard) (d : Dst) (a : Src) (sat : Bool) (s : State) : Out State := op1 g d a false (inegV sat) s
def execIabs (g : Guard) (d : Dst) (a : Src) (sat : Bool) (s : State) : Out State := op1 g d a false (iabsV sat) s
def execImul24 (g : Guard) (d : Dst) (a b : Src) (z : Bool) (s : State) : Out State :=
  op2 g d a b (fun x y => (imul24V z x y, 0)) s
def execImul24h (g : Guard) (d : Dst) (a b : Src) (z : Bool) (s : State) : Out State :=
  op2 g d a b (fun x y => (imul24hV z x y, 0)) s
def execImad24 (g : Guard) (d : Dst) (a b c : Src) (z : Bool) (s : State) : Out State :=
  op3 g d a b c (fun x y w => (imad24V z x y w, 0)) s
def execImul (g : Guard) (d : Dst) (a b : Src) (s : State) : Out State := op2 g d a b (fun x y => (x * y, 0)) s
def execImulh (g : Guard) (d : Dst) (a b : Src) (z : Bool) (s : State) : Out State :=
  op2 g d a b (fun x y => (imulhV z x y, 0)) s
def execImad (g : Guard) (d : Dst) (a b c : Src) (s : State) : Out State :=
  op3 g d a b c (fun x y w => (x * y + w, 0)) s
def execImin (g : Guard) (d : Dst) (a b : Src) (z : Bool) (s : State) : Out State :=
  op2 g d a b (fun x y => (iminV z x y, 0)) s
def execImax (g : Guard) (d : Dst) (a b : Src) (z : Bool) (s : State) : Out State :=
  op2 g d a b (fun x y => (imaxV z x y, 0)) s

/-- The predicates a pcomb source reads. -/
def pcombRegs (c : PComb) : List RegId := predReg c.p

/-- ISETP (R122). -/
def execIsetp (g : Guard) (d : Fin 8) (a b : Src) (c : PComb) (cmp : ICmp) (z : Bool) (k : PCombine) (s : State) :
    Out State :=
  regIssue g (a.regs ++ b.regs ++ pcombRegs c) (predReg d) false (fun x =>
    noFlags (x.rf.writePred d x.q (fun l =>
      combine k (icmp cmp (rd32 z (a.read x.rf x.lit l)) (rd32 z (b.read x.rf x.lit l))) (x.rf.pcomb c l)))) s

/-- SEL (R123). -/
def execSel (g : Guard) (d : Dst) (a b : Src) (c : PComb) (wide : Bool) (s : State) : Out State :=
  if wide then
    regIssue g (a.regsRun 2 ++ b.regsRun 2 ++ pcombRegs c) (d.regsRun 2) false (fun x =>
      noFlags (x.rf.write64 d x.q (fun l =>
        if x.rf.pcomb c l then a.read64 x.rf x.lit .zext l else b.read64 x.rf x.lit .zext l))) s
  else
    regIssue g (a.regs ++ b.regs ++ pcombRegs c) d.regs false (fun x =>
      noFlags (x.rf.write d x.q (fun l => if x.rf.pcomb c l then a.read x.rf x.lit l else b.read x.rf x.lit l))) s

def execLop3 (g : Guard) (d : Dst) (a b c : Src) (t : BitVec 8) (s : State) : Out State :=
  op3 g d a b c (fun x y z => (lop3V t x y z, 0)) s
def execShl (g : Guard) (d : Dst) (a b : Src) (s : State) : Out State := op2 g d a b (fun x y => (shlV x y, 0)) s
def execShr (g : Guard) (d : Dst) (a b : Src) (s : State) : Out State := op2 g d a b (fun x y => (shrV x y, 0)) s
def execSha (g : Guard) (d : Dst) (a b : Src) (s : State) : Out State := op2 g d a b (fun x y => (shaV x y, 0)) s
def execShf (g : Guard) (d : Dst) (a b c : Src) (left : Bool) (s : State) : Out State :=
  op3 g d a b c (fun x y z => (shfV left x y z, 0)) s
def execBfe (g : Guard) (d : Dst) (a b c : Src) (sext : Bool) (s : State) : Out State :=
  op3 g d a b c (fun x y z => (bfeV sext x y z, 0)) s

/-- BFI has a fifth source operand in E (R125). -/
def execBfi (g : Guard) (d : Dst) (a b c e : Src) (s : State) : Out State :=
  regIssue g (a.regs ++ b.regs ++ c.regs ++ e.regs) d.regs false (fun x =>
    noFlags (x.rf.write d x.q (fun l =>
      bfiV (a.read x.rf x.lit l) (b.read x.rf x.lit l) (c.read x.rf x.lit l) (e.read x.rf x.lit l)))) s

def execBrev (g : Guard) (d : Dst) (a : Src) (s : State) : Out State := op1 g d a false (fun x => (brevV x, 0)) s
def execPopc (g : Guard) (d : Dst) (a : Src) (s : State) : Out State := op1 g d a false (fun x => (popcV x, 0)) s
def execClz (g : Guard) (d : Dst) (a : Src) (s : State) : Out State := op1 g d a false (fun x => (clzV x, 0)) s
def execCtz (g : Guard) (d : Dst) (a : Src) (s : State) : Out State := op1 g d a false (fun x => (ctzV x, 0)) s
def execPrmt (g : Guard) (d : Dst) (a b c : Src) (s : State) : Out State :=
  op3 g d a b c (fun x y z => (prmtV x y z, 0)) s

/-- LEA: a literal read as the address is zero-extended (R127). -/
def execLea (g : Guard) (d : Dst) (a b : Src) (shift : Fin 32) (z : Bool) (s : State) : Out State :=
  regIssue g (a.regsRun 2 ++ b.regs) (d.regsRun 2) false (fun x =>
    noFlags (x.rf.write64 d x.q (fun l => leaV shift z (a.read64 x.rf x.lit .zext l) (b.read x.rf x.lit l)))) s

/-- IADD64: literals are sign-extended (R66, R127). -/
def execIadd64 (g : Guard) (d : Dst) (a b : Src) (sub : Bool) (s : State) : Out State :=
  op2w g d a b .sext (fun x y => (iadd64V sub x y, 0)) s

/-- MOV (R128). -/
def execMov (g : Guard) (d : Dst) (a : Src) (wide : Bool) (s : State) : Out State :=
  if wide then
    regIssue g (a.regsRun 2) (d.regsRun 2) false (fun x =>
      noFlags (x.rf.write64 d x.q (fun l => a.read64 x.rf x.lit .zext l))) s
  else op1 g d a false (fun x => (x, 0)) s

def execMovi (g : Guard) (d : Dst) (imm : BitVec 8) (z : Bool) (s : State) : Out State :=
  regIssue g [] d.regs false (fun x => noFlags (x.rf.write d x.q (fun _ => moviV z imm))) s

/-- PLOP3 (R123). -/
def execPlop3 (g : Guard) (d a b c : Fin 8) (t : BitVec 8) (s : State) : Out State :=
  regIssue g (predReg a ++ predReg b ++ predReg c) (predReg d) false (fun x =>
    noFlags (x.rf.writePred d x.q (fun l =>
      t.getLsbD ((x.rf.pred a l).toNat + 2 * (x.rf.pred b l).toNat + 4 * (x.rf.pred c l).toNat)))) s

/-! ## Special registers (R45 to R48, R129, R130, R365) -/

/-- A postilion register (R365). -/
def postReg (p : Post) (n : Nat) : Word :=
  match n with
  | 0x80 => p.siteReg.zeroExtend 32
  | 0x81 => BitVec.ofNat 32 p.ctx
  | 0x82 => p.event
  | 0x84 => p.fvaLo
  | 0x85 => p.fvaHi
  | 0x86 => p.finfo
  | _ => 0

/-- DIEBINDn as it reads (R48): SITE reads 0 when BOUND is 0, and the reserved bits read 0. -/
def bindRead (b : BitVec 8) : Nat := if b.getLsbD 7 then 128 + b.toNat % 8 else 0

/-- The registers of a workgroup, a batch, a place in a cluster or a cluster itself: WGID, BATCHSEQ, WGCOUNT, GANGPOS, LOCUS, PASSC,
LATERANK, FREQSTEP and REGIONID (R45). -/
def placedRegs : List Nat := [0x02, 0x03, 0x04, 0x05, 0x0A, 0x18, 0x19, 0x1A, 0x29]

/-- The bits of such a register within its width (R45, R48). -/
def placedBits (n : Nat) : Word :=
  BitVec.ofNat 32 (2 ^ (match n with | 0x05 => 4 | 0x0A => 10 | 0x18 => 3 | 0x19 => 20 | 0x1A => 5 | 0x29 => 16 | _ => 32) - 1)

/-- The value of a special register of a wave in a lane (R45, R48). -/
def State.waveSpecial (s : State) (w : Wave) (act : LaneMask) (n lane : Nat) : Word :=
  let cl := s.cluster (clusterOfCore w.core)
  let pt := Map.get { hdr := 0, idx := 0, waitOnly := false } w.trap.pts lane
  let back := w.trap.returned.getLsbD lane || !w.trap.inHandler
  match n with
  | 0x00 => BitVec.ofNat 32 lane
  | 0x01 => BitVec.ofNat 32 w.idx
  | 0x02 => BitVec.ofNat 32 (match s.wg? w.wg with | some g => g.lid | none => 0)
  | 0x03 => BitVec.ofNat 32 (match s.batch? w.batch with | some b => b.seq | none => 0)
  | 0x04 => BitVec.ofNat 32 (match s.batch? w.batch with | some b => b.count | none => 0)
  | 0x05 => BitVec.ofNat 32 ((match s.wg? w.wg with | some g => g.member | none => 0) + 4 * (s.descOf w).gang)
  | 0x06 => BitVec.ofNat 32 w.role
  | 0x07 => BitVec.ofNat 32 w.budget
  | 0x08 => act
  | 0x0A => BitVec.ofNat 32 (w.idx % 4 + 4 * (w.core % 4) + 16 * (w.core / 4 % 8) + 128 * w.vdie)
  | 0x10 => w.rf.fpstat.zeroExtend 32
  | 0x12 => Map.get 1 w.rf.seed lane
  | 0x14 => BitVec.ofNat 32 (((List.range 6).filter (fun m => 32 * m + 31 < w.budget && !w.spanHeld.getLsbD m)).foldl
      (fun a m => a + 2 ^ m) 0)
  | 0x18 => BitVec.ofNat 32 cl.passc
  | 0x19 => BitVec.ofNat 32 (cl.lateSum + 65536 * cl.rank)
  | 0x1A => BitVec.ofNat 32 cl.freq
  | 0x28 => BitVec.ofNat 32 w.ctx
  | 0x29 => BitVec.ofNat 32 (s.regionOf w)
  | 0x30 => BitVec.ofNat 32 s.tick
  | 0x31 => w.rf.timeHi
  | 0x38 => if w.trap.inHandler then BitVec.ofNat 32 w.trap.code else 0
  | 0x39 => if back then 0 else pt.pc.extractLsb' 0 32
  | 0x3A => if back then 0 else pt.pc.extractLsb' 32 32
  | _ =>
    if 0x20 ≤ n && n ≤ 0x27 then
      BitVec.ofNat 32 (match s.ctx? w.ctx with | some c => bindRead (c.bind.getD (n - 0x20) 0) | none => 0)
    else match w.post with
      | some site => postReg (s.posts.getD site (.reset site)) n
      | none => 0

/-- THE VALUE OF A SPECIAL REGISTER in a lane (R45, R48). A postilion lies outside every cluster, workgroup and batch (R10): what their
registers read as there is free, CTXID reads the context that POST_CTX names, and BUDGET, WAVEIDX and ROLE those of its one wave
(assumption log 87). -/
def State.special (s : State) (w : Wave) (act : LaneMask) (n lane : Nat) : Word :=
  match w.post with
  | some site => if placedRegs.contains n then Config.postSpecial site n &&& placedBits n else s.waveSpecial w act n lane
  | none => s.waveSpecial w act n lane

/-- The register an MTS or MOVS of this number is held on (R129, R130). -/
def specialRegs (n : Nat) : List RegId :=
  match n with
  | 0x10 => [.fpstat]
  | 0x12 => [.seed]
  | _ => []

/-- MOVS (R129). A read of TIMEREF_LO latches the upper half for the wave (R46). -/
def execMovs (g : Guard) (d : Dst) (num : Fin 256) (s : State) : Out State :=
  match s.issue? with
  | none => .fault .noPath
  | some i =>
    regIssue g (specialRegs num) d.regs false (fun x =>
      let rf := if num.val == 0x30 && x.q != 0 then { x.rf with timeHi := BitVec.ofNat 32 (s.tick / 2 ^ 32) } else x.rf
      noFlags (rf.write d x.q (fun l => s.special i.w x.act num l))) s

/-- A write of a postilion register (R365): POST_EVACK clears bits of POST_EVENT; reserved bits stay 0. -/
def postWrite (p : Post) (n : Nat) (v : Word) : Post :=
  match n with
  | 0x80 => { p with siteReg := v.setWidth 4 }
  | 0x81 => { p with ctx := v.toNat % 65536 }
  | 0x82 => { p with event := v }
  | 0x83 => { p with event := p.event &&& ~~~v }
  | 0x84 => { p with fvaLo := v }
  | 0x85 => { p with fvaHi := v }
  | 0x86 => { p with finfo := v &&& 0x80FFE0FF }
  | _ => p

/-- Set one half of a trap point (R365): the point is kept as a clause header and a word in it; an address written by MTS is
taken as a clause header. -/
def trapPointHalf (t : TrapPoint) (hi : Bool) (v : Word) : TrapPoint :=
  let a := t.pc
  { hdr := if hi then v ++ a.extractLsb' 0 32 else a.extractLsb' 32 32 ++ v, idx := 0, waitOnly := false }

/-- What MTS of a trap or postilion register does to the machine, beside its issue (R365). -/
def State.mtsPost (s : State) (i : Issue) (num : Nat) (q : LaneMask) (val : Nat → Word) : State :=
  match i.w.post, lowestLane q with
  | some site, some l0 =>
    match s.wave? i.w.uid with
    | none => s
    | some w =>
      if num = 0x38 then
        if w.trap.inHandler then s.putWave { w with trap := { w.trap with code := (val l0).toNat % 64 } } else s
      else if num = 0x39 || num = 0x3A then
        if w.trap.inHandler then
          s.putWave { w with trap := { w.trap with
            pts := (lanesOf q).foldl (fun m l =>
              Map.ins m l (trapPointHalf (Map.get { hdr := 0, idx := 0, waitOnly := false } m l) (num == 0x3A) (val l)))
              w.trap.pts } }
        else s
      else
        let t := { s with posts := updAt s.posts site (fun p => postWrite p num (val l0)) }
        if num = 0x81 then t.putWave { w with ctx := (t.posts.getD site (.reset site)).ctx } else t
  | _, _ => s

/-- MTS (R130, R365). FPSTAT takes bits [5:0] of the lowest qualifying lane; RNDSEED takes each lane's value, 0 as 1. -/
def execMts (g : Guard) (a : Src) (num : Fin 256) (s : State) : Out State :=
  match s.issue? with
  | none => .fault .noPath
  | some i =>
    let out := regIssue g a.regs (specialRegs num) false (fun x =>
      if num.val = 0x10 then
        match lowestLane x.q with
        | some l => noFlags { x.rf with fpstat := (a.read x.rf x.lit l).extractLsb' 0 6 }
        | none => noFlags x.rf
      else if num.val = 0x12 then
        noFlags { x.rf with seed := (lanesOf x.q).foldl (fun m l =>
          Map.put 1 m l (if a.read x.rf x.lit l = 0 then 1 else a.read x.rf x.lit l)) x.rf.seed }
      else noFlags x.rf) s
    match out with
    | .next t =>
      if s.gate i.w false (g.regs ++ a.regs ++ specialRegs num) = .go ∧ i.w.rf.spoilt a.regs (qualify i.w.rf g i.p.lanes) = false then
        .next (t.mtsPost i num (qualify i.w.rf g i.p.lanes) (fun l => a.read i.w.rf i.c.head.lit l))
      else .next t
    | o => o

end Sys2Proof.Machine
end

