-- ==== Sys2Proof/Machine/Float.lean ====
section
/-! DEFINITION. The FP32 and FP64 instructions (R131 to R137). -/

namespace Sys2Proof.Machine

/-- An FP32 result as a word with its flags. -/
def FpRes.w32 (r : FpRes) : Word × BitVec 6 := (BitVec.ofNat 32 r.bits, r.fl)

/-- An FP64 result as a pair with its flags. -/
def FpRes.w64 (r : FpRes) : Word64 × BitVec 6 := (BitVec.ofNat 64 r.bits, r.fl)

/-- The source modifiers on the three operands of a format (R131). -/
def SMod.a (f : Fmt) (m : Sys2Proof.SMod) (x : Nat) : Nat := f.modify m.aa m.na x
def SMod.b (f : Fmt) (m : Sys2Proof.SMod) (x : Nat) : Nat := f.modify m.ab m.nb x
def SMod.c (f : Fmt) (m : Sys2Proof.SMod) (x : Nat) : Nat := f.modify m.ac m.nc x

/-- FADD and DADD on encodings (R132). -/
def faddV (f : Fmt) (sm : Sys2Proof.SMod) (fm : FpMode) (x y : Nat) : FpRes :=
  f.add fm.rnd fm.sat (SMod.a f sm x) (SMod.b f sm y)

/-- FMUL and DMUL on encodings (R132). -/
def fmulV (f : Fmt) (sm : Sys2Proof.SMod) (fm : FpMode) (x y : Nat) : FpRes :=
  f.mul fm.rnd fm.sat (SMod.a f sm x) (SMod.b f sm y)

/-- FFMA and DFMA on encodings (R132). -/
def ffmaV (f : Fmt) (sm : Sys2Proof.SMod) (fm : FpMode) (x y z : Nat) : FpRes :=
  f.fma fm.rnd fm.sat (SMod.a f sm x) (SMod.b f sm y) (SMod.c f sm z)

/-- FMIN and FMAX on encodings (R133). -/
def fminmaxV (f : Fmt) (isMax : Bool) (sm : Sys2Proof.SMod) (x y : Nat) : FpRes :=
  f.minMax isMax (SMod.a f sm x) (SMod.b f sm y)

/-- A comparison on encodings, with the absolute values of the compare byte (R134). -/
def fcmpV (f : Fmt) (c : FCompare) (x y : Nat) : Bool × BitVec 6 :=
  f.compare c.cmp (f.modify c.aa false x) (f.modify c.ab false y)

def execFadd (g : Guard) (d : Dst) (a b : Src) (sm : Sys2Proof.SMod) (fm : FpMode) (s : State) : Out State :=
  op2 g d a b (fun x y => (faddV fp32 sm fm x.toNat y.toNat).w32) s
def execFmul (g : Guard) (d : Dst) (a b : Src) (sm : Sys2Proof.SMod) (fm : FpMode) (s : State) : Out State :=
  op2 g d a b (fun x y => (fmulV fp32 sm fm x.toNat y.toNat).w32) s
def execFmin (g : Guard) (d : Dst) (a b : Src) (sm : Sys2Proof.SMod) (s : State) : Out State :=
  op2 g d a b (fun x y => (fminmaxV fp32 false sm x.toNat y.toNat).w32) s
def execFmax (g : Guard) (d : Dst) (a b : Src) (sm : Sys2Proof.SMod) (s : State) : Out State :=
  op2 g d a b (fun x y => (fminmaxV fp32 true sm x.toNat y.toNat).w32) s
def execFfma (g : Guard) (d : Dst) (a b c : Src) (sm : Sys2Proof.SMod) (fm : FpMode) (s : State) : Out State :=
  op3 g d a b c (fun x y z => (ffmaV fp32 sm fm x.toNat y.toNat z.toNat).w32) s

/-- FSETP (R134). -/
def execFsetp (g : Guard) (d : Fin 8) (a b : Src) (c : PComb) (cmp : FCompare) (k : PCombine) (s : State) : Out State :=
  regIssue g (a.regs ++ b.regs ++ pcombRegs c) (predReg d) false (fun x =>
    let v (l : Nat) := fcmpV fp32 cmp (a.read x.rf x.lit l).toNat (b.read x.rf x.lit l).toNat
    (x.rf.writePred d x.q (fun l => combine k (v l).1 (x.rf.pcomb c l)), orLanes x.q (fun l => (v l).2))) s

/-- FCLASS (R135). -/
def execFclass (g : Guard) (d : Dst) (a : Src) (wide : Bool) (s : State) : Out State :=
  if wide then
    regIssue g (a.regsRun 2) d.regs false (fun x =>
      noFlags (x.rf.write d x.q (fun l => BitVec.ofNat 32 (fp64.classify (a.read64 x.rf x.lit .fp l).toNat)))) s
  else op1 g d a false (fun x => (BitVec.ofNat 32 (fp32.classify x.toNat), 0)) s

/-- FRND (R136). -/
def execFrnd (g : Guard) (d : Dst) (a : Src) (rnd : Rnd) (wide : Bool) (s : State) : Out State :=
  if wide then
    regIssue g (a.regsRun 2) (d.regsRun 2) false (fun x =>
      let v (l : Nat) := (fp64.roundIntegral rnd (a.read64 x.rf x.lit .fp l).toNat).w64
      (x.rf.write64 d x.q (fun l => (v l).1), orLanes x.q (fun l => (v l).2))) s
  else op1 g d a false (fun x => (fp32.roundIntegral rnd x.toNat).w32) s

def execDadd (g : Guard) (d : Dst) (a b : Src) (sm : Sys2Proof.SMod) (fm : FpMode) (s : State) : Out State :=
  op2w g d a b .fp (fun x y => (faddV fp64 sm fm x.toNat y.toNat).w64) s
def execDmul (g : Guard) (d : Dst) (a b : Src) (sm : Sys2Proof.SMod) (fm : FpMode) (s : State) : Out State :=
  op2w g d a b .fp (fun x y => (fmulV fp64 sm fm x.toNat y.toNat).w64) s

/-- DFMA (R132). -/
def execDfma (g : Guard) (d : Dst) (a b c : Src) (sm : Sys2Proof.SMod) (fm : FpMode) (s : State) : Out State :=
  regIssue g (a.regsRun 2 ++ b.regsRun 2 ++ c.regsRun 2) (d.regsRun 2) false (fun x =>
    let v (l : Nat) := (ffmaV fp64 sm fm (a.read64 x.rf x.lit .fp l).toNat (b.read64 x.rf x.lit .fp l).toNat
      (c.read64 x.rf x.lit .fp l).toNat).w64
    (x.rf.write64 d x.q (fun l => (v l).1), orLanes x.q (fun l => (v l).2))) s

/-- DSETP (R134). -/
def execDsetp (g : Guard) (d : Fin 8) (a b : Src) (c : PComb) (cmp : FCompare) (k : PCombine) (s : State) : Out State :=
  regIssue g (a.regsRun 2 ++ b.regsRun 2 ++ pcombRegs c) (predReg d) false (fun x =>
    let v (l : Nat) := fcmpV fp64 cmp (a.read64 x.rf x.lit .fp l).toNat (b.read64 x.rf x.lit .fp l).toNat
    (x.rf.writePred d x.q (fun l => combine k (v l).1 (x.rf.pcomb c l)), orLanes x.q (fun l => (v l).2))) s

end Sys2Proof.Machine
end

