-- ==== Sys2Proof/Machine/Cross.lean ====
section
/-! DEFINITION. Cross-lane instructions (R291 to R297), named barriers (R298 to R302), phase-bit barriers (R303 to R305) and the
arrival side of the grid and gang barriers (R307). -/

namespace Sys2Proof.Machine

/-! ## Shuffles, votes, match (R294, R295) -/

/-- The width of a segment (R292). -/
def shflW : ShflWidth → Nat
  | .w32 => 32 | .w16 => 16 | .w8 => 8 | .w4 => 4 | .w2 => 2 | .w1 => 1

/-- The four shuffles. -/
inductive ShflKind where
  | idx | up | dn | xor
  deriving DecidableEq, Repr

/-- The source lane of a shuffle and whether it lies in the segment (R294). -/
def shflSrc (k : ShflKind) (w lane n : Nat) : Nat × Bool :=
  let s0 := lane - lane % w
  match k with
  | .idx => (s0 + n % w, true)
  | .up => (lane - n, decide (n ≤ lane - s0))
  | .dn => (lane + n, decide (n < s0 + w - lane))
  | .xor => (lane ^^^ (n % 32), (lane ^^^ (n % 32)) / w == lane / w)

/-- A shuffle (R294). -/
def shfl (k : ShflKind) (g : Guard) (d : Dst) (a b : Src) (c : Option (Fin 8)) (wd : ShflWidth) (s : State) : Out State :=
  let pc := match c with | some p => predReg p | none => []
  regIssue g (a.regs ++ b.regs) (d.regs ++ pc) false (fun x =>
    let src (l : Nat) := shflSrc k (shflW wd) l (b.read x.rf x.lit l).toNat
    let ok (l : Nat) : Bool := (src l).2 && x.q.getLsbD (src l).1
    let r1 := x.rf.write d x.q (fun l => if ok l then a.read x.rf x.lit (src l).1 else a.read x.rf x.lit l)
    noFlags (match c with
      | some p => r1.writePred p x.q ok
      | none => r1)) s

def execShflIdx (g : Guard) (d : Dst) (a b : Src) (c : Option (Fin 8)) (w : ShflWidth) (s : State) : Out State :=
  shfl .idx g d a b c w s
def execShflUp (g : Guard) (d : Dst) (a b : Src) (c : Option (Fin 8)) (w : ShflWidth) (s : State) : Out State :=
  shfl .up g d a b c w s
def execShflDn (g : Guard) (d : Dst) (a b : Src) (c : Option (Fin 8)) (w : ShflWidth) (s : State) : Out State :=
  shfl .dn g d a b c w s
def execShflXor (g : Guard) (d : Dst) (a b : Src) (c : Option (Fin 8)) (w : ShflWidth) (s : State) : Out State :=
  shfl .xor g d a b c w s

/-- The lanes of `q` in which a pcomb operand is true. -/
def ballot (rf : RegFile) (q : LaneMask) (a : PComb) : LaneMask := maskOf (fun l => q.getLsbD l && rf.pcomb a l)

/-- A vote that gives every qualifying lane one truth value. -/
def vote (f : LaneMask → LaneMask → Bool) (g : Guard) (d : Fin 8) (a : PComb) (s : State) : Out State :=
  regIssue g (pcombRegs a) (predReg d) false (fun x =>
    noFlags (x.rf.writePred d x.q (fun _ => f (ballot x.rf x.q a) x.q))) s

def execVoteAny (g : Guard) (d : Fin 8) (a : PComb) (s : State) : Out State := vote (fun b _ => b != 0) g d a s
def execVoteAll (g : Guard) (d : Fin 8) (a : PComb) (s : State) : Out State := vote (fun b q => b == q) g d a s
def execVoteEq (g : Guard) (d : Fin 8) (a : PComb) (s : State) : Out State := vote (fun b q => b == 0 || b == q) g d a s

/-- VOTE.BAL (R295). -/
def execVoteBal (g : Guard) (d : Dst) (a : PComb) (s : State) : Out State :=
  regIssue g (pcombRegs a) d.regs false (fun x => noFlags (x.rf.write d x.q (fun _ => ballot x.rf x.q a))) s

/-- MATCH (R295). -/
def execMatchLanes (g : Guard) (d : Dst) (a : Src) (wide : Bool) (s : State) : Out State :=
  regIssue g (if wide then a.regsRun 2 else a.regs) d.regs false (fun x =>
    let v (l : Nat) : Nat := if wide then (a.read64 x.rf x.lit .zext l).toNat else (a.read x.rf x.lit l).toNat
    noFlags (x.rf.write d x.q (fun l => maskOf (fun k => x.q.getLsbD k && v k == v l)))) s

/-! ## Reductions and scans (R296, R297) -/

/-- The identity of an operation. -/
def foldUnit : ReduxOp → Word
  | .add | .maxZ | .or | .xor => 0
  | .min => 0x7FFFFFFF
  | .minZ | .and => 0xFFFFFFFF
  | .max => 0x80000000
  | .fadd => 0x80000000
  | .fmin => 0x7F800000
  | .fmax => 0xFF800000

/-- One step, with its flags. -/
def foldStep (op : ReduxOp) (x y : Word) : Word × BitVec 6 :=
  match op with
  | .add => (x + y, 0)
  | .min => (iminV false x y, 0)
  | .minZ => (iminV true x y, 0)
  | .max => (imaxV false x y, 0)
  | .maxZ => (imaxV true x y, 0)
  | .and => (x &&& y, 0)
  | .or => (x ||| y, 0)
  | .xor => (x ^^^ y, 0)
  | .fadd => (fp32.add .rne false x.toNat y.toNat).w32
  | .fmin => (fp32.minMax false x.toNat y.toNat).w32
  | .fmax => (fp32.minMax true x.toNat y.toNat).w32

/-- The fold over lanes in order: the value before each lane, the value after the last, and the flags of all steps. -/
def foldLanes (op : ReduxOp) (v : Nat → Word) : List Nat → Word → List (Nat × Word) × Word × BitVec 6
  | [], acc => ([], acc, 0)
  | l :: t, acc =>
    let r := foldStep op acc (v l)
    let k := foldLanes op v t r.1
    ((l, acc) :: k.1, k.2.1, r.2 ||| k.2.2)

/-- REDUX (R296). -/
def execRedux (g : Guard) (d : Dst) (a : Src) (op : ReduxOp) (s : State) : Out State :=
  regIssue g a.regs d.regs false (fun x =>
    let r := foldLanes op (fun l => a.read x.rf x.lit l) (lanesOf x.q) (foldUnit op)
    (x.rf.write d x.q (fun _ => r.2.1), r.2.2)) s

/-- SCAN (R296): the exclusive form performs no step for the highest qualifying lane. -/
def execScan (g : Guard) (d : Dst) (a : Src) (excl : Bool) (op : ReduxOp) (s : State) : Out State :=
  regIssue g a.regs d.regs false (fun x =>
    let v (l : Nat) := a.read x.rf x.lit l
    let ls := lanesOf x.q
    if excl then
      let r := foldLanes op v ls.dropLast (foldUnit op)
      (x.rf.write d x.q (fun l => match r.1.find? (fun p => p.1 == l) with | some p => p.2 | none => r.2.1), r.2.2)
    else
      let r := foldLanes op v ls (foldUnit op)
      (x.rf.write d x.q (fun l => match r.1.find? (fun p => p.1 == l) with
        | some p => (foldStep op p.2 (v l)).1
        | none => 0), r.2.2)) s

/-! ## Named barriers (R298 to R302) -/

/-- A barrier at placement (R298). -/
def Bar.zero : Bar := { expect := 0, count := 0, gen := 0, held := false }

/-- A named barrier of a workgroup. -/
def Workgroup.bar (g : Workgroup) (n : Nat) : Bar := Map.get .zero g.bars n

def State.putBar (s : State) (g : Workgroup) (n : Nat) (b : Bar) : State := s.putWg { g with bars := Map.put .zero g.bars n b }

/-- Lanes that have exited or were never active (R284, R299). -/
def Wave.gone (w : Wave) : LaneMask := w.exited ||| ~~~w.exist

/-- The lanes of the wave's partial arrival. -/
def Wave.barMask (w : Wave) (n : Nat) : LaneMask := Map.get 0 w.bar.mask n

/-- The name an operation in flight arrives at. -/
def Access.arrives (a : Access) : Option Nat :=
  match a.instr with
  | .barArr _ n _ | .barSync _ n _ => some n
  | _ => none

/-- An arrival of the wave at this name is complete and not yet counted (R301). -/
def Wave.barPending (w : Wave) (n : Nat) : Bool := w.ops.any (fun o => o.arrives == some n)

/-- The wave's last counted arrival joined the generation in progress. -/
def Wave.barJoined (w : Wave) (n gen : Nat) : Bool := w.bar.arrived.getLsbD n && Map.get 0 w.bar.ticket n == gen

/-- The block of an accumulator register. -/
def blockOf (d : Fin 192) : Nat := d.val / 32

/-- The block a span operation works on. -/
def spanBlock : Instr → Option Nat
  | .spanRel _ d | .spanRelSt _ d _ _ _ | .spanZero _ d => some (blockOf d)
  | .spanLoop _ d _ _ _ _ => some (blockOf d)
  | .spanMmaBf16 _ o => some (blockOf o.d)
  | .spanMmaE4m3 _ o _ | .spanMmaE5m2 _ o _ | .spanMmaE2m1 _ o _ | .spanMmaW4bf _ o _ | .spanMmaWf4bf _ o _
  | .spanMmaE4m3B32 _ o _ | .spanMmaE5m2B32 _ o _ | .spanMmaE2m1B32 _ o _ => some (blockOf o.d)
  | _ => none

/-- THE WAVE HAS ENDED (R37, R44, R49, R286): its last lane has exited, every ENQ is answered, its waybill has drained and no
span operation of it is in progress. -/
def State.over (s : State) (w : Wave) : Bool :=
  w.live == 0 && w.enqs.isEmpty && w.waybill.isEmpty && !w.ops.any (fun o => (spanBlock o.instr).isSome)
    && !s.walks.any (fun k => k.wave == w.uid && !k.stopped)

/-- Waves of a batch that have ended: those of its retired gangs, of its resident and of its saved ones. -/
def State.exitedOf (s : State) (b : Batch) : Nat :=
  let kept := (s.gangs.filter (fun g => g.batch == b.uid)).flatMap (fun g => match g.kept with | some k => k.waves | none => [])
  b.retired * b.desc.gangSize * b.desc.waveCount
    + ((s.waves.filter (fun w => w.batch == b.uid) ++ kept).filter s.over).length

/-- Barrier entries in use on a core (R302). -/
def State.barEntries (s : State) (core : Nat) : Nat :=
  (s.wgs.filter (fun g => g.core == core)).foldl (fun n g => n + (g.bars.filter (fun b => b.2.held)).length) 0

/-- A GENERATION COMPLETES where its count is reached (R300): BGEN advances, BCOUNT is 0, the entry is free, and lanes that came twice are
held no more: they arrive next (R299). -/
def State.settleBar (s : State) (wg n : Nat) : State :=
  match s.wg? wg with
  | none => s
  | some g =>
    let b := g.bar n
    let gone := (s.waves.filter (fun w => w.wg == wg && s.over w && !w.barJoined n b.gen && !w.barPending n)).length
    if b.held && (if b.expect = 0 then g.waves ≤ b.count + gone else b.expect ≤ b.count) then
      let t := s.putBar g n { b with count := 0, gen := (b.gen + 1) % 2 ^ 16, held := false }
      { t with waves := t.waves.map (fun (w : Wave) =>
          if w.wg == wg then { w with bar := { w.bar with
              again := Map.del w.bar.again n, freed := Map.put 0 w.bar.freed n (Map.get 0 w.bar.freed n ||| Map.get 0 w.bar.again n) } }
          else w) }
    else s

/-- A wave that has ended completes what waits for it at its workgroup's barriers (R300). -/
def State.settleOver (s : State) (u : Nat) : State :=
  match s.wave? u with
  | none => s
  | some w => if s.over w then (List.range 64).foldl (fun x n => x.settleBar w.wg n) s else s

/-- The barrier name of the BAR.WAIT or BAR.SYNC that a path waits at. -/
def Path.barName (p : Path) : Option Nat :=
  if p.waiting then p.clause.bind (fun c => match (parseWord .user (c.words.getD c.idx 0)).val with
    | .barWait _ n | .barSync _ n _ => some n.val
    | _ => none)
  else none

/-- The paths that wait at a name for an arrival to be counted wait for its generation (R301). -/
def Wave.waitsFor (w : Wave) (n gen : Nat) : Wave :=
  { w with paths := w.paths.map (fun p => if p.gen.isNone && p.barName == some n then { p with gen := some gen } else p) }

/-- AN ARRIVAL IS COUNTED (R299, R302): once its release is performed, the generation of the wave's earlier arrival is over,
and an entry is free. A count other than BEXPECT is ILLEGAL 0x1C, naming the wave's first arrival instruction. -/
def State.countArrival (s : State) (w : Wave) (a : Access) (n : Nat) : State :=
  match s.wg? w.wg with
  | none => s
  | some g =>
    let b := g.bar n
    let c := a.aux.getD 0 0
    if !s.released w a.op 1 || !w.mayPerform a.op a.mask true || w.barJoined n b.gen || (!b.held && 64 ≤ s.barEntries g.core) then s
    else if b.count != 0 && c != b.expect then
      s.uncontained w (s.reportOf w 0x22 0x1C a.word a.addr a.hdr)
    else
      let b1 := { b with expect := if b.count = 0 then c else b.expect, count := b.count + 1, held := true }
      let w1 := { w.waitsFor n b.gen with
        ops := w.ops.filter (fun o => o.op != a.op)
        bar := { w.bar with ticket := Map.put 0 w.bar.ticket n b.gen, arrived := w.bar.arrived ||| (1 <<< n) } }
      ((s.putWave w1).putBar g n b1).settleBar g.uid n

/-- The wave arrives once its mask with the lanes that are gone covers all lanes (R299): the arrival waits to be counted. Its first
arrival's count still binds what else arrives in that generation. -/
def State.tryArrive (s : State) (w : Wave) (n : Nat) (instr : Instr) : State × Wave :=
  let m := w.barMask n
  if m != 0 && (m ||| w.gone) == allLanes then
    let f := (Map.find w.bar.first n).getD { gen := 0, count := 0, addr := 0, hdr := 0, word := 0 }
    let a : Access := { op := s.fresh, instr := instr, word := f.word, addr := f.addr, hdr := f.hdr, mask := m, pieces := [], maps := [],
                        aux := [f.count], started := false }
    ({ s with fresh := s.fresh + 1 }, { w with
      ops := w.ops ++ [a]
      bar := { w.bar with mask := Map.put 0 w.bar.mask n 0 } })
  else (s, w)

/-- Lanes that came twice at a name: held until the generation in progress completes (R299). -/
def Wave.barAgain (w : Wave) (n : Nat) : LaneMask := Map.get 0 w.bar.again n

/-- Lanes that may not arrive again yet: those in the mask which no completion has freed (R299). -/
def Wave.barTwice (w : Wave) (n : Nat) : LaneMask := w.barMask n &&& ~~~Map.get 0 w.bar.freed n

/-- Lanes of the mask come again: they are held from now on. -/
def Wave.cameAgain (w : Wave) (n : Nat) (q : LaneMask) : Wave :=
  { w with bar := { w.bar with again := Map.put 0 w.bar.again n (w.barAgain n ||| (q &&& w.barTwice n)) } }

/-- The wave's first partial arrival in the generation in progress (R299). -/
def Wave.barFirst (w : Wave) (n gen : Nat) : Option FirstArrival := (Map.find w.bar.first n).filter (fun f => f.gen == gen)

/-- What the arrival part of a word comes to: it is held, a reason of ILLEGAL, or the state and the wave with the arrival. -/
inductive Arrival where
  | held (w : Wave)
  | illegal (reason : Nat)
  | done (s : State) (w : Wave)

/-- An arrival that covers the wave with the lanes `q` needs a barrier entry and none is free (R302). -/
def State.entryHeld (s : State) (w : Wave) (g : Workgroup) (n : Nat) (q : LaneMask) : Bool :=
  ((w.barMask n ||| q) ||| w.gone) == allLanes && !(g.bar n).held && 64 ≤ s.barEntries g.core

/-- The arrival part of BAR.ARR and BAR.SYNC (R299). -/
def State.arrive (s : State) (i : Issue) (q : LaneMask) (n : Nat) (count : Nat) (instr : Instr) : Arrival :=
  let w := i.w
  match s.wg? w.wg with
  | none => .held w
  | some g =>
    if (q &&& w.barTwice n) != 0 then .held (w.cameAgain n q)
    else if (q &&& w.barAgain n) != 0 || w.barPending n || s.entryHeld w g n q then .held w
    else
      let first := w.barFirst n (g.bar n).gen
      if g.waves < count || first.any (fun f => f.count != count) then .illegal 0x1C
      else
        let f := first.getD { gen := (g.bar n).gen, count := count, addr := i.addr, hdr := i.c.addr, word := i.word }
        let w1 := { w with bar := { w.bar with
          mask := Map.put 0 w.bar.mask n (w.barMask n ||| q), first := Map.ins w.bar.first n f
          freed := Map.put 0 w.bar.freed n (Map.get 0 w.bar.freed n &&& ~~~q) } }
        let r := s.tryArrive w1 n instr
        .done r.1 r.2

/-- BAR.ARR (R299). -/
def execBarArr (g : Guard) (name : Fin 64) (a : Src) (s : State) : Out State :=
  memIssue g a.regs [] (fun s i q =>
    let c := (a.read i.w.rf i.c.head.lit ((lowestLane q).getD 0)).toNat
    match s.arrive i q name c (.barArr g name a) with
    | .held w => some (s.putWave w)
    | .illegal r => some (s.illegal i r)
    | .done t w1 => some (t.retire i w1)) s

/-- The generation a wait at a name waits for (R301), which stays the same from when it is known: none while an arrival of the wave is
not counted, or at BAR.SYNC while the path's own lanes are in the mask. -/
def State.barTicket (s : State) (w : Wave) (p : Path) (n : Nat) (sync : Bool) : Option Nat :=
  if p.waiting && p.gen.isSome then p.gen
  else if w.barPending n || (sync && (w.barMask n &&& p.lanes) != 0) then none
  else if w.bar.arrived.getLsbD n then some (Map.get 0 w.bar.ticket n)
  else (s.wg? w.wg).map (fun g => (g.bar n).gen)

/-- The path waits at its word: for a generation of a barrier, where it is known. -/
def State.waitAt (s : State) (i : Issue) (w : Wave) (only : Bool) (gen : Option Nat) : State :=
  s.replace i w [{ i.p with waiting := true, waitOnly := only, gen := gen, phase := none }]

/-- The generation that a path waits for has ended (R301). -/
def State.barOver (s : State) (w : Wave) (p : Path) (n : Nat) (sync : Bool) : Bool :=
  match s.barTicket w p n sync, s.wg? w.wg with
  | some t, some g => genPassed (g.bar n).gen t
  | _, _ => false

/-- The wait part (R301): the path goes on once the generation of its ticket has ended. -/
def State.barWaitPart (s : State) (i : Issue) (n : Nat) (sync : Bool) : State :=
  if s.barOver i.w i.p n sync then s.retire i (s.acquire i.w .wg) else s.waitAt i i.w sync (s.barTicket i.w i.p n sync)

/-- BAR.WAIT (R301). -/
def execBarWait (g : Guard) (name : Fin 64) (s : State) : Out State :=
  memIssue g [] [] (fun s i _ => some (s.barWaitPart i name false)) s

/-- BAR.SYNC (R301): BAR.ARR, then BAR.WAIT on the same word. -/
def execBarSync (g : Guard) (name : Fin 64) (a : Src) (s : State) : Out State :=
  memIssue g a.regs [] (fun s i q =>
    if i.p.waitOnly then some (s.barWaitPart i name true)
    else
      let c := (a.read i.w.rf i.c.head.lit ((lowestLane q).getD 0)).toNat
      match s.arrive i q name c (.barSync g name a) with
      | .held w => some (s.putWave w)
      | .illegal r => some (s.illegal i r)
      | .done t w1 => some (t.waitAt i w1 true none)) s

/-! ## Phase-bit barriers (R303 to R305) -/

/-- The reasons for which a phase word is refused (R304), lowest first. -/
def State.phaseReason (s : State) (w : Wave) (clu : Bool) (off : Nat) (count : Option Nat) : Option Nat :=
  if s.spaceSize w (if clu then .cluster else .scratch) < off + 8 then some 0x15
  else if off % 8 != 0 then some 0x16
  else match count with
    | some n => if n = 0 || 0xFFFF < n then some 0x1C else none
    | none => none

/-- A phase word after an arrival of `n` (R304). -/
def phaseArrive (b : List Byte) (n : Nat) : List Byte :=
  let expect := ofBytes (b.take 2)
  let c := ofBytes ((b.drop 2).take 2) + n
  let ph := (b.getD 4 0)
  if expect = 0 then b.take 2 ++ toBytes 2 (c % 2 ^ 16) ++ b.drop 4
  else b.take 2 ++ toBytes 2 (c % expect) ++ [if c / expect % 2 = 1 then ph ^^^ 1 else ph] ++ b.drop 5

/-- PBAR.ARR (R304). -/
def execPbarArr (g : Guard) (a b : Src) (clu : Bool) (s : State) : Out State :=
  memIssue g (a.regs ++ b.regs) [] (fun s i q =>
    let l := (lowestLane q).getD 0
    let off := (a.read i.w.rf i.c.head.lit l).toNat
    let n := (b.read i.w.rf i.c.head.lit l).toNat
    match s.phaseReason i.w clu off (some n) with
    | some r => some (s.illegal i r)
    | none =>
      let p : Piece := { lane := l, addr := off, len := 8, x := [], y := [], got := [], done := false }
      some (s.issueOp i (i.access s (.pbarArr g a b clu) q [p] [n]) [] false)) s

/-- PBAR.ARR takes effect once its release is performed (R304): one read-modify-write at the scratchpad. -/
def State.pbarStep (s : State) (w : Wave) (a : Access) (clu : Bool) : State :=
  match a.pieces with
  | p :: _ =>
    if w.unitHeld a.op || !s.released w a.op (if clu then s.stageOf w.core .clu else 1)
        || !w.mayPerform a.op a.mask true || s.behindOwn w a.op (if clu then .cluster else .scratch) p.addr 8 then s
    else (s.setPad w clu p.addr (phaseArrive (s.padBytes w clu p.addr 8) (a.aux.headD 1))).putOp w.uid
      { a with pieces := [{ p with done := true }] }
  | [] => s

/-- The phase of the barrier at an offset differs from bit 0 of `ph` (R305), and no earlier access of the wave to it is outstanding. -/
def State.phaseOver (s : State) (w : Wave) (op : Nat) (clu : Bool) (off : Nat) (ph : Word) : Bool :=
  !s.behindOwn w op (if clu then .cluster else .scratch) off 8 && (s.padByte w clu (off + 4)).getLsbD 0 != ph.getLsbD 0

/-- The offset and the phase of a PBAR.WAIT: those that its path read when it began to wait, or what its registers give now (R305). -/
def Path.phaseArgs (p : Path) (off : Word) (b : Word) : Nat × Word := (if p.waiting then p.phase else none).getD (off.toNat, b)

/-- PBAR.WAIT (R305). -/
def execPbarWait (g : Guard) (d : Option Dst) (a b : Src) (clu : Bool) (s : State) : Out State :=
  let rd := match d with | some x => x.regs | none => []
  memIssue g (a.regs ++ b.regs) rd (fun s i q =>
    let l := (lowestLane q).getD 0
    let args := i.p.phaseArgs (a.read i.w.rf i.c.head.lit l) (b.read i.w.rf i.c.head.lit l)
    let off := args.1
    match s.phaseReason i.w clu off none with
    | some r => some (s.illegal i r)
    | none =>
      if s.phaseOver i.w s.fresh clu off args.2 then
        let rf := match d with
          | some x => i.w.rf.write x q (fun _ => if (s.padByte i.w clu (off + 4)).getLsbD 0 then 1 else 0)
          | none => i.w.rf
        some (s.retire i (s.acquire { i.w with rf := rf } (if clu then .clu else .wg)))
      else some (s.replace i i.w [{ i.p with waiting := true, waitOnly := false, gen := none, phase := some args }])) s

/-! ## Grid and gang barriers: arrival and wait (R307) -/

/-- The wave has an arrival at GBAR that is not yet counted. -/
def Wave.gbarPending (w : Wave) : Bool := w.ops.any (fun o => match o.instr with | .gbarGrid _ | .gbarGang _ => true | _ => false)

/-- The generation number of the wave's gang or batch (R307). -/
def State.gbarGen (s : State) (w : Wave) (gang : Bool) : Nat :=
  if gang then (match s.gang? w.gang with | some g => g.gbarGen | none => 0)
  else (match s.batch? w.batch with | some b => b.gbarGen | none => 0)

/-- The ticket of the wave's last counted arrival of a form, if it has had one. -/
def Wave.gbarTicket (w : Wave) (gang : Bool) : Option Nat :=
  if gang then (if w.bar.kcounted then some w.bar.kticket else none) else (if w.bar.gcounted then some w.bar.gticket else none)

/-- A counted arrival. -/
def Wave.gbarCounted (w : Wave) (gang : Bool) (gen : Nat) : Wave :=
  { w with bar := if gang then { w.bar with gform := true, kticket := gen, kcounted := true }
                  else { w.bar with gform := false, gticket := gen, gcounted := true } }

/-- The wave's counted arrival of a form belongs to the generation in progress. -/
def State.gbarJoined (s : State) (w : Wave) (gang : Bool) : Bool := w.gbarTicket gang == some (s.gbarGen w gang)

/-- A wave's mask at GBAR with the lanes that are gone covers all lanes: the arrival waits to be counted (R307). -/
def State.tryGbar (s : State) (w : Wave) (instr : Instr) (word addr hdr : Word64) : State × Wave :=
  if w.bar.gmask != 0 && (w.bar.gmask ||| w.gone) == allLanes then
    let a : Access := { op := s.fresh, instr := instr, word := word, addr := addr, hdr := hdr, mask := w.bar.gmask, pieces := [],
                        maps := [], aux := [], started := false }
    ({ s with fresh := s.fresh + 1 }, { w with ops := w.ops ++ [a], bar := { w.bar with gmask := 0 } })
  else (s, w)

/-- GBAR.GRID's release pacing lets the wave pass (R307, R308, R333): its cluster has been admitted; a wave whose gang was away from its
cores at the completion or since, or whose cluster had no arrival tick there, passes with the last cluster. -/
def Release.admits (r : Release) (w : Wave) : Bool :=
  if r.away.contains w.gang || !r.part.contains (clusterOfCore w.core) then r.left.isEmpty else !r.left.contains (clusterOfCore w.core)

/-- The generation that the wave's last arrival of a form joined has ended, and the wave may pass. -/
def State.gbarPassed (s : State) (w : Wave) (gang : Bool) : Bool :=
  match w.gbarTicket gang with
  | none => false
  | some t => genPassed (s.gbarGen w gang) t && (gang || (match (s.batch? w.batch).bind (fun b => b.release) with
    | some r => r.gen != (t + 1) % 2 ^ 16 || r.admits w
    | none => true))

/-- The wait of a path at GBAR is over (R307). -/
def State.gbarOver (s : State) (w : Wave) (p : Path) (gang : Bool) : Bool :=
  (w.bar.gmask &&& p.lanes) == 0 && !w.gbarPending && s.gbarPassed w gang

/-- Lanes of the wave may arrive (R307): none of them has arrived in the generation in progress, and no arrival of the other form is
half made. -/
def State.gbarOpen (s : State) (w : Wave) (q : LaneMask) (gang : Bool) : Bool :=
  (q &&& w.bar.gmask) == 0 && !w.gbarPending && !s.gbarJoined w gang && (w.bar.gmask == 0 || w.bar.gform == gang)

/-- GBAR (R307): lanes arrive, the path of an arriving lane waits until its generation completes. -/
def gbar (gang : Bool) (ins : Instr) (g : Guard) (s : State) : Out State :=
  memIssue g [] [] (fun s i q =>
    if i.p.waitOnly then
      some (if s.gbarOver i.w i.p gang then s.retire i (s.acquire i.w .dev) else s.waitAt i i.w true none)
    else if s.gbarOpen i.w q gang then
      let w1 := { i.w with bar := { i.w.bar with gmask := i.w.bar.gmask ||| q, gform := gang } }
      let r := s.tryGbar w1 ins i.word i.addr i.c.addr
      some (r.1.waitAt i r.2 true none)
    else none) s

def execGbarGrid (g : Guard) (s : State) : Out State := gbar false (.gbarGrid g) g s
def execGbarGang (g : Guard) (s : State) : Out State := gbar true (.gbarGang g) g s

/-- A GBAR ARRIVAL IS COUNTED at the command processor (R307, R309) once its release at device scope is performed and the
generation of the wave's earlier arrival is over. -/
def State.countGbar (s : State) (w : Wave) (a : Access) (gang : Bool) : State :=
  if !s.released w a.op 3 || !w.mayPerform a.op a.mask true || s.gbarJoined w gang then s
  else
    let s1 := s.putWave ({ w with ops := w.ops.filter (fun o => o.op != a.op) }.gbarCounted gang (s.gbarGen w gang))
    if gang then
      match s1.gang? w.gang with
      | some x => s1.putGang { x with gbarCame := x.gbarCame ++ [w.uid] }
      | none => s1
    else match s1.batch? w.batch with
      | some b => s1.putBatch { b with
          gbarCame := b.gbarCame ++ [w.uid], gbarLast := s.tick
          gbarArr := Map.ins b.gbarArr (clusterOfCore w.core) s.tick }
      | none => s1

/-! ## Grid and gang barriers: completion (R307, R309, R333) -/

/-- LATE_SUM from the last four terms, saturating (R48). -/
def lateSumOf (terms : List Nat) : Nat := min 0xFFFF (terms.foldl (fun a b => a + b) 0)

/-- A completion is entered for a die: one term for each of its clusters, then RANK anew, 0 for the greatest sum, ties to the
lower cluster (R309). -/
def State.noteLate (s : State) (die : Nat) (term : Nat → Nat) : State :=
  let cs := (List.range 8).map (fun c =>
    let x := s.cluster (8 * die + c)
    let late := (term (8 * die + c) :: x.late).take 4
    { x with late := late, lateSum := lateSumOf late })
  let sums := cs.map (fun x => x.lateSum)
  let rankOf (c : Nat) : Nat := ((List.range 8).filter (fun d =>
    sums.getD c 0 < sums.getD d 0 || (sums.getD d 0 == sums.getD c 0 && d < c))).length
  let moved := (List.range 8).any (fun c => rankOf c != (s.cluster (8 * die + c)).rank)
  { s with
    clusters := (s.clusters.zipIdx).map (fun xi =>
      if xi.2 / 8 = die then { cs.getD (xi.2 % 8) xi.1 with rank := rankOf (xi.2 % 8) } else xi.1)
    spokes := updAt s.spokes die (fun x => { x with rerank := x.rerank || moved }) }

/-- Clusters in the order of admission (R333): latest arrival first, ties to the lower. -/
def insertLate (x : Nat × Nat) : List (Nat × Nat) → List (Nat × Nat)
  | [] => [x]
  | y :: t => if y.2 < x.2 || (y.2 == x.2 && x.1 < y.1) then x :: y :: t else y :: insertLate x t

def lateOrder (arr : Map Nat) : List Nat := (arr.foldl (fun l x => insertLate x l) []).map (fun x => x.1)

/-- The waves of a gang: those on its cores, or those kept while it is saved. -/
def State.wavesOf (s : State) (g : Gang) : List Wave :=
  s.waves.filter (fun w => w.gang == g.uid) ++ (match g.kept with | some k => k.waves | none => [])

/-- Every wave of a batch has arrived at GBAR.GRID or exited (R307, R308), those of its retired gangs and of its saved ones among them. What
has arrived is the command processor's count, which a wave's pre-emption does not change. -/
def State.gridFull (s : State) (b : Batch) : Bool :=
  !b.gbarCame.isEmpty && b.count * b.desc.waveCount ≤ b.retired * b.desc.gangSize * b.desc.waveCount
    + (((s.gangs.filter (fun g => g.batch == b.uid)).flatMap s.wavesOf).filter (fun w =>
        s.over w || b.gbarCame.contains w.uid)).length

/-- In the tick of a completion RANK is updated before the interval ends (R331): no such step of some dies has been taken in this tick. -/
def State.rankTurn (s : State) (dies : List Nat) : Bool :=
  dies.all (fun d => 400 * (s.spokes.getD d .reset).intervals != s.tick + 1)

/-- The dies of the clusters that arrived. -/
def Batch.gbarDies (b : Batch) : List Nat := (b.gbarArr.map (fun x => x.1 / 8)).eraseDups

/-- GBAR.GRID of a batch can complete in this tick (R293, R331, R333): 32 ticks have passed since the last counted arrival, no interval
of its dies has ended in this tick, and no release step of a completion of this tick has been taken. -/
def State.gridReady (s : State) (b : Batch) : Bool :=
  s.gridFull b && b.gbarLast + 32 ≤ s.tick && s.rankTurn b.gbarDies
    && s.batches.all (fun x => match x.release with
      | some r => r.tick != s.tick || r.step == 0
      | none => true)

/-- It must (R333): 64 ticks have passed. -/
def State.gridDue (s : State) (b : Batch) : Bool := s.gridReady b && b.gbarLast + 64 ≤ s.tick

/-- GBAR_GRID_COMPLETE (R307, R309, R333): the batch's generation ends; each die notes how late its clusters were, against its own
earliest; and the clusters that arrived are to be admitted. -/
def execGbarGridComplete (node batch : Nat) (s : State) : Out State :=
  match s.batches.find? (fun b => b.node == node && b.seq == batch) with
  | none => .next s
  | some b =>
    if !s.gridReady b then .next s
    else
      let gen := (b.gbarGen + 1) % 2 ^ 16
      let order := lateOrder b.gbarArr
      let away := (s.gangs.filter (fun g => g.batch == b.uid && (g.state == .saved || g.state == .restoring))).map (fun g => g.uid)
      let s1 := s.putBatch { b with
        gbarGen := gen, gbarCame := [], gbarArr := []
        release := some { gen := gen, tick := s.tick, part := order, left := order, step := 0, away := away } }
      let first (die : Nat) : Nat := (b.gbarArr.filter (fun x => x.1 / 8 == die)).foldl (fun m x => min m x.2) b.gbarLast
      .next (b.gbarDies.foldl (fun t d => t.noteLate d (fun c =>
        match Map.find b.gbarArr c with
        | some x => x - first d
        | none => 0)) s1)

/-- The place of a batch in the order of release (R333): by its node's start, then by its sequence number. -/
def State.releaseKey (s : State) (b : Batch) : Nat × Nat :=
  ((match s.node? b.node with | some n => n.startOrder | none => 0), b.seq)

/-- The next step of a batch's release falls in this tick (R333): step `k` stands 5 `k` ticks after the completion. -/
def State.stepDue (s : State) (b : Batch) : Bool :=
  b.release.any (fun r => !r.left.isEmpty && r.tick + 5 * r.step ≤ s.tick) && !s.batches.any s.gridDue

/-- No batch whose step falls in this tick comes before this one. -/
def State.stepFirst (s : State) (b : Batch) : Bool :=
  let before (x y : Nat × Nat) : Bool := x.1 < y.1 || (x.1 == y.1 && x.2 < y.2)
  s.stepDue b && !s.batches.any (fun x => s.stepDue x && before (s.releaseKey x) (s.releaseKey b))

/-- GBAR_RELEASE_STEP (R333): a step of a batch's release admits its next clusters, of the 8 that are admitted device-wide in that tick,
batches of nodes that started earlier first. -/
def execGbarReleaseStep (node batch : Nat) (s : State) : Out State :=
  match s.batches.find? (fun b => b.node == node && b.seq == batch) with
  | none => .next s
  | some b =>
    match b.release with
    | none => .next s
    | some r =>
      if !s.stepFirst b then .next s
      else
        let used := if s.admitTick = s.tick then s.admitCount else 0
        let n := min r.left.length (8 - used)
        .next { s.putBatch { b with release := some { r with left := r.left.drop n, step := r.step + 1 } } with
          admitTick := s.tick, admitCount := used + n }

/-- GBAR_GANG_COMPLETE (R307, R309): every wave of the gang has arrived or exited. Only a gang on its cores has waves on a die. -/
def execGbarGangComplete (gang : Nat) (s : State) : Out State :=
  match s.gang? gang with
  | none => .next s
  | some x =>
    let all := x.size * (match s.batch? x.batch with | some b => b.desc.waveCount | none => 0)
    let came := ((s.wavesOf x).filter (fun w => s.over w || x.gbarCame.contains w.uid)).length
    if x.gbarCame.isEmpty || came < all || !s.rankTurn [spokeOfCore x.core] then .next s
    else
      let t := s.putGang { x with gbarGen := (x.gbarGen + 1) % 2 ^ 16, gbarCame := [] }
      .next (if x.state == .saved then t else t.noteLate (spokeOfCore x.core) (fun _ => 0))

end Sys2Proof.Machine
end

