-- ==== Sys2Proof/Machine/Control.lean ====
section
/-! DEFINITION. Clause start (R51 to R56, R71 to R73, R278, R279), the control instructions (R280 to R290), debug events
(R288, R390, R421), and the completion of register results (R58). -/

namespace Sys2Proof.Machine

/-! ## Code fetch (R51 to R53, R72) -/

/-- The waiter's number of a code fetch of a page (R51, R352). -/
def fetchKey (va : Nat) : Nat := 2 ^ 64 + va / 4096 * 4096

/-- A code word as the wave's translation reaches it (R51, R367). -/
def State.codeWord (s : State) (w : Wave) (va : Nat) : Except (Nat × Tr) (Word64 × Nat) :=
  match s.xlate w Want.fetch va with
  | .ok m => .ok (BitVec.ofNat 64 (s.numAt m.pa 8), m.pa)
  | t => .error (va, t)

/-- `n` code words from an address; the first that does not translate. -/
def State.codeWords (s : State) (w : Wave) (va : Nat) : Nat → Except (Nat × Tr) (List (Word64 × Nat))
  | 0 => .ok []
  | n + 1 =>
    match s.codeWord w va with
    | .error e => .error e
    | .ok x =>
      match s.codeWords w ((va + 8) % 2 ^ 64) n with
      | .error e => .error e
      | .ok l => .ok (x :: l)

/-- The translator keeps what it has translated for the code words of `n` bytes (R348). -/
def State.noteCode (s : State) (w : Wave) (va n : Nat) : State :=
  (s.noteVa w Want.fetch va).noteVa w Want.fetch ((va + n - 8) % 2 ^ 64)

/-- What a code fetch that does not translate does (R51, R352, R367). -/
def State.fetchFault (s : State) (w : Wave) (x : Nat × Tr) (hdr : Word64) : State :=
  s.accessFault w (fetchKey x.1) x.1 Want.fetch x.2 0 (BitVec.ofNat 64 x.1) hdr none

/-- The reasons of one word of a clause (R72): its decode reasons, a transfer before the last word, a third long-latency
word. `longs` counts the long-latency words before it. -/
def wordReasons (env : DecodeEnv) (w : Word64) (last : Bool) (longs : Nat) : List Nat :=
  let p := parseWord env w
  p.errs ++ (if p.val.isTransfer && !last then [0x0B] else []) ++ (if p.val.isLong && 2 ≤ longs then [0x09] else [])

/-- The first offending word of a clause and its lowest reason (R72); word 0 is the header. -/
def wordsReason (env : DecodeEnv) : List Word64 → Nat → Nat → Option (Nat × Nat)
  | [], _, _ => none
  | w :: t, k, longs =>
    match lowest (wordReasons env w t.isEmpty longs) with
    | some r => some (k, r)
    | none => wordsReason env t (k + 1) (if (parseWord env w).val.isLong then longs + 1 else longs)

/-- SETA and SETB of 12 to 14 are not flags (R54). -/
def flagField (n : Nat) : Bool := n < 12 || n == 15

/-- The check of a whole clause (R52, R72). -/
def clauseReason (env : DecodeEnv) (h : Header) (ws : List Word64) : Option (Nat × Nat) :=
  if !flagField h.seta || !flagField h.setb then some (0, 0x08) else wordsReason env ws 1 0

/-- The decoder's environment of a wave (R45, R31). -/
def Wave.env (w : Wave) : DecodeEnv := { budget := w.budget, postilion := w.post.isSome }

/-! ## Clause start (R55, R59, R275, R279) -/

/-- The path holds one of the wave's two path slots (R279). -/
def Path.inSlot (p : Path) : Bool := p.slot && p.clause.isSome && !p.waiting && !p.halted && !p.dbg

/-- The wave has a free slot (R279). -/
def Wave.slotFree (w : Wave) : Bool := (w.paths.filter Path.inSlot).length < 2

/-- The path may start a clause as far as it and its wave alone decide. -/
def Wave.mayStart (w : Wave) (p : Path) : Bool :=
  p.clause.isNone && !p.waiting && !p.halted && !p.dbg && w.trap.pend.isNone && !w.dbgWant && w.slotFree

/-- The path has waited inside its clause and goes on once it has a slot again (R279). -/
def Path.back (p : Path) : Bool := p.clause.isSome && !p.slot && !p.waiting && !p.halted && !p.dbg

/-- Operations that a clause binds to a flag from its word `k` on (R57, R59): the first long-latency word of the clause to SETA's, the
second to SETB's. -/
def bindsTo (h : Header) (ws : List Word64) (k f : Nat) : Nat :=
  let longs := (List.range ws.length).filter (fun n => (parseWord .user (ws.getD n 0)).val.isLong)
  (if longs[0]?.any (fun n => k ≤ n) && h.seta == f then 1 else 0) + (if longs[1]?.any (fun n => k ≤ n) && h.setb == f then 1 else 0)

/-- Operations that the clauses in progress on the wave's paths have still to bind to a flag (R59). -/
def Wave.flagOwed (w : Wave) (f : Nat) : Nat :=
  w.paths.foldl (fun n p => match p.clause with
    | some c => n + bindsTo c.head c.words (if p.waiting then c.idx + 1 else c.idx) f
    | none => n) 0

/-- The flags let the path start the clause: WAIT, which a resumption inside the clause does not evaluate but a single step does, and
never a sixteenth operation on a flag (R55, R59, R289, R390). -/
def Wave.flagsLet (w : Wave) (p : Path) (h : Header) (ws : List Word64) : Bool :=
  (List.range 12).all (fun f =>
    let more := bindsTo h ws (p.entry - 1) f
    ((p.entry != 0 && !p.step) || !h.wait.getLsbD f || w.flagCount f == 0) && (more = 0 || w.flagCount f + w.flagOwed f + more ≤ 15))

/-- A path inside its clause, at its header's first word or at its trap point (R56, R289). A trap point beyond the clause's
words stands at the word after the clause. -/
def Path.start (p : Path) (h : Header) (ws : List Word64) : Path :=
  let k := p.entry - 1
  if k < ws.length then
    { p with clause := some { addr := p.pc, head := h, words := ws, idx := k }, slot := true, entry := 0, passed := 0 }
  else { Path.at p.lanes (p.pc + BitVec.ofNat 64 (8 * (ws.length + 1))) with prev := p.pc, step := p.step }

/-- ILLEGAL at a clause header or at a target (R73). -/
def State.illegalClause (s : State) (w : Wave) (reason : Nat) (word addr hdr : Word64) : State :=
  s.uncontained w (s.reportOf w 0x22 reason word addr hdr)

/-- A code fetch that does not translate can be reported now: its page is neither refused nor waited for already (R350, R352). -/
def State.canFault (s : State) (w : Wave) (x : Nat × Tr) : Bool :=
  match x.2 with
  | .refused => false
  | .ok _ | .unbound | .bad _ _ _ => !s.blocked w.uid (fetchKey x.1)

/-- A PATH COULD START A CLAUSE NOW (R275, R278): it may, nothing it waits for holds its code, and its flags let it. -/
def State.couldStart (s : State) (w : Wave) (p : Path) : Bool :=
  w.mayStart p && s.running w && (match s.codeWord w p.pc.toNat with
    | .error x => s.canFault w x
    | .ok (h, _) => kindOf h != .header || (match s.codeWords w ((p.pc.toNat + 8) % 2 ^ 64) (headerOf h).count with
      | .error x => s.canFault w x
      | .ok ws => w.flagsLet p (headerOf h) (ws.map (fun x => x.1))))

/-- The order in which the ready paths of a wave take a free slot (R279): one that its wave has passed over 8 times, which takes the next
free slot (R275), so that of several such the one first due comes first (assumption log 31); then more lanes; then the lowest lane. -/
def pathBefore (x y : Path) : Bool :=
  let ax := if 8 ≤ x.passed then x.passed else 0
  let ay := if 8 ≤ y.passed then y.passed else 0
  if ax != ay then decide (ay < ax)
  else if countLanes x.lanes != countLanes y.lanes then decide (countLanes y.lanes < countLanes x.lanes)
  else decide ((lowestLane x.lanes).getD 0 < (lowestLane y.lanes).getD 0)

/-- No other ready path of the wave ranks before this one for a free slot (R279). -/
def State.ranksFirst (s : State) (w : Wave) (p : Path) : Bool :=
  w.paths.all (fun q => q.lanes &&& p.lanes != 0 || !(q.back || s.couldStart w q) || !pathBefore q p)

/-- Two waves share a partition of a core (R13). -/
def Wave.samePart (w x : Wave) : Bool := w.core == x.core && w.slot / 16 == x.slot / 16

/-- A wave stands before another in the rotation of their partition (R275): in the order of wave index, a wave that has started a clause
or yielded behind those that have not since. -/
def Wave.rotatesBefore (w x : Wave) : Bool := decide (w.turn < x.turn) || (w.turn == x.turn && decide (w.slot < x.slot))

/-- THE WAVE'S TURN IN ITS PARTITION (R275): no other wave there that could start a clause stands before it in the rotation. -/
def State.waveTurn (s : State) (w : Wave) : Bool :=
  s.waves.all (fun x => x.uid == w.uid || !w.samePart x || !x.rotatesBefore w || !x.paths.any (s.couldStart x))

/-- The clause's words have been fetched: its checks, its flags, its start. -/
def State.startClause (s : State) (w : Wave) (p : Path) (h : Word64) (ws : List Word64) : State :=
  let hd := headerOf h
  match clauseReason w.env hd ws with
  | some (k, r) =>
    s.illegalClause w r (if k = 0 then h else ws.getD (k - 1) 0) (p.pc + BitVec.ofNat 64 (8 * k)) p.pc
  | none =>
    if !w.flagsLet p hd ws then s
    else
      let others := w.paths.map (fun q =>
        if q.lanes &&& p.lanes == 0 && (q.back || s.couldStart w q) then { q with passed := q.passed + 1 } else q)
      { s.putWave { w with paths := replacePath others p.lanes [p.start hd ws], turn := s.fresh } with
        fresh := s.fresh + 1, cur := (lowestLane p.lanes).map (fun l => (w.uid, l)) }

/-- A CLAUSE STARTS (R51, R52, R55): the path that holds a lane fetches and decodes its clause whole, when the rotation of its partition
and the order of its wave's slots have come to it (R275, R279). -/
def State.clauseStart (s : State) (u lane : Nat) : State :=
  match s.wave? u with
  | none => s
  | some w =>
    match w.paths.find? (fun p => p.lanes.getLsbD lane) with
    | none => s
    | some p =>
      if !w.mayStart p || !s.running w || !s.waveTurn w || !s.ranksFirst w p then s
      else
        let va := p.pc.toNat
        match s.codeWord w va with
        | .error x => if s.blocked u (fetchKey x.1) then s else s.fetchFault w x p.pc
        | .ok (h, pa) =>
          if s.bad.contains (pa / 64) then s.machineCheck w h p.pc p.pc
          else if kindOf h != .header then s.illegalClause w 0x10 h p.pc p.prev
          else match s.codeWords w ((va + 8) % 2 ^ 64) (headerOf h).count with
            | .error x => if s.blocked u (fetchKey x.1) then s else s.fetchFault w x p.pc
            | .ok ws =>
              if ws.any (fun x => s.bad.contains (x.2 / 64)) then s.machineCheck w h p.pc p.pc
              else
                let s1 := ((s.unwait u (fetchKey va)).unwait u (fetchKey (va + 64))).noteCode w va (8 * (headerOf h).count + 8)
                s1.startClause w p h (ws.map (fun x => x.1))

def execClauseStart (wave path : Nat) (s : State) : Out State := .next (s.clauseStart wave path)

/-! ## Issue of control words -/

/-- The issue of a word whose effects are on the program counters, the rejoin masks and registers (R280, R372): it may issue
beyond the checkpoint. `toks` are the registers whose block's token it needs (R290), `reads` those it reads without, `writes` those it
writes. -/
def pathIssue (g : Guard) (toks reads writes : List RegId) (f : State → Issue → LaneMask → Option State) (s : State) :
    Out State :=
  match s.issue? with
  | none => .fault .noPath
  | some i =>
    match s.gate i.w false (g.regs ++ toks) with
    | .hold => .next s
    | .check => .next (s.checkTrap i)
    | .token =>
      let q := qualify i.w.rf g i.p.lanes
      .next (s.tokenTrap i (if q = 0 then none else f s i q))
    | .go =>
      let i1 : Issue := { i with w := { i.w with beyond := if i.w.behind then i.w.beyond + 1 else i.w.beyond } }
      let q := qualify i.w.rf g i.p.lanes
      if i.w.marked (reads ++ writes) || i.w.readMarked writes then .next s
      else if i.w.rf.spoilt (toks ++ reads) q then .next (s.registerCheck i)
      else if q = 0 then .next (s.retire i1 i1.w)
      else match f s i1 q with
        | none => .next s
        | some t => .next t

/-! ## Branches, calls and returns (R282, R283) -/

/-- A path that a transfer of this clause sends to an address. -/
def Issue.path (i : Issue) (lanes : LaneMask) (pc : Word64) : Path :=
  { Path.at lanes pc with prev := i.c.addr, passed := i.p.passed }

/-- Lanes by their target: one path for each address (R278). -/
def Issue.targets (i : Issue) (q : LaneMask) (t : Nat → Word64) : List Path :=
  ((lanesOf q).map t).eraseDups.map (fun x => i.path (maskOf (fun l => q.getLsbD l && t l == x)) x)

/-- THE TRANSFER (R282): a computed target that is not aligned is ILLEGAL before any lane moves; the lanes of `q` continue at
their targets, the others after the clause. -/
def State.transfer (s : State) (i : Issue) (w : Wave) (q : LaneMask) (t : Nat → Word64) : State :=
  if (lanesOf q).any (fun l => (t l).toNat % 8 != 0) then s.illegal i 0x11
  else s.replace i w (i.targets q t ++ [i.path (i.p.lanes &&& ~~~q) i.c.after])

/-- The target of BRA and CALL: a word offset from the header (R281, R282). -/
def Issue.rel (i : Issue) : Word64 := i.c.addr + (i.c.head.lit.signExtend 64) * 8

/-- BRA (R282). -/
def execBra (g : Guard) (s : State) : Out State :=
  pathIssue g [] [] [] (fun s i q => some (s.transfer i i.w q (fun _ => i.rel))) s

/-- BRX (R282). -/
def execBrx (g : Guard) (a : Src) (s : State) : Out State :=
  pathIssue g (a.regsRun 2) [] [] (fun s i q =>
    some (s.transfer i i.w q (fun l => a.read64 i.w.rf i.c.head.lit .zext l))) s

/-- RET (R282): as BRX. -/
def execRet (g : Guard) (a : Src) (s : State) : Out State :=
  pathIssue g (a.regsRun 2) [] [] (fun s i q =>
    some (s.transfer i i.w q (fun l => a.read64 i.w.rf i.c.head.lit .zext l))) s

/-- A budget word exceeds an allocation (R87, R283). -/
def budgetExceeds (x : Word64) (b : Nat) : Bool :=
  let n := x.toNat
  decide (256 ≤ n) || decide (n < 8) || decide (192 < n) || n % 8 != 0 || decide (b < n)

/-- CALL and CALLI (R283): alignment, then the budget word of every distinct target, then the transfer with the link. Uncorrectable data
in a budget word is reported, since a call raises no MACHINE_CHECK (R290, R391), and counts as it reads (assumption log 94). -/
def State.call (s : State) (i : Issue) (q : LaneMask) (d : Fin 192) (t : Nat → Word64) : Option State :=
  let ts := ((lanesOf q).map t).eraseDups
  if ts.any (fun x => x.toNat % 8 != 0) then some (s.illegal i 0x11)
  else
    let bw := ts.map (fun x => s.codeWord i.w ((x.toNat + (2 ^ 64 - 8)) % 2 ^ 64))
    match bw.findSome? (fun x => match x with | .error e => some e | .ok _ => none) with
    | some e => if s.blocked i.w.uid (fetchKey e.1) then none else some (s.fetchFault i.w e i.c.addr)
    | none =>
      let s1 := ts.foldl (fun z x =>
        let va := (x.toNat + (2 ^ 64 - 8)) % 2 ^ 64
        (z.unwait i.w.uid (fetchKey va)).noteCode i.w va 8) s
      let s1 := bw.foldl (fun z x => match x with
        | .ok y => if s.bad.contains (y.2 / 64) then z.reportBad ((z.homeOf y.2).getD 0) y.2 else z
        | .error _ => z) s1
      if bw.any (fun x => match x with | .ok y => budgetExceeds y.1 i.w.budget | .error _ => false) then
        if i.w.behind then none else some (s1.userTrap i i.w 0x05)
      else
        let rf := (i.w.rf.putV d q (fun _ => i.c.after.extractLsb' 0 32)).putV (d + 1) q (fun _ => i.c.after.extractLsb' 32 32)
        let w1 := { i.w with rf := rf, marks := i.w.marks ++ [Mark.mk s.fresh (vRun d 2)] }
        some ({ s1 with fresh := s.fresh + 1 }.transfer i w1 q t)

/-- CALL (R283). -/
def execCall (g : Guard) (d : Fin 192) (s : State) : Out State :=
  pathIssue g [] [] (vRun d 2) (fun s i q => s.call i q d (fun _ => i.rel)) s

/-- CALLI (R283). -/
def execCalli (g : Guard) (d : Fin 192) (a : Src) (s : State) : Out State :=
  pathIssue g (a.regsRun 2) [] (vRun d 2) (fun s i q =>
    s.call i q d (fun l => a.read64 i.w.rf i.c.head.lit .zext l)) s

/-! ## Rejoin masks (R284, R285) -/

/-- A rejoin mask and its arrival mask. -/
def RegFile.join (rf : RegFile) (n : Nat) : LaneMask := Map.get 0 rf.j n
def RegFile.came (rf : RegFile) (n : Nat) : LaneMask := Map.get 0 rf.a n

/-- The path waits at a WAITJ of this rejoin mask. -/
def Path.waitsAt (p : Path) (n : Nat) : Bool :=
  p.waiting && (match p.clause with
    | some c => (match (parseWord .user (c.words.getD c.idx 0)).val with
      | .waitj _ j => j.val == n
      | _ => false)
    | none => false)

/-- Add lanes released at a word to the path already released at the same word. -/
def addReleased (p : Path) : List Path → List Path
  | [] => if p.lanes = 0 then [] else [p]
  | q :: t =>
    if (match p.clause, q.clause with
        | some c, some d => c.addr == d.addr && c.idx == d.idx
        | _, _ => false) then { q with lanes := p.lanes ||| q.lanes } :: t
    else q :: addReleased p t

/-- THE RELEASE EVALUATION of one rejoin mask (R285): complete when every named lane has arrived or gone; then every waiting
lane goes on and both masks become 0. A waiting lane that the mask no longer names goes on in any case. Lanes released at
one word are one path. -/
def Wave.rejoin (w : Wave) (n : Nat) : Wave :=
  let full := (w.rf.join n &&& ~~~(w.rf.came n ||| w.gone)) == 0
  let stay := if full then 0 else w.rf.join n
  let out := w.paths.foldl (fun l p => if p.waitsAt n then addReleased { p with lanes := p.lanes &&& ~~~stay } l else l) []
  let kept := (w.paths.map (fun p => if p.waitsAt n then { p with lanes := p.lanes &&& stay } else p)).filter
    (fun p => p.lanes != 0)
  let paths := out.foldl (fun l p => addPath (match p.clause with | some c => (p.advance c).stepped | none => p) l) kept
  { w with
    paths := paths
    rf := if full then { w.rf with j := Map.put 0 w.rf.j n 0, a := Map.put 0 w.rf.a n 0 } else w.rf }

/-- The mask a JOIN or DROPJ names (R284). -/
def joinMask (i : Issue) (q : LaneMask) (a : Option Src) : LaneMask :=
  match a with
  | none => q
  | some x => x.read i.w.rf i.c.head.lit ((lowestLane q).getD 0)

/-- Evaluate the release after the path has moved past its word. -/
def State.rejoinAt (s : State) (u n : Nat) : State :=
  match s.wave? u with
  | some w => (s.putWave (w.rejoin n)).noteStep w
  | none => s

/-- JOIN (R284). -/
def execJoin (g : Guard) (j : Fin 16) (a : Option Src) (s : State) : Out State :=
  pathIssue g [] (Src.regsOpt a) [] (fun s i q =>
    let m := (i.w.rf.join j ||| joinMask i q a) &&& ~~~i.w.gone
    let w1 := { i.w with rf := { i.w.rf with j := Map.put 0 i.w.rf.j j m } }
    some ((s.retire i w1).rejoinAt i.w.uid j)) s

/-- DROPJ (R284). -/
def execDropj (g : Guard) (j : Fin 16) (a : Option Src) (s : State) : Out State :=
  pathIssue g [] (Src.regsOpt a) [] (fun s i q =>
    let m := joinMask i q a
    let w1 := { i.w with rf := { i.w.rf with
      j := Map.put 0 i.w.rf.j j (i.w.rf.join j &&& ~~~m), a := Map.put 0 i.w.rf.a j (i.w.rf.came j &&& ~~~m) } }
    some ((s.retire i w1).rejoinAt i.w.uid j)) s

/-- WAITJ (R285): qualifying lanes that the mask names arrive and wait, the others pass. -/
def execWaitj (g : Guard) (j : Fin 16) (s : State) : Out State :=
  pathIssue g [] [] [] (fun s i q =>
    let stop := q &&& i.w.rf.join j
    let w1 := { i.w with rf := { i.w.rf with a := Map.put 0 i.w.rf.a j (i.w.rf.came j ||| stop) } }
    let pass := { i.p with lanes := i.p.lanes &&& ~~~stop }.advance i.c
    some ((s.replace i w1 [{ i.p with lanes := stop, waiting := true }, pass]).rejoinAt i.w.uid j)) s

/-! ## EXIT, YIELD, NOP (R286, R287) -/

/-- The lanes of `q` give up their pixel turns (R262, R286). -/
def Wave.giveTurns (w : Wave) (q : LaneMask) : Wave :=
  { w with frags := w.frags.map (fun f => if q.getLsbD f.1 then (f.1, { f.2 with turn := false, done := true }) else f) }

/-- Lanes that exit leave every rejoin mask, and each is evaluated (R284 to R286). -/
def Wave.leaveJoins (w : Wave) : Wave :=
  let w1 := { w with rf := { w.rf with j := w.rf.j.filterMap (fun e =>
    if e.2 &&& ~~~w.exited == 0 then none else some (e.1, e.2 &&& ~~~w.exited)) } }
  (List.range 16).foldl (fun x n => x.rejoin n) w1

/-- Arrivals that the exit completes (R299, R307): every name with a partial arrival, and GBAR. -/
def State.arriveOnExit (s : State) (w : Wave) : State × Wave :=
  let r := w.bar.mask.foldl (fun (acc : State × Wave) e =>
    if h : e.1 < 64 then acc.1.tryArrive acc.2 e.1 (.barArr .always ⟨e.1, h⟩ .zero) else acc) (s, w)
  r.1.tryGbar r.2 (if w.bar.gform then .gbarGang .always else .gbarGrid .always) 0 0 0

/-- LANES END (R286): they leave their path, the rejoin masks, the barriers and their pixel turns; a wave whose last lane
ends is counted by its batch and its workgroup's barriers once it has ended, and a trap or a handler that waited for them
ends. -/
def State.exitLanes (s : State) (i : Issue) (q : LaneMask) : State :=
  let w1 := { i.w with exited := i.w.exited ||| q }.giveTurns q
  let ids := (w1.frags.filter (fun f => q.getLsbD f.1)).map (fun f => f.2.id)
  let s0 := { s with passes := s.passes.map (fun (p : Pass) => { p with turns := p.turns.filter (fun t => !ids.contains t.1) }) }
  let s1 := s0.replace i w1 [i.path (i.p.lanes &&& ~~~q) i.c.after]
  match s1.wave? i.w.uid with
  | none => s1
  | some w2 =>
    let r := s1.arriveOnExit w2.leaveJoins
    let s2 := (r.1.putWave r.2).noteStep w2
    let s3 :=
      if r.2.live == 0 then
        let t1 := s2.settleOver i.w.uid
        { t1 with
          walks := t1.walks.filter (fun c => !(c.wave == i.w.uid && c.stopped))
          clusters := t1.clusters.map (fun c => { c with span := c.span.disown (fun u => u == i.w.uid) }) }
      else s2
    (s3.settleTrap i.w.uid).settleHandler i.w.uid

/-- EXIT (R286). -/
def execExit (g : Guard) (s : State) : Out State := memIssue g [] [] (fun s i q => some (s.exitLanes i q)) s

/-- YIELD (R287): the wave goes to the back of its rotation once the clause has issued. -/
def execYield (g : Guard) (s : State) : Out State :=
  pathIssue g [] [] [] (fun s i _ =>
    let i1 : Issue := { i with c := { i.c with head := { i.c.head with yieldHint := true } } }
    some (s.retire i1 i1.w)) s

/-- NOP (R287). -/
def execNop (g : Guard) (s : State) : Out State := pathIssue g [] [] [] (fun s i _ => some (s.retire i i.w)) s

/-! ## Debug events, BPT, TRAP (R288, R390, R421) -/

/-- DEBUG_EVENT_POST (R421): the oldest event goes into the ring when that has room. -/
def execDebugEventPost (s : State) : Out State :=
  match s.mail.due with
  | [] => .next s
  | e :: rest =>
    let m := s.mail
    if (m.tail + 1) % 28 = m.head % 28 then .next s
    else .next { s with mail := { m with
      due := rest, events := updAt m.events (m.tail % 28) (fun _ => e), tail := (m.tail + 1) % 28 } }

/-- Waves that STOP_SCOPE stops beside the stopping wave, at their next clause boundary (R288, R390): 1 its gang, 2 its
node. -/
def State.stopScope (s : State) (w : Wave) (scope : Nat) : State :=
  let sel (x : Wave) : Bool :=
    x.uid != w.uid && x.live != 0 && ((scope == 1 && x.gang == w.gang) || (scope == 2 && x.node == w.node))
  (s.waves.filter sel).foldl (fun t x => t.settleDbg x.uid)
    { s with waves := s.waves.map (fun x => if sel x then { x with dbgWant := true } else x) }

/-- BPT (R288, R390). -/
def execBpt (g : Guard) (imm : Fin 256) (s : State) : Out State :=
  memIssue g [] [] (fun s i q =>
    let d := s.descOf i.w
    let rest := { i.p with lanes := i.p.lanes &&& ~~~q }.advance i.c
    let stop := { i.p with lanes := q }.advance i.c
    if d.dbgAttach then
      let s1 := s.replace i i.w [{ stop with dbg := true }, rest]
      some ((s1.stopScope i.w d.stopScope).queueEvent (s.dbgEvent i.w 1 imm q stop.trapPoint.pc))
    else some (s.userTrapAfter i q 0x02)) s

/-- TRAP (R288): the user trap, at the word after it. -/
def execTrap (g : Guard) (_imm : Fin 256) (s : State) : Out State :=
  memIssue g [] [] (fun s i q => some (s.userTrapAfter i q 0x03)) s

/-! ## Return from a handler (R289) -/

/-- Lanes return: their trap points are gone, and the handler may end. -/
def Wave.returned (w : Wave) (q : LaneMask) : Wave :=
  { w with trap := { w.trap with
      returned := w.trap.returned ||| q, pts := w.trap.pts.filter (fun e => !q.getLsbD e.1) } }

/-- A qualifying lane is not in a handler (R289). -/
def Wave.rftBad (w : Wave) (q : LaneMask) : Bool := !w.trap.inHandler || (q &&& w.trap.returned) != 0

/-- RFT.RESUME (R289): each lane to its own trap point. -/
def execRftResume (g : Guard) (s : State) : Out State :=
  memIssue g [] [] (fun s i q =>
    let pt (l : Nat) : TrapPoint := (Map.find i.w.trap.pts l).getD { hdr := 0, idx := 0, waitOnly := false }
    if (lanesOf q).any (fun l => (pt l).hdr.toNat % 8 != 0) then some (s.illegal i 0x11)
    else if i.w.rftBad q then some (s.illegal i 0x1B)
    else
      let back := ((lanesOf q).map pt).eraseDups.map (fun t =>
        { t.path (maskOf (fun l => q.getLsbD l && pt l == t)) with prev := i.c.addr })
      some ((s.replace i (i.w.returned q) (back ++ [i.path (i.p.lanes &&& ~~~q) i.c.after])).settleHandler i.w.uid)) s

/-- RFT.TO (R289): each lane to an address; of two reasons the lowest is reported (R72). -/
def execRftTo (g : Guard) (a : Src) (s : State) : Out State :=
  memIssue g (a.regsRun 2) [] (fun s i q =>
    let t (l : Nat) : Word64 := a.read64 i.w.rf i.c.head.lit .zext l
    if (lanesOf q).any (fun l => (t l).toNat % 8 != 0) then some (s.illegal i 0x11)
    else if i.w.rftBad q then some (s.illegal i 0x1B)
    else some ((s.transfer i (i.w.returned q) q t).settleHandler i.w.uid)) s

/-- WAYBILL_DRAIN (R243, R375, R376). -/
def execWaybillDrain (wave : Nat) (s : State) : Out State :=
  match s.wave? wave with
  | none => .next s
  | some w =>
    match w.waybill with
    | [] => .next s
    | a :: _ => .next (({ s.drainHead w with choices := s.choices.drop 1 }).settleOp wave a.op |>.settleOver wave)

/-! ## Results of register instructions (R58) -/

/-- The operation is still in flight beyond its register results. -/
def State.inFlight (s : State) (w : Wave) (op : Nat) : Bool :=
  (match w.access with | some a => a.op == op | none => false) || w.ops.any (fun o => o.op == op)
    || w.waybill.any (fun o => o.op == op && !o.started) || w.enqs.any (fun e => e.op == op)
    || s.copies.any (fun c => c.wave == w.uid && c.op == op)

/-- RESULT_WRITE (R58, R59): the result of an issued register instruction is written; its mark and its flag clear. -/
def execResultWrite (wave mark : Nat) (s : State) : Out State :=
  match s.wave? wave with
  | none => .next s
  | some w =>
    if w.marks.any (fun m => m.op == mark) && !s.inFlight w mark then .next (s.putWave (w.complete mark)) else .next s

end Sys2Proof.Machine
end

