-- ==== Sys2Proof/Machine/Region.lean ====
section
/-! DEFINITION. Region control blocks (R357 to R360), their effective values and limits, the kill on demand (R371), and the
energy accounts (R361). -/

namespace Sys2Proof.Machine

/-! ## Blocks (R357 to R359) -/

/-- A block as it stands in the table, with the checks that concern it alone (R357, R359). Its accounts are taken from it when it is first
read (R420; assumption log 69). -/
def State.parseRegion (s : State) (r : Nat) : Region :=
  let a := s.hub.rgnBase + 128 * r
  let f (o n : Nat) : Nat := s.numAt (a + o) n
  let ctl := f 0 4
  let ov := f 6 2
  let cores := f 8 2
  let scratch := f 0xA 2
  let bad := ctl % 2 = 0 || 64 ≤ ctl || 256 ≤ ov || (256 < cores && cores != 0xFFFF) || (2048 < scratch && scratch != 0xFFFF)
    || (r = 0 && f 4 2 != 0) || f 0x1C 36 != 0 || f 0x54 12 != 0 || s.bad.contains (a / 64) || s.bad.contains (a / 64 + 1)
  { num := r, parent := f 4 2, valid := ctl % 2 == 1, prio := ctl / 2 % 8, boostOk := ctl / 16 % 2 == 1
    faultDomain := ctl / 32 % 2 == 1, override := BitVec.ofNat 8 ov, coreLimit := cores, scratchLimit := scratch
    enqLimit := f 0xC 4, energyLimit := f 0x10 4, timeSlice := f 0x14 4, watchdog := f 0x18 4, malformed := bad
    named := f 4 2, windowLimit := none, energyTotal := f 0x40 8
    windowsCapped := f 0x48 4, preempts := f 0x4C 4, kills := f 0x50 4, charge := 0, capped := false }

/-- The block of a region as the device last read it, or as it stands when it has not been read. -/
def State.regionOr (s : State) (r : Nat) : Region := (s.region? r).getD (s.parseRegion r)

/-- A region and those above it, region 0 last; at most `fuel` blocks. -/
def State.regionUp (s : State) : Nat → Nat → List Nat
  | 0, _ => []
  | fuel + 1, r => if r = 0 then [0] else r :: s.regionUp fuel (s.regionOr r).parent

/-- From a region up to region 0. A path of more than 16 levels does not reach it: the model counts one level for each step up, from the
region itself to region 0 (assumption log 100). -/
def State.regionChain (s : State) (r : Nat) : List Nat := s.regionUp 17 r

/-- The same, by the parents that the blocks named when they were last read. -/
def State.namedUp (s : State) : Nat → Nat → List Nat
  | 0, _ => []
  | fuel + 1, r => if r = 0 then [0] else r :: s.namedUp fuel (s.regionOr r).named

/-- The region's block is malformed, or one above it, or the path does not reach region 0 (R359). -/
def State.regionBad (s : State) (r : Nat) : Bool :=
  let up := s.namedUp 17 r
  !up.contains 0 || up.any (fun x => (s.regionOr x).malformed)

/-- Does region `x` lie in the subtree of region `r`? -/
def State.below (s : State) (r x : Nat) : Bool := (s.regionChain x).contains r

/-! ## Effective values (R358) -/

/-- The block an effective value comes from: the nearest with the override bit, or region 0. -/
def State.effFrom (s : State) (bit : Nat) : List Nat → Region
  | [] => s.regionOr 0
  | [r] => s.regionOr r
  | r :: t => if r = 0 || (s.regionOr r).override.getLsbD bit then s.regionOr r else s.effFrom bit t

def State.eff (s : State) (bit r : Nat) : Region := s.effFrom bit (s.regionChain r)
def State.effPrio (s : State) (r : Nat) : Nat := (s.eff 0 r).prio
def State.effCores (s : State) (r : Nat) : Nat := (s.eff 1 r).coreLimit
def State.effScratch (s : State) (r : Nat) : Nat := (s.eff 2 r).scratchLimit
def State.effEnq (s : State) (r : Nat) : Nat := (s.eff 3 r).enqLimit
def State.effEnergy (s : State) (r : Nat) : Nat := (s.eff 4 r).energyLimit
def State.effSlice (s : State) (r : Nat) : Nat := (s.eff 5 r).timeSlice
def State.effWatchdog (s : State) (r : Nat) : Nat := (s.eff 6 r).watchdog
def State.effBoost (s : State) (r : Nat) : Bool := (s.eff 7 r).boostOk

/-- Regions that have no limit yet for the window in progress have it from now on (R359). -/
def State.fixLimits (s : State) : State :=
  { s with regions := s.regions.map (fun x => if x.windowLimit.isNone then { x with windowLimit := some (s.effEnergy x.num) } else x) }

/-- Read the blocks of a region and of those above it that have not been read (R359). -/
def State.readRegions (s : State) (r : Nat) : State :=
  State.fixLimits ((s.regionChain r).foldl (fun t x =>
    match t.region? x with
    | some _ => t
    | none => { t with regions := t.regions ++ [t.parseRegion x] }) s)

/-! ## What a subtree holds (R360) -/

/-- The region of a gang. -/
def State.gangRegion (s : State) (g : Gang) : Nat := match s.batch? g.batch with | some b => b.region | none => 0

/-- Scratchpad units of a gang. -/
def State.gangScratch (s : State) (g : Gang) : Nat :=
  g.size * (match s.batch? g.batch with | some b => b.desc.scratch | none => 0)

/-- Cores, scratchpad units and workgroups in flight of a subtree. -/
def State.liveCores (s : State) (r : Nat) : Nat :=
  (s.gangs.filter (fun g => g.onCores && s.below r (s.gangRegion g))).foldl (fun n g => n + g.size) 0
def State.liveScratch (s : State) (r : Nat) : Nat :=
  (s.gangs.filter (fun g => g.onCores && s.below r (s.gangRegion g))).foldl (fun n g => n + s.gangScratch g) 0
def State.liveWgs (s : State) (r : Nat) : Nat :=
  (s.batches.filter (fun b => s.below r b.region)).foldl (fun n b => n + (b.count - b.retired * b.desc.gangSize)) 0

/-- `n` more workgroups in flight fit under every limit of the path; `alone` asks of them only (R321, R360). -/
def State.enqFits (s : State) (r n : Nat) (alone : Bool) : Bool :=
  (s.regionChain r).all (fun x =>
    let lim := s.effEnq x
    lim == 0xFFFFFFFF || (if alone then decide (n ≤ lim) else decide (s.liveWgs x + n ≤ lim)))

/-- Cores and scratchpad for one more gang fit under every limit of the path (R317, R360), and no region of it is capped. -/
def State.gangFits (s : State) (r cores scratch : Nat) : Bool :=
  (s.regionChain r).all (fun x =>
    (s.effCores x == 0xFFFF || decide (s.liveCores x + cores ≤ s.effCores x))
      && (s.effScratch x == 0xFFFF || decide (s.liveScratch x + scratch ≤ s.effScratch x)) && !(s.regionOr x).capped)

/-! ## HUB_RGN_SYNC and HUB_KILL (R359, R371) -/

/-- A report of the command processor (R74): ORIGIN 1. -/
def cpReport (code reason : Nat) (ident : List Nat) (addr : Word64) : Report :=
  { code := code, origin := 1, reason := reason, word := 0, addr := addr, hdr := 0, ident := ident }

/-- The block of a region is read again (R359): a malformed one keeps its last good values and is reported. It stays malformed while its own
fields or those above it are, as they were last read. -/
def State.syncRegion (s : State) (r : Nat) : State :=
  let x := s.parseRegion r
  match s.region? r with
  | none =>
    let t := State.fixLimits { s with regions := s.regions ++ [x] }
    if t.regionBad r then t.report (cpReport 0x22 0x0C [r] 0) else t
  | some old =>
    let t := s.putRegion { x with
      energyTotal := old.energyTotal, windowsCapped := old.windowsCapped, preempts := old.preempts, kills := old.kills
      windowLimit := old.windowLimit, charge := old.charge, capped := old.capped }
    if t.regionBad r then (s.putRegion { old with malformed := x.malformed, named := x.named }).report (cpReport 0x22 0x0C [r] 0) else t

/-- HUB_RGN_SYNC (R359). -/
def execHubRgnSync (value : BitVec 32) (s : State) : Out State :=
  if s.pins.reset then .next s else .next (s.syncRegion (value.toNat % 65536))

/-- HUB_KILL (R371): a write of 0, or of a region that has not been read, is discarded. -/
def State.hubKill (s : State) (r : Nat) : State := if r = 0 || (s.region? r).isNone then s else s.killDomain r none

def execHubKill (value : BitVec 32) (s : State) : Out State :=
  if s.pins.reset then .next s else .next (s.hubKill (value.toNat % 65536))

/-! ## Energy (R361) -/

/-- Add a charge to a region's account. -/
def State.charge (s : State) (r n : Nat) : State :=
  match s.region? r with
  | some x => s.putRegion { x with charge := x.charge + n }
  | none => s

/-- A free amount of energy: the manual gives no measured figure. -/
def State.freeEnergy (s : State) : State × Nat := ({ s with freeCtr := s.freeCtr + 1 }, Config.freeEnergy s.freeCtr)

/-- Resident gangs of a cluster. -/
def State.gangsOn (s : State) (cl : Nat) : List Gang := s.gangs.filter (fun g => g.onCores && g.core / 4 == cl)

/-- Ballast has driven a cluster in the microsecond that ends (R334). -/
def State.ballasted (s : State) (cl : Nat) : Bool :=
  (s.cluster cl).ballast != 0 || ((s.cluster cl).ballastTick != 0 && s.tick < (s.cluster cl).ballastTick + 100)

/-- The energy of its ballast is region 0's (R334). -/
def State.chargeBallast (s : State) (cl : Nat) : State :=
  if s.ballasted cl then
    let r := s.freeEnergy
    r.1.charge 0 r.2
  else s

/-- The issue cycles and span passes of a region's gangs on a cluster in the microsecond that ends; a gang that has left it counts. -/
def State.usesOf (s : State) (cl r : Nat) : Nat := Map.get 0 s.used (useKey cl r)

/-- One cluster's microsecond (R361): its energy is divided in proportion to the issue cycles and passes of its gangs, or equally among its
resident gangs, or is region 0's when it has none; a share is rounded down (assumption log 101). The energy of a save or a restore is its
gang's, that of ballast region 0's. -/
def State.chargeCluster (s : State) (cl : Nat) : State :=
  let r := (s.chargeBallast cl).freeEnergy
  let here := s.gangs.filter (fun g => g.core / 4 == cl)
  let total := (List.range 16).foldl (fun n x => n + s.usesOf cl x) 0
  let gs := s.gangsOn cl
  let t := if 0 < total then (List.range 16).foldl (fun t x => t.charge x (r.2 * s.usesOf cl x / total)) r.1
    else if gs.isEmpty then r.1.charge 0 r.2 else gs.foldl (fun t g => t.charge (t.gangRegion g) (r.2 / gs.length)) r.1
  (here.filter (fun g => s.moved.contains g.uid || g.state == .draining || g.state == .restoring)).foldl (fun t g =>
    let r := t.freeEnergy
    r.1.charge (t.gangRegion g) r.2) t

/-- The energy of scrubbing, calibration, retraining, in-field tests and telemetry is region 0's (R361). -/
def State.chargeTasks (s : State) : State :=
  let r := s.freeEnergy
  r.1.charge 0 r.2

/-- The charge of a subtree in the current window. -/
def State.windowCharge (s : State) (r : Nat) : Nat :=
  (s.regions.filter (fun x => s.below r x.num)).foldl (fun n x => n + x.charge) 0

/-- Regions whose subtree has reached the limit of this window become capped; each window counts once. -/
def State.capRegions (s : State) : State :=
  { s with regions := s.regions.map (fun x =>
      let limit := x.windowLimit.getD (s.effEnergy x.num)
      if !x.capped && limit != 0xFFFFFFFF && limit ≤ s.windowCharge x.num then
        { x with capped := true, windowsCapped := x.windowsCapped + 1 }
      else x) }

/-- ENERGY_CHARGE (R361): at each microsecond. -/
def execEnergyCharge (s : State) : Out State :=
  if s.tick < 100 * (s.power.charged + 1) then .next s
  else
    let t := ((List.range 64).foldl State.chargeCluster s).chargeTasks
    .next { t.capRegions with used := [], moved := [], power := { t.power with charged := t.power.charged + 1 } }

/-- The device-written fields of a block (R357). -/
def State.writeAccounts (s : State) (x : Region) : State :=
  s.cpWrite (s.hub.rgnBase + 128 * x.num + 0x40)
    (toBytes 8 x.energyTotal ++ toBytes 4 x.windowsCapped ++ toBytes 4 x.preempts ++ toBytes 4 x.kills)

/-- ENERGY_WINDOW_END (R359, R361): at each 100,000 ticks, once the window's last microsecond is charged, the accounts are written, the
charges begin anew, the caps lift, and the limits as they stand hold for the next window. -/
def execEnergyWindowEnd (s : State) : Out State :=
  if s.tick < 100000 * (s.power.windows + 1) || s.power.charged < 1000 * (s.power.windows + 1) then .next s
  else
    let rs := s.regions.map (fun x => { x with
      energyTotal := x.energyTotal + x.charge, charge := 0, capped := false, windowLimit := some (s.effEnergy x.num) })
    let t := { s with regions := rs, power := { s.power with windows := s.power.windows + 1 } }
    .next (rs.foldl State.writeAccounts t)

end Sys2Proof.Machine
end

