-- ==== Sys2Proof/Machine/Special.lean ====
section
/-! DEFINITION. The special functions RCP, RSQ, SQRT, EX2, LG2, SIN, COS and TANH of one FP32 operand, rounded once to nearest
even (R153 to R155). The algebraic three are computed exactly. The transcendental five are computed in fixed point with 256
fraction bits, far more than the distance of any inexact FP32 result of these functions from a rounding boundary, and the
truncated value is marked inexact by one more low bit (assumption log 10). -/

namespace Sys2Proof.Machine

/-- Fraction bits of the fixed-point values. -/
def fixBits : Nat := 256

/-- One in fixed point. -/
def fixOne : Nat := 2 ^ fixBits

/-- floor(pi * 2^640). -/
def piFix : Nat := 0x3243f6a8885a308d313198a2e03707344a4093822299f31d0082efa98ec4e6c89452821e638d01377be5466cf34e90c6cc0ac29b7c97c50dd3f84d5b5b54709179216d5d98979fb1bd1310ba698dfb5ac

/-- floor(ln 2 * 2^256). -/
def ln2Fix : Nat := 0xb17217f7d1cf79abc9e3b39803f2f6af40f343267298b62d8a0d175b8baafa2b

/-- The integer square root, by bits from `i` down. -/
def isqrtFrom (x : Nat) : Nat → Nat → Nat
  | 0, r => if (r + 1) * (r + 1) ≤ x then r + 1 else r
  | i + 1, r => isqrtFrom x i (if (r + 2 ^ (i + 1)) * (r + 2 ^ (i + 1)) ≤ x then r + 2 ^ (i + 1) else r)

/-- floor(sqrt x). -/
def isqrt (x : Nat) : Nat := isqrtFrom x (Nat.log2 x / 2 + 1) 0

/-- Terms of the exponential series from `term` on: `k` is the next divisor. -/
def expTerms (x : Nat) : Nat → Nat → Nat → Nat
  | 0, _, _ => 0
  | fuel + 1, k, term => term + expTerms x fuel (k + 1) (term * x / fixOne / k)

/-- e^x in fixed point, for x in [0, 1). -/
def expFix (x : Nat) : Nat := expTerms x 80 1 fixOne

/-- Alternating terms of a sine or cosine series: each next term is `term * x * x / (k * (k + 1))`. -/
def trigTerms (xx : Nat) : Nat → Nat → Nat → Int
  | 0, _, _ => 0
  | fuel + 1, k, term => (term : Int) - trigTerms xx fuel (k + 2) (term * xx / fixOne / (k * (k + 1)))

/-- sin x in fixed point, for x in [0, 2). -/
def sinFix (x : Nat) : Nat := (trigTerms (x * x / fixOne) 48 2 x).toNat

/-- cos x in fixed point, for x in [0, 2). -/
def cosFix (x : Nat) : Nat := (trigTerms (x * x / fixOne) 48 1 fixOne).toNat

/-- Terms of the series of atanh: `term` is a power of z, `k` its divisor. -/
def atanhTerms (zz : Nat) : Nat → Nat → Nat → Nat
  | 0, _, _ => 0
  | fuel + 1, k, term => term / k + atanhTerms zz fuel (k + 2) (term * zz / fixOne)

/-- atanh z in fixed point, for z in [0, 1/4). -/
def atanhFix (z : Nat) : Nat := atanhTerms (z * z / fixOne) 80 1 z

/-- Round a truncated, inexact magnitude: one low bit stands for what was cut off. -/
def roundCut (neg : Bool) (m : Nat) (e : Int) : FpRes := fp32.round .rne false neg (2 * m + 1) (e - 1)

/-- Round an exact magnitude. -/
def roundExact (neg : Bool) (m : Nat) (e : Int) : FpRes := fp32.round .rne false neg m e

/-- The value just below the magnitude `m * 2^e`: what a function tangent to the identity, or to one, has there. -/
def roundBelow (neg : Bool) (m : Nat) (e : Int) : FpRes := fp32.round .rne false neg (m * 2 ^ 64 - 1) (e - 64)

/-- An exact magnitude, or its floor marked inexact. -/
def roundBy (exact neg : Bool) (m : Nat) (e : Int) : FpRes := if exact then roundExact neg m e else roundCut neg m e

def fp32Inf (neg : Bool) (fl : BitVec 6) : FpRes := ⟨fp32.signed neg fp32.infBits, fl⟩
def fp32Zero (neg : Bool) : FpRes := ⟨fp32.signed neg 0, 0⟩
def fp32One (neg : Bool) : FpRes := ⟨fp32.signed neg 0x3F800000, 0⟩

/-- RCP (R153, R154). -/
def rcpF (a : Nat) : FpRes :=
  match fp32.value a with
  | .nan s => fp32.nan (flIf s flNV)
  | .inf n => fp32Zero n
  | .fin n m e =>
    if m = 0 then fp32Inf n flDZ
    else
      let k := Nat.log2 m + 64
      let q := 2 ^ k / m
      roundBy (q * m == 2 ^ k) n q (-e - k)

/-- A positive value with an even exponent: mantissa and half the exponent. -/
def evenExp (m : Nat) (e : Int) : Nat × Int := if e % 2 = 0 then (m, e / 2) else (2 * m, (e - 1) / 2)

/-- RSQ (R153, R154). -/
def rsqF (a : Nat) : FpRes :=
  match fp32.value a with
  | .nan s => fp32.nan (flIf s flNV)
  | .inf n => if n then fp32.nan flNV else fp32Zero false
  | .fin n m e =>
    if m = 0 then fp32Inf n flDZ
    else if n then fp32.nan flNV
    else
      let p := evenExp m e
      let k := Nat.log2 p.1 + 64
      let y := isqrt (2 ^ (2 * k) / p.1)
      roundBy (y * y * p.1 == 2 ^ (2 * k)) false y (-p.2 - k)

/-- SQRT (R153, R154). -/
def sqrtF (a : Nat) : FpRes :=
  match fp32.value a with
  | .nan s => fp32.nan (flIf s flNV)
  | .inf n => if n then fp32.nan flNV else fp32Inf false 0
  | .fin n m e =>
    if m = 0 then ⟨a, 0⟩
    else if n then fp32.nan flNV
    else
      let p := evenExp m e
      let x := p.1 * 2 ^ 128
      let y := isqrt x
      roundBy (y * y == x) false y (p.2 - 64)

/-- 2^(n + f) for a fraction f in fixed point. -/
def exp2Parts (n : Int) (f : Nat) : FpRes :=
  if f = 0 then roundExact false 1 n
  else roundCut false (expFix (f * ln2Fix / fixOne)) (n - fixBits)

/-- EX2 (R153, R154). -/
def ex2F (a : Nat) : FpRes :=
  match fp32.value a with
  | .nan s => fp32.nan (flIf s flNV)
  | .inf n => if n then fp32Zero false else fp32Inf false 0
  | .fin n m e =>
    if m = 0 then fp32One false
    else if 8 < e + Nat.log2 m then exp2Parts (if n then -1000 else 1000) 0
    else
      let x := toInt n (m * 2 ^ (e + fixBits).toNat)
      exp2Parts (x / (fixOne : Int)) (x % (fixOne : Int)).toNat

/-- LG2 (R153, R154). -/
def lg2F (a : Nat) : FpRes :=
  match fp32.value a with
  | .nan s => fp32.nan (flIf s flNV)
  | .inf n => if n then fp32.nan flNV else fp32Inf false 0
  | .fin n m e =>
    if m = 0 then fp32Inf true flDZ
    else if n then fp32.nan flNV
    else
      let l := Nat.log2 m
      let k : Int := e + l
      if m = 2 ^ l then fp32.roundZ .rne false false (decide (k < 0)) k.natAbs 0
      else
        let f := m * 2 ^ (fixBits - l)
        -- a mantissa above 1.4 is halved, so that the logarithm is small near one
        let high := decide (7 * fixOne < 5 * f)
        let t : Int :=
          if high then
            -- f / 2 below one: ln(f / 2) = -2 atanh((2 - f) / (2 + f))
            (k + 1) * (fixOne : Int) - ((2 * atanhFix ((2 * fixOne - f) * fixOne / (2 * fixOne + f)) * fixOne / ln2Fix : Nat) : Int)
          else
            k * (fixOne : Int) + ((2 * atanhFix ((f - fixOne) * fixOne / (f + fixOne)) * fixOne / ln2Fix : Nat) : Int)
        roundCut (decide (t < 0)) t.natAbs (-fixBits)

/-- Quadrant and remainder of a positive argument by pi / 2: the remainder in fixed point with 256 bits. -/
def reduceArg (m : Nat) (e : Int) : Nat × Nat :=
  let x := 2 * m * 2 ^ (e + 640).toNat
  (x / piFix % 4, x % piFix / 2 ^ (640 - fixBits + 1))

/-- SIN (R153, R154). -/
def sinF (a : Nat) : FpRes :=
  match fp32.value a with
  | .nan s => fp32.nan (flIf s flNV)
  | .inf _ => fp32.nan flNV
  | .fin n m e =>
    if m = 0 then ⟨a, 0⟩
    else if e + Nat.log2 m < -40 then roundBelow n m e
    else
      let r := reduceArg m e
      let y := if r.1 % 2 = 0 then sinFix r.2 else cosFix r.2
      roundCut (n != (2 ≤ r.1)) y (-fixBits)

/-- COS (R153, R154). -/
def cosF (a : Nat) : FpRes :=
  match fp32.value a with
  | .nan s => fp32.nan (flIf s flNV)
  | .inf _ => fp32.nan flNV
  | .fin _ m e =>
    if m = 0 then fp32One false
    else if e + Nat.log2 m < -40 then roundBelow false 1 0
    else
      let r := reduceArg m e
      let y := if r.1 % 2 = 0 then cosFix r.2 else sinFix r.2
      roundCut (r.1 == 1 || r.1 == 2) y (-fixBits)

/-- TANH (R153, R154). -/
def tanhF (a : Nat) : FpRes :=
  match fp32.value a with
  | .nan s => fp32.nan (flIf s flNV)
  | .inf n => fp32One n
  | .fin n m e =>
    if m = 0 then ⟨a, 0⟩
    else if e + Nat.log2 m < -40 then roundBelow n m e
    else if 5 < e + Nat.log2 m then roundBelow n 1 0
    else
      let x := 2 * m * 2 ^ (e + fixBits).toNat
      let t := expFix (x % ln2Fix) * 2 ^ (x / ln2Fix)
      roundCut n ((t - fixOne) * fixOne / (t + fixOne)) (-fixBits)

end Sys2Proof.Machine
end

