-- ==== Sys2Proof/Machine/Narrow.lean ====
section
/-! DEFINITION. The packed half-precision, dot-product, conversion, packing and special-function instructions, and the pair
word (R67, R68, R139 to R156). -/

namespace Sys2Proof.Machine

/-- Element `j` of a register packed in elements of `w` bits (R95, R105). -/
def elem (w : Nat) (x : Word) (j : Nat) : Nat := x.toNat / 2 ^ (w * j) % 2 ^ w

/-- Two 16-bit results in one register. -/
def pack2 (r0 r1 : FpRes) : Word × BitVec 6 := (BitVec.ofNat 32 (r0.bits + 65536 * r1.bits), r0.fl ||| r1.fl)

/-- A two-operand operation on both element positions (R142, R143). -/
def half2 (f : Nat → Nat → FpRes) (x y : Word) : Word × BitVec 6 :=
  pack2 (f (elem 16 x 0) (elem 16 y 0)) (f (elem 16 x 1) (elem 16 y 1))

/-- A three-operand operation on both element positions (R142). -/
def half3 (f : Nat → Nat → Nat → FpRes) (x y z : Word) : Word × BitVec 6 :=
  pack2 (f (elem 16 x 0) (elem 16 y 0) (elem 16 z 0)) (f (elem 16 x 1) (elem 16 y 1) (elem 16 z 1))

def execHadd2F16 (g : Guard) (d : Dst) (a b : Src) (sm : Sys2Proof.SMod) (fm : FpMode) (s : State) : Out State :=
  op2 g d a b (half2 (faddV fp16 sm fm)) s
def execHadd2Bf16 (g : Guard) (d : Dst) (a b : Src) (sm : Sys2Proof.SMod) (fm : FpMode) (s : State) : Out State :=
  op2 g d a b (half2 (faddV bf16 sm fm)) s
def execHmul2F16 (g : Guard) (d : Dst) (a b : Src) (sm : Sys2Proof.SMod) (fm : FpMode) (s : State) : Out State :=
  op2 g d a b (half2 (fmulV fp16 sm fm)) s
def execHmul2Bf16 (g : Guard) (d : Dst) (a b : Src) (sm : Sys2Proof.SMod) (fm : FpMode) (s : State) : Out State :=
  op2 g d a b (half2 (fmulV bf16 sm fm)) s
def execHfma2F16 (g : Guard) (d : Dst) (a b c : Src) (sm : Sys2Proof.SMod) (fm : FpMode) (s : State) : Out State :=
  op3 g d a b c (half3 (ffmaV fp16 sm fm)) s
def execHfma2Bf16 (g : Guard) (d : Dst) (a b c : Src) (sm : Sys2Proof.SMod) (fm : FpMode) (s : State) : Out State :=
  op3 g d a b c (half3 (ffmaV bf16 sm fm)) s
def execHmin2F16 (g : Guard) (d : Dst) (a b : Src) (sm : Sys2Proof.SMod) (s : State) : Out State :=
  op2 g d a b (half2 (fminmaxV fp16 false sm)) s
def execHmin2Bf16 (g : Guard) (d : Dst) (a b : Src) (sm : Sys2Proof.SMod) (s : State) : Out State :=
  op2 g d a b (half2 (fminmaxV bf16 false sm)) s
def execHmax2F16 (g : Guard) (d : Dst) (a b : Src) (sm : Sys2Proof.SMod) (s : State) : Out State :=
  op2 g d a b (half2 (fminmaxV fp16 true sm)) s
def execHmax2Bf16 (g : Guard) (d : Dst) (a b : Src) (sm : Sys2Proof.SMod) (s : State) : Out State :=
  op2 g d a b (half2 (fminmaxV bf16 true sm)) s

/-- HSETP2 (R143): element 0 writes p(2n), element 1 writes p(2n + 1). -/
def hsetp2 (f : Fmt) (g : Guard) (d : Fin 4) (a b : Src) (c : PComb) (cmp : FCompare) (k : PCombine) (s : State) :
    Out State :=
  regIssue g (a.regs ++ b.regs ++ pcombRegs c) (predReg (2 * d) ++ predReg (2 * d + 1)) false (fun x =>
    let v (l j : Nat) := fcmpV f cmp (elem 16 (a.read x.rf x.lit l) j) (elem 16 (b.read x.rf x.lit l) j)
    ((x.rf.writePred (2 * d) x.q (fun l => combine k (v l 0).1 (x.rf.pcomb c l))).writePred (2 * d + 1) x.q
        (fun l => combine k (v l 1).1 (x.rf.pcomb c l)),
      orLanes x.q (fun l => (v l 0).2 ||| (v l 1).2))) s

def execHsetp2F16 (g : Guard) (d : Fin 4) (a b : Src) (c : PComb) (cmp : FCompare) (k : PCombine) (s : State) :
    Out State := hsetp2 fp16 g d a b c cmp k s
def execHsetp2Bf16 (g : Guard) (d : Fin 4) (a b : Src) (c : PComb) (cmp : FCompare) (k : PCombine) (s : State) :
    Out State := hsetp2 bf16 g d a b c cmp k s

/-! ## Integer dot products (R144) -/

/-- An element as S or Z. -/
def elemInt (w : Nat) (z : Bool) (x : Word) (j : Nat) : Int :=
  if z then (elem w x j : Nat) else Sys2Proof.signed w (elem w x j)

/-- The exact sum of DOT4 or DOT8: `n` elements of `w` bits (R144). -/
def dotSum (n w : Nat) (za zb : Bool) (a b c : Word) : Int :=
  (List.range n).foldl (fun t j => t + elemInt w za a j * elemInt w zb b j) (s32 c)

/-- DOT4 and DOT8 (R144): under .MIX b has the other signedness. -/
def dotV (n w : Nat) (z sat mix : Bool) (a b c : Word) : Word × BitVec 6 :=
  let t := dotSum n w z (z != mix) a b c
  if sat then sat32 false t else (wrap32 t, 0)

def execDot4S8 (g : Guard) (d : Dst) (a b c : Src) (sat mix : Bool) (s : State) : Out State :=
  op3 g d a b c (dotV 4 8 false sat mix) s
def execDot4Z8 (g : Guard) (d : Dst) (a b c : Src) (sat mix : Bool) (s : State) : Out State :=
  op3 g d a b c (dotV 4 8 true sat mix) s
def execDot8S4 (g : Guard) (d : Dst) (a b c : Src) (sat mix : Bool) (s : State) : Out State :=
  op3 g d a b c (dotV 8 4 false sat mix) s
def execDot8Z4 (g : Guard) (d : Dst) (a b c : Src) (sat mix : Bool) (s : State) : Out State :=
  op3 g d a b c (dotV 8 4 true sat mix) s

/-! ## Scaled narrow dot products (R145, R146, R166) -/

/-- One term of an exact sum: a sign, a magnitude, an exponent. -/
structure Term where
  neg : Bool
  m : Nat
  e : Int
  deriving DecidableEq, Repr

/-- An exact sum of terms as an integer multiple of a power of two. -/
def sumTerms (ts : List Term) : Int × Int :=
  ts.foldl (fun acc t => exactAdd acc.1 acc.2 (toInt t.neg t.m) t.e) (0, 0)

/-- The sign of an exact sum of several terms that is zero (R101). -/
def zeroTerms (rnd : Rnd) (ts : List Term) : Bool :=
  if rnd == .rm then !ts.all (fun t => t.m == 0 && !t.neg) else ts.all (fun t => t.m == 0 && t.neg)

/-- Round an exact sum of several terms once into a format (R101). -/
def Fmt.roundTerms (f : Fmt) (rnd : Rnd) (sat : Bool) (ts : List Term) : FpRes :=
  let t := sumTerms ts
  f.roundZ rnd sat (zeroTerms rnd ts) (decide (t.1 < 0)) t.1.natAbs t.2

/-- The product of two values that are no NaN and not zero times infinity, scaled by `2^k`. -/
def prodTerm (k : Int) (x y : Fv) : Term :=
  match x, y with
  | .fin n m e, .fin j l d => ⟨n != j, m * l, e + d + k⟩
  | _, _ => ⟨false, 0, 0⟩

/-- DOT4F and DOT8F on one lane: `n` elements of format `f`, scales `sa` and `sb`, accumulator `d` (R145, R146). -/
def dotFV (f : Fmt) (n w : Nat) (fm : FpMode) (sa sb : Nat) (a b d : Word) : FpRes :=
  let es := (List.range n).map (fun j => (f.value (elem w a j), f.value (elem w b j)))
  let acc := fp32.value d.toNat
  let infs := (es.filter (fun p => p.1.isInf || p.2.isInf)).map (fun p => p.1.neg != p.2.neg)
    ++ (if acc.isInf then [acc.neg] else [])
  if acc.isSig then fp32.nan flNV
  else if acc.isNan || sa == 0xFF || sb == 0xFF || es.any (fun p => p.1.isNan || p.2.isNan) then fp32.nan 0
  else if es.any (fun p => (p.1.isZero && p.2.isInf) || (p.1.isInf && p.2.isZero)) then fp32.nan flNV
  else match infs with
    | [] =>
      let k : Int := (sa : Int) + sb - 254
      let at_ : Term := match acc with
        | .fin s m e => ⟨s, m, e⟩
        | .nan _ | .inf _ => ⟨false, 0, 0⟩
      fp32.roundTerms fm.rnd fm.sat (at_ :: es.map (fun p => prodTerm k p.1 p.2))
    | s :: t => if t.all (· == s) then ⟨fp32.signed s fp32.infBits, 0⟩ else fp32.nan flNV

/-- A destination read as a source: what d holds (R145). -/
def Dst.asSrc (d : Sys2Proof.Dst) : Src :=
  match d with
  | .v n => .v n
  | .s n => .s n
  | .zero => .zero

/-- DOT4F and DOT8F (R145): the scales are bytes of the two registers of c. -/
def dotF (f : Fmt) (n w : Nat) (g : Guard) (d : Sys2Proof.Dst) (a b c : Src) (ea eb : Fin 4) (fm : FpMode) (s : State) :
    Out State :=
  regIssue g (a.regs ++ b.regs ++ c.regsRun 2 ++ d.regs) d.regs false (fun x =>
    let v (l : Nat) := (dotFV f n w fm (elem 8 (c.readRun x.rf x.lit none l 0) ea) (elem 8 (c.readRun x.rf x.lit none l 1) eb)
      (a.read x.rf x.lit l) (b.read x.rf x.lit l) ((Dst.asSrc d).read x.rf x.lit l)).w32
    (x.rf.write d x.q (fun l => (v l).1), orLanes x.q (fun l => (v l).2))) s

def execDot4fE4m3 (g : Guard) (d : Sys2Proof.Dst) (a b c : Src) (ea eb : Fin 4) (fm : FpMode) (s : State) : Out State :=
  dotF e4m3 4 8 g d a b c ea eb fm s
def execDot4fE5m2 (g : Guard) (d : Sys2Proof.Dst) (a b c : Src) (ea eb : Fin 4) (fm : FpMode) (s : State) : Out State :=
  dotF e5m2 4 8 g d a b c ea eb fm s
def execDot8fE2m1 (g : Guard) (d : Sys2Proof.Dst) (a b c : Src) (ea eb : Fin 4) (fm : FpMode) (s : State) : Out State :=
  dotF e2m1 8 4 g d a b c ea eb fm s

/-! ## SCALE (R147) -/

/-- SCALE on one lane. -/
def scaleV (e8 : Option (Fin 4)) (fm : FpMode) (a b : Word) : FpRes :=
  let go (k : Int) : FpRes :=
    match fp32.value a.toNat with
    | .nan s => fp32.nan (flIf s flNV)
    | .inf _ => ⟨a.toNat, 0⟩
    | .fin n m e => if m = 0 then ⟨a.toNat, 0⟩ else fp32.round fm.rnd fm.sat n m (e + k)
  match e8 with
  | some j => if elem 8 b j = 0xFF then fp32.nan 0 else go ((elem 8 b j : Nat) - 127)
  | none => go (max (-400) (min 400 (s32 b)))

def execScale (g : Guard) (d : Sys2Proof.Dst) (a b : Src) (e8 : Option (Fin 4)) (fm : FpMode) (s : State) : Out State :=
  op2 g d a b (fun x y => (scaleV e8 fm x y).w32) s

/-! ## CVT (R148 to R150) -/

/-- The format of a floating CVT type other than E8M0. -/
def cvtFmt : CvtTy → Option Fmt
  | .f16 => some fp16
  | .bf16 => some bf16
  | .f32 => some fp32
  | .f64 => some fp64
  | .e4m3 => some Machine.e4m3
  | .e5m2 => some Machine.e5m2
  | .e2m1 => some Machine.e2m1
  | .e8m0 | .s8 | .z8 | .s16 | .z16 | .s32 | .z32 | .s64 | .z64 => none

/-- Is an integer type signed? -/
def cvtSigned : CvtTy → Bool
  | .s8 | .s16 | .s32 | .s64 => true
  | .z8 | .z16 | .z32 | .z64 | .f16 | .bf16 | .f32 | .f64 | .e4m3 | .e5m2 | .e2m1 | .e8m0 => false

/-- The range of an integer type (R95). -/
def cvtRange (t : CvtTy) : Int × Int :=
  if cvtSigned t then (-(2 ^ (t.width - 1)), 2 ^ (t.width - 1) - 1) else (0, 2 ^ t.width - 1)

/-- The integer of an encoding. -/
def cvtIntOf (t : CvtTy) (b : Nat) : Int := if cvtSigned t then Sys2Proof.signed t.width b else (b : Int)

/-- The exact value of a source element. -/
def cvtValue (t : CvtTy) (b : Nat) : Fv :=
  if t.isInt then
    let x := cvtIntOf t b
    .fin (decide (x < 0)) x.natAbs 0
  else match cvtFmt t with
    | some f => f.value b
    | none => e8m0Value b

/-- One element converted (R149); `seed` under .SR. -/
def cvtElem (dt st : CvtTy) (rnd : Rnd) (sat : Bool) (seed : Option Word) (b : Nat) : FpRes :=
  if dt.isInt then
    if st.isInt then
      let x := cvtIntOf st b
      let r := cvtRange dt
      let c := clampInt r.1 r.2 x
      if sat then ⟨Sys2Proof.wrap dt.width c.1, flIf c.2 flSATC⟩ else ⟨Sys2Proof.wrap dt.width x, 0⟩
    else
      let r := (cvtValue st b).toInteger rnd (cvtRange dt).1 (cvtRange dt).2
      ⟨Sys2Proof.wrap dt.width r.1, r.2⟩
  else match cvtFmt dt with
    | none => toE8m0 rnd sat (cvtValue st b)
    | some f =>
      match seed with
      | some sd => f.convertSr sat sd (cvtValue st b)
      | none => f.convert rnd sat (cvtValue st b)

/-- The bits of a source run as one number, first register lowest. -/
def runBits (a : Src) (n : Nat) (rf : RegFile) (lit : Word) (wide : Option Widen) (lane : Nat) : Nat :=
  (List.range n).foldl (fun t k => t + (a.readRun rf lit wide lane k).toNat * 2 ^ (32 * k)) 0

/-- How a source run of this type widens a literal (R66, R139). -/
def cvtWiden (t : CvtTy) : Option Widen :=
  match t with
  | .f64 => some .fp
  | .s64 => some .sext
  | .z64 => some .zext
  | .s8 | .z8 | .s16 | .z16 | .s32 | .z32 | .f16 | .bf16 | .f32 | .e4m3 | .e5m2 | .e2m1 | .e8m0 => none

/-- All elements of a lane: the destination run as one number, the flags, and the seed afterwards (R149). -/
def cvtLane (dt st : CvtTy) (rnd : Rnd) (sat sr : Bool) (src : Nat) (seed : Word) : Nat × BitVec 6 × Word :=
  (List.range (cvtCount dt st)).foldl (fun acc k =>
    let r := cvtElem dt st rnd sat (if sr then some acc.2.2 else none) (src / 2 ^ (st.width * k) % 2 ^ st.width)
    (acc.1 + r.bits * 2 ^ (dt.width * k), acc.2.1 ||| r.fl, if sr then seedStep acc.2.2 else acc.2.2)) (0, 0, seed)

/-- CVT (R148 to R150). -/
def execCvt (g : Guard) (d : Sys2Proof.Dst) (a : Src) (dt st : CvtTy) (rnd : Rnd) (sat sr : Bool) (s : State) : Out State :=
  let n := cvtCount dt st
  let ns := cvtRun n st.width
  let nd := cvtRun n dt.width
  regIssue g (a.regsRun ns ++ (if sr then [.seed] else [])) (d.regsRun nd ++ (if sr then [.seed] else [])) false (fun x =>
    let v (l : Nat) := cvtLane dt st rnd sat sr (runBits a ns x.rf x.lit (cvtWiden st) l) (Map.get 1 x.rf.seed l)
    let rf := (List.range nd).foldl (fun r k => r.writeRun d k x.q (fun l => BitVec.ofNat 32 ((v l).1 / 2 ^ (32 * k)))) x.rf
    let rf := if sr then { rf with seed := (lanesOf x.q).foldl (fun m l => Map.put 1 m l (v l).2.2) rf.seed } else rf
    (rf, orLanes x.q (fun l => (v l).2.1))) s

/-! ## PACK and UNPACK (R151, R152) -/

/-- Pack `n` values of `w` bits into a word, the first lowest. -/
def packList (w : Nat) : List Nat → Nat
  | [] => 0
  | x :: t => x % 2 ^ w + 2 ^ w * packList w t

/-- PACK (R151). -/
def execPack (g : Guard) (d : Sys2Proof.Dst) (f : PackForm) (s : State) : Out State :=
  match f with
  | .h16 a b => op2 g d a b (fun x y => (BitVec.ofNat 32 (packList 16 [x.toNat, y.toNat]), 0)) s
  | .b8 a b c e =>
    regIssue g (a.regs ++ b.regs ++ c.regs ++ e.regs) d.regs false (fun x =>
      noFlags (x.rf.write d x.q (fun l => BitVec.ofNat 32 (packList 8
        [(a.read x.rf x.lit l).toNat, (b.read x.rf x.lit l).toNat, (c.read x.rf x.lit l).toNat,
          (e.read x.rf x.lit l).toNat])))) s
  | .n4 a =>
    regIssue g (a.regsRun 8) d.regs false (fun x =>
      noFlags (x.rf.write d x.q (fun l => BitVec.ofNat 32 (packList 4
        ((List.range 8).map (fun k => (a.readRun x.rf x.lit none l k).toNat)))))) s
  | .s4sat a =>
    regIssue g (a.regsRun 8) d.regs false (fun x =>
      let c (l k : Nat) := clampInt (-8) 7 (s32 (a.readRun x.rf x.lit none l k))
      (x.rf.write d x.q (fun l => BitVec.ofNat 32 (packList 4 ((List.range 8).map (fun k => Sys2Proof.wrap 4 (c l k).1)))),
        orLanes x.q (fun l => flIf ((List.range 8).any (fun k => (c l k).2)) flSATC))) s
  | .z4sat a =>
    regIssue g (a.regsRun 8) d.regs false (fun x =>
      let c (l k : Nat) := clampInt 0 15 (z32 (a.readRun x.rf x.lit none l k))
      (x.rf.write d x.q (fun l => BitVec.ofNat 32 (packList 4 ((List.range 8).map (fun k => Sys2Proof.wrap 4 (c l k).1)))),
        orLanes x.q (fun l => flIf ((List.range 8).any (fun k => (c l k).2)) flSATC))) s

/-- The element width and signedness of UNPACK (R152). -/
def unpackShape : UnpackForm → Nat × Bool
  | .z16 => (16, false)
  | .s16 => (16, true)
  | .z8 => (8, false)
  | .s8 => (8, true)
  | .z4 => (4, false)
  | .s4 => (4, true)

/-- UNPACK (R152). -/
def execUnpack (g : Guard) (d : Sys2Proof.Dst) (a : Src) (f : UnpackForm) (s : State) : Out State :=
  let sh := unpackShape f
  regIssue g a.regs (d.regsRun f.run) false (fun x =>
    noFlags ((List.range f.run).foldl (fun r k => r.writeRun d k x.q (fun l =>
      let e := elem sh.1 (a.read x.rf x.lit l) k
      if sh.2 then BitVec.ofInt 32 (Sys2Proof.signed sh.1 e) else BitVec.ofNat 32 e)) x.rf)) s

/-! ## Special functions (R153 to R156): long-latency -/

def execRcp (g : Guard) (d : Sys2Proof.Dst) (a : Src) (s : State) : Out State :=
  op1 g d a true (fun x => (rcpF x.toNat).w32) s
def execRsq (g : Guard) (d : Sys2Proof.Dst) (a : Src) (s : State) : Out State :=
  op1 g d a true (fun x => (rsqF x.toNat).w32) s
def execSqrt (g : Guard) (d : Sys2Proof.Dst) (a : Src) (s : State) : Out State :=
  op1 g d a true (fun x => (sqrtF x.toNat).w32) s
def execEx2 (g : Guard) (d : Sys2Proof.Dst) (a : Src) (s : State) : Out State :=
  op1 g d a true (fun x => (ex2F x.toNat).w32) s
def execLg2 (g : Guard) (d : Sys2Proof.Dst) (a : Src) (s : State) : Out State :=
  op1 g d a true (fun x => (lg2F x.toNat).w32) s
def execSin (g : Guard) (d : Sys2Proof.Dst) (a : Src) (s : State) : Out State :=
  op1 g d a true (fun x => (sinF x.toNat).w32) s
def execCos (g : Guard) (d : Sys2Proof.Dst) (a : Src) (s : State) : Out State :=
  op1 g d a true (fun x => (cosF x.toNat).w32) s
def execTanh (g : Guard) (d : Sys2Proof.Dst) (a : Src) (s : State) : Out State :=
  op1 g d a true (fun x => (tanhF x.toNat).w32) s

/-! ## The pair word (R67 to R69) -/

/-- No source modifier, and the default FP mode: what a pair half carries (R68, R138). -/
def smodNone : Sys2Proof.SMod := { na := false, nb := false, nc := false, aa := false, ab := false, ac := false }
def fmDefault : FpMode := { rnd := .rne, sat := false }

/-- The full-form result of a pair operation (R68, R93). -/
def pairV (o : PairOp) (x y : Word) : Word × BitVec 6 :=
  match o with
  | .mov => (x, 0)
  | .iadd => iaddV .wrap x y
  | .isub => isubV .wrap x y
  | .ineg => inegV false x
  | .iabs => iabsV false x
  | .imul24 => (imul24V false x y, 0)
  | .imul24h => (imul24hV false x y, 0)
  | .imin => (iminV false x y, 0)
  | .imax => (imaxV false x y, 0)
  | .shl => (shlV x y, 0)
  | .shr => (shrV x y, 0)
  | .sha => (shaV x y, 0)
  | .brev => (brevV x, 0)
  | .popc => (popcV x, 0)
  | .clz => (clzV x, 0)
  | .ctz => (ctzV x, 0)
  | .fadd => (faddV fp32 smodNone fmDefault x.toNat y.toNat).w32
  | .fmul => (fmulV fp32 smodNone fmDefault x.toNat y.toNat).w32
  | .fmin => (fminmaxV fp32 false smodNone x.toNat y.toNat).w32
  | .fmax => (fminmaxV fp32 true smodNone x.toNat y.toNat).w32
  | .hadd2F16 => half2 (faddV fp16 smodNone fmDefault) x y
  | .hadd2Bf16 => half2 (faddV bf16 smodNone fmDefault) x y
  | .hmul2F16 => half2 (fmulV fp16 smodNone fmDefault) x y
  | .hmul2Bf16 => half2 (fmulV bf16 smodNone fmDefault) x y
  | .hmin2F16 => half2 (fminmaxV fp16 false smodNone) x y
  | .hmin2Bf16 => half2 (fminmaxV bf16 false smodNone) x y
  | .hmax2F16 => half2 (fminmaxV fp16 true smodNone) x y
  | .hmax2Bf16 => half2 (fminmaxV bf16 true smodNone) x y

/-- The registers a half names. -/
def halfReads : PairHalf → List RegId
  | .empty => []
  | .op _ _ a b => a.regs ++ Src.regsOpt b
def halfWrites : PairHalf → List RegId
  | .empty => []
  | .op _ d _ _ => d.regs

/-- The result of a half in a lane. -/
def halfVal (h : PairHalf) (rf : RegFile) (lit : Word) (l : Nat) : Word × BitVec 6 :=
  match h with
  | .empty => (0, 0)
  | .op o _ a b => pairV o (a.read rf lit l) (match b with | some b => b.read rf lit l | none => 0)

/-- The write of a half. -/
def halfWrite (h : PairHalf) (rf : RegFile) (q : LaneMask) (f : Nat → Word) : RegFile :=
  match h with
  | .empty => rf
  | .op _ d _ _ => rf.write d q f

/-- PAIR: both halves read before either writes (R68). -/
def execPair (h1 h2 : PairHalf) (s : State) : Out State :=
  regIssue .always (halfReads h1 ++ halfReads h2) (halfWrites h1 ++ halfWrites h2) false (fun x =>
    let v1 := halfVal h1 x.rf x.lit
    let v2 := halfVal h2 x.rf x.lit
    (halfWrite h2 (halfWrite h1 x.rf x.q (fun l => (v1 l).1)) x.q (fun l => (v2 l).1),
      orLanes x.q (fun l => (v1 l).2 ||| (v2 l).2))) s

end Sys2Proof.Machine
end

