-- ==== Sys2Proof/Machine/SpanMath.lean ====
section
/-! DEFINITION. The arithmetic of the span (R166 to R168, R176): the value of a group, the fold of a row, dequantised weights,
and the ray-box test. -/

namespace Sys2Proof.Machine

/-- A form of SPAN.MMA (R161, R166): the formats of A and B, the K of a pass, the K of a group, the scale registers of a side,
and whether B holds 4-bit weights, as E2M1 (`true`) or as S4. -/
structure MmaForm where
  fa : Fmt
  width : Nat
  k : Nat
  group : Nat
  scales : Nat
  weight : Option Bool
  deriving DecidableEq, Repr

/-- The forms (R161, R163, R166). -/
def mmaForm : Instr → Option MmaForm
  | .spanMmaBf16 .. => some ⟨bf16, 16, 64, 4, 0, none⟩
  | .spanMmaW4bf .. => some ⟨bf16, 16, 64, 4, 1, some false⟩
  | .spanMmaWf4bf .. => some ⟨bf16, 16, 64, 4, 1, some true⟩
  | .spanMmaE4m3 .. => some ⟨e4m3, 8, 128, 64, 1, none⟩
  | .spanMmaE5m2 .. => some ⟨e5m2, 8, 128, 64, 1, none⟩
  | .spanMmaE2m1 .. => some ⟨e2m1, 4, 256, 64, 1, none⟩
  | .spanMmaE4m3B32 .. => some ⟨e4m3, 8, 128, 32, 1, none⟩
  | .spanMmaE5m2B32 .. => some ⟨e5m2, 8, 128, 32, 1, none⟩
  | .spanMmaE2m1B32 .. => some ⟨e2m1, 4, 256, 32, 2, none⟩
  | .spanLoop .. => some ⟨bf16, 16, 64, 4, 0, none⟩
  | _ => none

/-- Element `e` of a row of elements of `w` bits (R105, R162). -/
def rowElem (w : Nat) (row : List Byte) (e : Nat) : Nat :=
  ofBytes ((row.drop (e * w / 8)).take ((w + 7) / 8)) / 2 ^ (e * w % 8) % 2 ^ w

/-- The elements of a row of A, and of a column of B. -/
def MmaForm.rowA (f : MmaForm) (row : List Byte) : List Fv := (List.range f.k).map (fun e => f.fa.value (rowElem f.width row e))

/-- A dequantised weight with its flags (R168): `fp4` reads the weight as E2M1, else as S4. -/
def dequant (fp4 : Bool) (q : Nat) (scale : Nat) : FpRes :=
  let v := if fp4 then e2m1.value q else
    let x := Sys2Proof.signed 4 q
    Fv.fin (decide (x < 0)) x.natAbs 0
  match bf16.value scale with
  | .nan sig => ⟨0x7FC0, flIf sig flNV⟩
  | .inf n => if v.isZero then ⟨0x7FC0, flNV⟩ else ⟨bf16.signed (n != v.neg) bf16.infBits, 0⟩
  | .fin n m e => match v with
    | .fin k l d => bf16.roundZ .rne false (n != k) (n != k) (m * l) (e + d)
    | .nan _ | .inf _ => ⟨0x7FC0, 0⟩

/-- The elements of a column of B with the flags of its dequantisation; `scale` holds the column's scale bytes. -/
def MmaForm.colB (f : MmaForm) (col scale : List Byte) : List Fv × BitVec 6 :=
  match f.weight with
  | none => ((List.range f.k).map (fun e => f.fa.value (rowElem f.width col e)), 0)
  | some fp4 =>
    let r := (List.range f.k).map (fun e => dequant fp4 (rowElem 4 col e) (ofBytes (scale.take 2)))
    (r.map (fun x => bf16.value x.bits), r.foldl (fun a x => a ||| x.fl) 0)

/-- GroupValue (R167): the pairs of the group, an E8M0 scale of 0xFF, and the exponent of the scales. -/
def groupValue (ps : List (Fv × Fv)) (nanScale : Bool) (k : Int) : FpRes :=
  let infs := (ps.filter (fun p => p.1.isInf || p.2.isInf)).map (fun p => p.1.neg != p.2.neg)
  if ps.any (fun p => p.1.isSig || p.2.isSig) then fp32.nan flNV
  else if nanScale || ps.any (fun p => p.1.isNan || p.2.isNan) then fp32.nan 0
  else if ps.any (fun p => (p.1.isZero && p.2.isInf) || (p.1.isInf && p.2.isZero)) then fp32.nan flNV
  else match infs with
    | [] => fp32.roundTerms .rne false (ps.map (fun p => prodTerm k p.1 p.2))
    | s :: t => if t.all (· == s) then ⟨fp32.signed s fp32.infBits, 0⟩ else fp32.nan flNV

/-- ONE ELEMENT OF A PASS (R166): the groups of row `a` and column `b` folded into the accumulator in ascending order. `sa` and
`sb` are the scale bytes of the row and of the column. -/
def MmaForm.fold (f : MmaForm) (a b : List Fv) (sa sb : List Byte) (acc : Word) : Word × BitVec 6 :=
  let ps := a.zip b
  (List.range (f.k / f.group)).foldl (fun (x : Word × BitVec 6) g =>
    let mx := f.weight.isNone && f.scales != 0
    let ka := (sa.getD g 0).toNat
    let kb := (sb.getD g 0).toNat
    let v := groupValue ((ps.drop (g * f.group)).take f.group) (mx && (ka == 0xFF || kb == 0xFF))
      (if mx then (ka : Int) + kb - 254 else 0)
    let r := fp32.add .rne false x.1.toNat v.bits
    (BitVec.ofNat 32 r.bits, x.2 ||| v.fl ||| r.fl)) (acc, 0)

/-! ## The ray-box test (R176) -/

/-- x - y and x * y in FP32, each rounded once. -/
def sub32 (x y : Nat) : Nat := (fp32.add .rne false x (fp32.modify false true y)).bits
def mul32 (x y : Nat) : Nat := (fp32.mul .rne false x y).bits
def min32 (x y : Nat) : Nat := (fp32.minMax false x y).bits
def max32 (x y : Nat) : Nat := (fp32.minMax true x y).bits

/-- The interval of one axis. -/
def slab (o i lo hi : Nat) : Nat × Nat :=
  let t0 := mul32 (sub32 lo o) i
  let t1 := mul32 (sub32 hi o) i
  if (fp32.value t0).isNan || (fp32.value t1).isNan then (0xFF800000, 0x7F800000) else (min32 t0 t1, max32 t0 t1)

/-- The entry of a ray into a box, or none where it misses: eight words of the ray, six of the box. -/
def boxHit (ray box : List Nat) : Option Nat :=
  let r (k : Nat) := ray.getD k 0
  let b (k : Nat) := box.getD k 0
  if (ray ++ box).any (fun x => (fp32.value x).isNan) || (List.range 3).any (fun x => (fp32.compare .gt (b x) (b (x + 3))).1) then none
  else
    let ax (x : Nat) := slab (r x) (r (x + 3)) (b x) (b (x + 3))
    let enter := max32 (max32 (max32 (r 6) (ax 0).1) (ax 1).1) (ax 2).1
    let exit := min32 (min32 (min32 (r 7) (ax 0).2) (ax 1).2) (ax 2).2
    if (fp32.compare .le enter exit).1 then some enter else none

/-- The mask and the nearest entry over 32 boxes; `box j` holds the six words of box j. -/
def rbox (ray : List Nat) (box : Nat → List Nat) : Word × Word :=
  let r := (List.range 32).foldl (fun (acc : Nat × Nat) j =>
    match boxHit ray (box j) with
    | some e => (acc.1 + 2 ^ j, min32 acc.2 e)
    | none => acc) (0, 0x7F800000)
  (BitVec.ofNat 32 r.1, BitVec.ofNat 32 r.2)

end Sys2Proof.Machine
end

