-- ==== Sys2Proof/Machine/Span.lean ====
section
/-! DEFINITION. The span (R157 to R181, R325, R326): the issue of span instructions, tokens, the reservation table, tenures and
passes, and the loop walker. -/

namespace Sys2Proof.Machine

/-! ## Copies of a loop walk (R177, R178) -/

/-- The walk's copies as a bulk copy with default modifiers. -/
def Walk.copy (k : Walk) : CopyOp :=
  { op := k.op, wave := k.wave, core := k.core, instr := k.instr, word := k.word, addr := k.addr, hdr := k.hdr, mask := k.mask, src := 0
    dst := 0, desc := k.c, sync := none, levels := none, rows := [], upto := 0, done := [], counted := 0, stopped := false, dead := false }

def State.putWalk (s : State) (k : Walk) : State := { s with walks := replaceBy (fun x => x.op == k.op) k s.walks }

/-- A reservation table has room (R158). -/
def State.freeEntries (s : State) (cl : Nat) : Nat := 32 - (s.cluster cl).span.entries.length

/-- A step whose copies have arrived takes a reservation entry, be it while the pass of the step before runs (R158, R325); the REPLAY
that the walk has waited for is answered with it (R354). -/
def State.postStep (s : State) (k : Walk) : State :=
  let cl := clusterOfCore k.core
  match s.wave? k.wave with
  | none => s
  | some w =>
    if k.posted || k.done.length < 512 || s.freeEntries cl = 0 then s.putWalk k
    else
      let prio := s.effPrio (s.regionOf w)
      let e : SpanEntry := { op := k.op, wave := k.wave, prio := prio, block := some k.block, kind := .step, order := s.fresh,
                             skipped := 0 }
      { ((s.putWalk { k with posted := true }).unwait k.wave k.op).updCluster cl (fun c => { c with span := { c.span with
          entries := c.span.entries ++ [e] } }) with fresh := s.fresh + 1 }

/-- THE DRAIN STATE (R178): the token of the block is with the wave, the flags of the steps completed so far reach FPSTAT, the
flag bound to the SPAN.LOOP stays set, and nothing of step n is folded. A walk whose wave has exited is discarded. -/
def State.stopWalk (s : State) (w : Wave) (k : Walk) (dead : Bool) : State :=
  if w.live = 0 then { s with walks := s.walks.filter (fun x => x.op != k.op) }.putWave (w.complete k.op)
  else
    let w1 := { w.writeBack k.op (fun rf => rf.orFlags k.flags) with spanHeld := w.spanHeld &&& ~~~((1 : BitVec 6) <<< k.block) }
    let t := (s.putWave w1).putWalk { k with
      fetch := k.n, done := [], posted := false, stopped := true, stopping := false, dead := dead, flags := 0 }
    { t with clusters := t.clusters.map (fun c => { c with span := { c.span with
        entries := c.span.entries.filter (fun e => e.op != k.op) } }) }

/-- A unit of a walk's copies does not translate (R178, R343): the walk stops when the step is the one that runs next; until
then, or while the filters are full, the unit waits. -/
def State.walkFault (s : State) (w : Wave) (k : Walk) (want : Want) (x : Nat × Tr) : State :=
  match x.2 with
  | .bad cause level pte =>
    if k.fetch != k.n then s
    else
      let t := s.openFault w k.op x.1 want cause level pte (some (k.vector k.n))
      if t.blocked w.uid k.op then t.stopWalk w k false else s
  | .unbound => s.uncontained w (s.reportOf w 0x24 0x1 k.word k.addr k.hdr)
  | .refused | .ok _ => s

/-- A COPY UNIT OF A WALK (R177, R178). -/
def State.walkUnit (s : State) (rd : State → Nat → Nat → List Byte) (op u : Nat) : State :=
  match s.walks.find? (fun k => k.op == op) with
  | none => s
  | some k =>
    match s.wave? k.wave with
    | none => s
    | some w =>
      if k.stopped || k.levels.isNone || k.total ≤ k.fetch then s
      else if k.done.length = 512 then s.postStep k
      else if 512 ≤ u || k.done.contains u then s
      else
        let c := k.copy
        let at_ := k.unitAt u
        if !s.copyMayRun w c at_.1 at_.2 then s
        else match s.copySource rd w c at_.1 with
          | .error x => s.walkFault w k Want.loopRead x
          | .ok (s1, data, pa) =>
            if s.bad.contains (pa / 64) then (if k.fetch = k.n then s.stopWalk w k true else s)
            else match s1.copyWrite w c at_.2 data with
              | .error _ => s
              | .ok t => (t.updateLines (t.sidePlace w.core) pa data).postStep { k with done := k.done ++ [u] }

/-! ## Issue (R157, R160, R162) -/

/-- The issue of a span instruction: it issues in a hitched cluster too, and its checks are made whatever the guards
(R157, R160). The effect sees an empty set of lanes when no lane qualifies. It reads `regs` and names `dests` besides. -/
def spanIssue (g : Guard) (regs dests : List RegId) (f : State → Issue → LaneMask → Option State) (s : State) : Out State :=
  match s.issue? with
  | none => .fault .noPath
  | some i =>
    match s.gateAny i.w true (g.regs ++ (regs ++ dests)) with
    | .hold => .next s
    | .check => .next (s.checkTrap i)
    | .token => .next (s.tokenTrap i (f s i (qualify i.w.rf g i.p.lanes)))
    | .go =>
      if i.w.rf.spoilt regs (qualify i.w.rf g i.p.lanes) then .next (s.registerCheck i)
      else match f s i (qualify i.w.rf g i.p.lanes) with
        | none => .next s
        | some t => .next t

/-- A scratchpad operand passes its checks (R162). -/
def spanDescOk (size d t rows : Nat) : Bool :=
  d / 2 ^ 60 == 0 && spanBase d % 16 == 0 && spanRow d % 16 == 0 && decide (128 ≤ spanRow d) && spanTile d % 128 == 0
    && decide (spanBase d + t * spanTile d + (rows - 1) * spanRow d + 127 < size)

/-- The 128 logical bytes of a row of a scratchpad operand. -/
def State.spanRowBytes (s : State) (w : Wave) (d t k : Nat) : List Byte :=
  (List.range 128).map (fun x => s.padByte w true (spanOff d t k x))

/-- The bytes of `n` lane registers of a lane. -/
def RegFile.laneRun (rf : RegFile) (r n lane : Nat) : List Byte :=
  (List.range n).flatMap (fun k => toBytes 4 (rf.vreg (r + k) lane).toNat)

/-- The 64 bits of a scalar pair. -/
def RegFile.spair (rf : RegFile) (n : Nat) : Nat := (rf.sreg (n + 1) ++ rf.sreg n : Word64).toNat

/-- A span operation on a block of the wave, issued before `op`, has not ended (R158, R174). A walk that is stopped counts as ended here,
as SPAN_PEND reads it (R178): what the manual leaves open, whether a later operation on its block waits for its remaining steps, the model
answers with no (assumption log 84). -/
def State.blockBusy (s : State) (w : Wave) (m op : Nat) : Bool :=
  w.ops.any (fun o => o.op < op && spanBlock o.instr == some m)
    || w.waybill.any (fun o => o.op < op && !o.started && spanBlock o.instr == some m)
    || s.walks.any (fun k => k.wave == w.uid && k.op < op && !k.stopped && k.block == m)

/-- The token of a block is with the span. -/
def Wave.spanHas (w : Wave) (m : Nat) : Bool := w.spanHeld.getLsbD m

/-- A reservation entry is posted. -/
def State.postEntry (s : State) (w : Wave) (op : Nat) (block : Option Nat) (kind : SpanKind) : State :=
  let e : SpanEntry := { op := op, wave := w.uid, prio := s.effPrio (s.regionOf w), block := block, kind := kind
                         order := op, skipped := 0 }
  s.updCluster (clusterOfCore w.core) (fun c => { c with span := { c.span with entries := c.span.entries ++ [e] } })

/-- A span operation runs on beside the wave: its results are marked, the registers it reads held, its flag bound. -/
def State.issueSpan (s : State) (i : Issue) (a : Access) (reads writes : List RegId) : State :=
  let w1 := { i.w with
    ops := i.w.ops ++ [a]
    marks := if writes.isEmpty then i.w.marks else i.w.marks ++ [Mark.mk s.fresh writes]
    reads := if reads.isEmpty then i.w.reads else i.w.reads ++ [Mark.mk s.fresh reads] }
  { s with fresh := s.fresh + 1 }.retire i (w1.bind s.fresh i.flag)

/-- A span operation of a wave ends: its flags reach FPSTAT in one step, its marks and its flag clear (R169). -/
def State.endSpan (s : State) (wave op : Nat) (fl : BitVec 6) : State :=
  match s.wave? wave with
  | none => s
  | some w =>
    let w1 := w.writeBack op (fun rf => rf.orFlags fl)
    (s.putWave ({ w1 with ops := w1.ops.filter (fun o => o.op != op) }.complete op)).settleOver wave

/-! ## HITCH and UNHITCH (R171) -/

/-- HITCH. -/
def execHitch (g : Guard) (s : State) : Out State :=
  spanIssue g [] [] (fun s i q =>
    let cl := clusterOfCore i.w.core
    if q = 0 || (s.cluster cl).span.owner == some i.w.uid then some (s.retire i i.w)
    else if s.freeEntries cl = 0 then none
    else some ((s.postEntry i.w s.fresh none .hitch).issueSpan i (i.access s (.hitch g) q [] []) [] [])) s

/-- A SIMT word of a cluster waits to issue (R326). -/
def State.simtWaits (s : State) (cl : Nat) : Bool :=
  s.waves.any (fun w => clusterOfCore w.core == cl && w.paths.any (fun p => p.clause.isSome && !p.waiting && !p.halted && !p.dbg))

/-- The cluster unhitches (R171, R326): the UNHITCH that waits for it completes. -/
def State.unhitch (s : State) (cl : Nat) : State :=
  let s1 := s.updCluster cl (fun c => { c with span := { c.span with
    hitched := false, owner := none, passes := 0, pass := [], ending := false
    coolUntil := if s.simtWaits cl then s.tick + 2 else s.tick } })
  let ops := (s1.waves.filter (fun w => clusterOfCore w.core == cl)).flatMap (fun w =>
    (w.ops.filter (fun o => match o.instr with | .unhitch _ => true | _ => false)).map (fun o => (w.uid, o.op)))
  ops.foldl (fun t x => t.endSpan x.1 x.2 0) s1

/-- UNHITCH: the tenure ends once the pass in progress has. -/
def execUnhitch (g : Guard) (s : State) : Out State :=
  spanIssue g [] [] (fun s i q =>
    let cl := clusterOfCore i.w.core
    if q = 0 || (s.cluster cl).span.owner != some i.w.uid then some (s.retire i i.w)
    else
      let t := s.issueSpan i (i.access s (.unhitch g) q [] []) [] []
      some (t.updCluster cl (fun c => { c with span := c.span.disown (fun u => u == i.w.uid) }))) s

/-! ## Tokens: SPAN.ACQ, SPAN.REL, SPAN.REL.ST, SPAN.ZERO (R160, R172, R173) -/

/-- SPAN.ACQ: held until no mark remains on the block; the token passes at issue when a lane qualifies. -/
def execSpanAcq (g : Guard) (d : Fin 192) (s : State) : Out State :=
  spanIssue g [] (vRun d 32) (fun s i q =>
    if i.w.readMarked (vRun d 32) then none
    else if q = 0 then some (s.retire i i.w)
    else
      let w1 := { i.w with
        spanHeld := i.w.spanHeld ||| (1 <<< blockOf d), marks := i.w.marks ++ [Mark.mk s.fresh []] }
      some ({ s with fresh := s.fresh + 1 }.retire i (w1.bind s.fresh i.flag))) s

/-- The token of a block passes back to the wave at issue (R172). -/
def Issue.tokenBack (i : Issue) (m : Nat) : Issue := { i with w := { i.w with spanHeld := i.w.spanHeld &&& ~~~((1 : BitVec 6) <<< m) } }

/-- SPAN.REL. -/
def execSpanRel (g : Guard) (d : Fin 192) (s : State) : Out State :=
  spanIssue g [] [] (fun s i q =>
    if !i.w.spanHas (blockOf d) then some (s.tokenTrap i none)
    else if q = 0 then some (s.retire i i.w)
    else some (s.issueSpan (i.tokenBack (blockOf d)) (i.access s (.spanRel g d) q [] []) [] (vRun d 32))) s

/-- The rows of a postilion's SPAN.REL.ST, which never enters a waybill: each is performed or trapped (R10, R367). -/
def State.postRows (s : State) (i : Issue) (d : Fin 192) (e : Access) : Option State :=
  let a := { e with pieces := e.pieces.map (fun (p : Piece) => { p with x := i.w.rf.laneRun d 32 p.lane }) }
  if s.blockBusy i.w (blockOf d) s.fresh then none
  else match a.instr.memOp with
    | none => none
    | some m => match s.enter i.w a m with
      | .wait => none
      | .stop t => some t
      | .fault va t => some (s.accessFault i.w a.op va (a.storeWant m) t a.word a.addr a.hdr none)
      | .go maps => some ((s.noteMaps i.w maps).issueOp (i.tokenBack (blockOf d)) { a with maps := maps } [] true)

/-- SPAN.REL.ST: a waybill entry is reserved in program order, to be filled once the block is final; a row whose home field names an unbound
virtual die is DIE_BINDING here, at the word (R343, R355). The row pitch counts as an unsigned 32-bit number, which the manual does not say
(assumption log 84). -/
def execSpanRelSt (g : Guard) (d : Fin 192) (a : Fin 48) (b : Src) (shw : Bool) (s : State) : Out State :=
  spanIssue g ((Src.s a).regsRun 2 ++ b.regs) [] (fun s i q =>
    let base := i.w.rf.spair a
    let pitch := (b.read i.w.rf i.c.head.lit 0).toNat
    let bad := base % 128 != 0 || pitch % 128 != 0
    if !i.w.spanHas (blockOf d) then some (s.tokenTrap i (if bad then some (s.illegal i 0x13) else none))
    else if bad then some (s.illegal i 0x13)
    else if q = 0 then some (s.retire i i.w)
    else
      let ps : List Piece := (lanesOf q).reverse.map (fun l =>
        { lane := l, addr := (base + l * pitch) % 2 ^ 64, len := 128, x := [], y := [], got := [], done := false })
      let e := i.access s (.spanRelSt g d a b shw) q ps []
      let want := { Want.store false with shadow := shw }
      if i.w.post.isSome then s.postRows i d e
      else match ps.find? (fun p => s.xlate i.w want p.addr == .unbound) with
      | some p => some (s.accessFault i.w s.fresh p.addr want .unbound i.word i.addr i.c.addr none)
      | none =>
      if 8 ≤ i.w.waybillLoad then none
      else
      let j := i.tokenBack (blockOf d)
      let w1 := { j.w with waybill := j.w.waybill ++ [e], marks := j.w.marks ++ [Mark.mk s.fresh (vRun d 32)] }
      some ({ s with fresh := s.fresh + 1 }.retire j (w1.bind s.fresh i.flag))) s

/-- THE ROWS OF A SPAN.REL.ST ARE STORED once the block is final (R172): at the head of the waybill, where every row translates, all are
performed and the entry is freed as soon as nothing holds them, and the marks and the flag clear with their performance at device scope;
else, behind older entries or where a row does not translate, they are placed in the entry, which drains as others do, and the marks and
the flag clear at once. -/
def State.relStStep (s : State) (w : Wave) (a : Access) : State :=
  match a.instr with
  | .spanRelSt _ d _ _ shw =>
    if s.blockBusy w (blockOf d) a.op then s
    else
      let a1 := { a with started := true, pieces := a.pieces.map (fun (p : Piece) => { p with x := w.rf.laneRun d 32 p.lane }) }
      let w1 := { w with waybill := w.waybill.map (fun (o : Access) => if o.op == a.op then a1 else o) }
      let t := s.putWave w1
      if w1.waybill.head?.map (fun o => o.op) != some a.op then t.settleOp w.uid a.op
      else
        let r := t.drainHead w1
        let placed := a.pieces.any (fun p => match s.xlate w { Want.store false with shadow := shw } p.addr with
          | .ok _ => false
          | .bad _ _ _ | .unbound | .refused => true)
        if placed || !(r.wave? w.uid).any (fun x => x.waybill.any (fun o => o.op == a.op)) then r.settleOp w.uid a.op else s
  | _ => s

/-- SPAN.ZERO. -/
def execSpanZero (g : Guard) (d : Fin 192) (s : State) : Out State :=
  spanIssue g [] [] (fun s i q =>
    if !i.w.spanHas (blockOf d) then some (s.tokenTrap i none)
    else if q = 0 then some (s.retire i i.w)
    else some (s.issueSpan i (i.access s (.spanZero g d) q [] []) [] [])) s

/-- SPAN.REL and SPAN.ZERO take their place in the block's order (R158, R172, R173). -/
def State.blockStep (s : State) (w : Wave) (a : Access) : State :=
  match a.instr with
  | .spanRel _ d => if s.blockBusy w (blockOf d) a.op then s else s.endSpan w.uid a.op 0
  | .spanZero _ d =>
    if s.blockBusy w (blockOf d) a.op then s
    else
      let w1 := w.writeBack a.op (fun rf => (List.range 32).foldl (fun r k => r.putV (d + k) a.mask (fun _ => 0)) rf)
      (s.putWave w1).endSpan w.uid a.op 0
  | _ => s

/-! ## SPAN.STAT (R174) -/

/-- The loop indices and the step count as SPAN.STAT reads them. -/
def State.loopView (s : State) (w : Wave) : List Nat × Nat :=
  match s.walks.find? (fun k => k.wave == w.uid) with
  | none => (w.walkIdx, w.walkSteps)
  | some k =>
    let inPass := (s.cluster (clusterOfCore k.core)).span.pass.any (fun e => e.op == k.op)
    (k.vector (if k.stopped || inPass then k.n else k.n - 1), k.n)

/-- The status word (R174). -/
def State.spanStatus (s : State) (w : Wave) : Nat :=
  let sp := (s.cluster (clusterOfCore w.core)).span
  let pend := (List.range 6).foldl (fun n m => if s.blockBusy w m (2 ^ 64) then n + 2 ^ (6 + m) else n) 0
  let stopped := s.walks.any (fun k => k.wave == w.uid && k.stopped)
  (if sp.hitched then (16 - sp.passes) * 2 ^ 22 + 2 ^ 21 else 0) + sp.entries.length * 2 ^ 15
    + (if stopped then 2 ^ 14 else 0) + pend + w.spanHeld.toNat

/-- SPAN.STAT. -/
def execSpanStat (g : Guard) (d : Dst) (sel : Fin 7) (s : State) : Out State :=
  spanIssue g [] d.regs (fun s i q =>
    if q = 0 then some (s.retire i i.w)
    else if i.w.readMarked d.regs then none
    else
      let v := s.loopView i.w
      let x := if sel.val = 0 then s.spanStatus i.w else if sel.val = 6 then min v.2 0xFFFFFFFF else v.1.getD (sel.val - 1) 0
      let w1 := { i.w with
        rf := i.w.rf.write d q (fun _ => BitVec.ofNat 32 x), marks := i.w.marks ++ [Mark.mk s.fresh d.regs] }
      some ({ s with fresh := s.fresh + 1 }.retire i (w1.bind s.fresh i.flag))) s

/-! ## SPAN.MMA and SPAN.RBOX: issue (R163 to R165, R175, R176) -/

/-- The registers an operand run names. -/
def spanSrcRegs (n : Nat) : SpanSrc → List RegId
  | .run r => vRun r n
  | .desc r => (Src.s r).regsRun 2

/-- Only lane registers are held for a pass (R164). -/
def runRegs (n : Nat) : SpanSrc → List RegId
  | .run r => vRun r n
  | .desc _ => []

/-- The descriptor of a scratchpad operand, 0 for a run. -/
def RegFile.spanDesc (rf : RegFile) : SpanSrc → Nat
  | .run _ => 0
  | .desc r => rf.spair r

/-- An operand passes its checks. -/
def State.spanSrcOk (s : State) (w : Wave) (t : Nat) : SpanSrc → Bool
  | .run _ => true
  | .desc r => spanDescOk (s.spaceSize w .cluster) (w.rf.spair r) t 32

/-- SPAN.MMA (R165, R175): token and descriptors, then one entry for each quarter that a qualifying lane lies in. `bn` is the
length of B's register run, `c` the scale run. -/
def mma (ins : Instr) (g : Guard) (o : MmaOps) (bn : Nat) (c : Nat) (cn : Nat) (s : State) : Out State :=
  spanIssue g (spanSrcRegs 32 o.a ++ spanSrcRegs bn o.b ++ vRun c cn) [] (fun s i q =>
    let w := i.w
    let bad := !s.spanSrcOk w o.aTile o.a || !s.spanSrcOk w o.bTile o.b
    if !w.spanHas (blockOf o.d) then some (s.tokenTrap i (if bad then some (s.illegal i 0x13) else none))
    else if bad then some (s.illegal i 0x13)
    else if q = 0 then some (s.retire i w)
    else
      let quarters := (List.range 4).filter (fun k => (q &&& (0xFF <<< (8 * k))) != 0)
      if s.freeEntries (clusterOfCore w.core) < quarters.length then none
      else
        let bytes (x : SpanSrc) (n l : Nat) : List Byte := match x with | .run r => w.rf.laneRun r n l | .desc _ => []
        let ps : List Piece := (List.range 32).map (fun l =>
          { lane := l, addr := 0, len := 0, x := bytes o.a 32 l, y := bytes o.b bn l, got := w.rf.laneRun c cn l, done := false })
        let a := i.access s ins q ps [quarters.length, 0, w.rf.spanDesc o.a, w.rf.spanDesc o.b]
        let s1 := quarters.foldl (fun t k => t.postEntry w s.fresh (some (blockOf o.d)) (.quarter k)) s
        some (s1.issueSpan i a (runRegs 32 o.a ++ runRegs bn o.b ++ vRun c cn) [])) s

def execSpanMmaBf16 (g : Guard) (o : MmaOps) (s : State) : Out State := mma (.spanMmaBf16 g o) g o 32 0 0 s
def execSpanMmaE4m3 (g : Guard) (o : MmaOps) (c : Fin 192) (s : State) : Out State := mma (.spanMmaE4m3 g o c) g o 32 c 2 s
def execSpanMmaE5m2 (g : Guard) (o : MmaOps) (c : Fin 192) (s : State) : Out State := mma (.spanMmaE5m2 g o c) g o 32 c 2 s
def execSpanMmaE2m1 (g : Guard) (o : MmaOps) (c : Fin 192) (s : State) : Out State := mma (.spanMmaE2m1 g o c) g o 32 c 2 s
def execSpanMmaW4bf (g : Guard) (o : MmaOps) (c : Fin 192) (s : State) : Out State := mma (.spanMmaW4bf g o c) g o 8 c 1 s
def execSpanMmaWf4bf (g : Guard) (o : MmaOps) (c : Fin 192) (s : State) : Out State := mma (.spanMmaWf4bf g o c) g o 8 c 1 s
def execSpanMmaE4m3B32 (g : Guard) (o : MmaOps) (c : Fin 192) (s : State) : Out State := mma (.spanMmaE4m3B32 g o c) g o 32 c 2 s
def execSpanMmaE5m2B32 (g : Guard) (o : MmaOps) (c : Fin 192) (s : State) : Out State := mma (.spanMmaE5m2B32 g o c) g o 32 c 2 s
def execSpanMmaE2m1B32 (g : Guard) (o : MmaOps) (c : Fin 192) (s : State) : Out State := mma (.spanMmaE2m1B32 g o c) g o 32 c 4 s

/-- SPAN.RBOX (R176): one entry, one pass. -/
def execSpanRbox (g : Guard) (d a : Fin 192) (b : Fin 48) (bTile : Fin 16) (s : State) : Out State :=
  spanIssue g (vRun a 8 ++ (Src.s b).regsRun 2) (vRun d 2) (fun s i q =>
    let db := i.w.rf.spair b
    if !spanDescOk (s.spaceSize i.w .cluster) db bTile 6 then some (s.illegal i 0x13)
    else if q = 0 then some (s.retire i i.w)
    else if i.w.readMarked (vRun d 2) || s.freeEntries (clusterOfCore i.w.core) = 0 then none
    else
      let ps : List Piece := (List.range 32).map (fun l =>
        { lane := l, addr := 0, len := 0, x := i.w.rf.laneRun a 8 l, y := [], got := [], done := false })
      let e := i.access s (.spanRbox g d a b bTile) q ps [1, 0, 0, db]
      some ((s.postEntry i.w s.fresh none .rbox).issueSpan i e (vRun a 8) (vRun d 2))) s

/-! ## SPAN.LOOP: issue (R177) -/

/-- SPAN.LOOP. -/
def execSpanLoop (g : Guard) (d : Fin 192) (a b c : Fin 48) (stage : Fin 256) (s : State) : Out State :=
  spanIssue g ((Src.s a).regsRun 2 ++ (Src.s b).regsRun 2 ++ (Src.s c).regsRun 2) [] (fun s i q =>
    let w := i.w
    let va := w.rf.spair a
    let vb := w.rf.spair b
    let vc := w.rf.spair c
    let k : Walk :=
      { op := s.fresh, wave := w.uid, core := w.core, word := i.word, addr := i.addr, hdr := i.c.addr
        instr := .spanLoop g d a b c stage, block := blockOf d, mask := q, a := va, b := vb, c := vc, stage := stage * 4096
        levels := none, n := 0, fetch := 0, done := [], posted := false, stopped := false, stopping := false, dead := false
        flags := 0 }
    let start (t : State) (x : Walk) (back : Bool) : State :=
      let w1 := if back then (i.tokenBack (blockOf d)).w else w
      { t with walks := t.walks ++ [x], fresh := t.fresh + 1 }.retire i (w1.bind s.fresh i.flag)
    let go : Option State :=
      if va % 128 != 0 || vb % 128 != 0 || s.spaceSize w .cluster < stage * 4096 + 16384 then some (s.illegal i 0x13)
      else if q = 0 then some (s.retire i w)
      else if vc % 64 != 0 then some (s.illegal i 0x14)
      else if !s.copyRoom w.core 2 then none
      else match s.readLoop w s.fresh Want.loopRead vc with
        | .error (x, .bad cause level pte) =>
          let t := s.openFault w s.fresh x Want.loopRead cause level pte (some [0, 0, 0, 0, 0])
          if t.blocked w.uid s.fresh then some (start t { k with stopped := true } true) else none
        | .error (x, .unbound) => some (s.accessFault w s.fresh x Want.loopRead .unbound i.word i.addr i.c.addr none)
        | .error _ => none
        | .ok (t, bs, bad) =>
          if bad then some (s.machineCheck w i.word i.addr i.c.addr)
          else match parseLoop bs 128 with
            | none => some (s.illegal i 0x14)
            | some lv => some (start t { k with levels := some lv } false)
    if s.walks.any (fun x => x.wave == w.uid) then none
    else if !w.spanHas (blockOf d) then some (s.tokenTrap i go)
    else go) s

/-- LOOP_RESUME (R179, R215): the wave is resident, its core has room for two copies and, after a fault stop, its REPLAY has
arrived; the token goes back to the span and the copies of step n are issued again. -/
def State.loopResume (s : State) (op : Nat) : State :=
  match s.walks.find? (fun k => k.op == op) with
  | none => s
  | some k =>
    match s.wave? k.wave with
    | none => s
    | some w =>
      let resident := match s.gang? w.gang with | some g => g.state == .resident | none => false
      let regs := vRun (32 * k.block) 32
      if !k.stopped || k.dead || !resident || s.blocked w.uid op || !s.copyRoom w.core 2 then s
      else if !w.spanHas k.block && (w.marked regs || w.readMarked regs) then s
      else
        let go (t : State) (x : Walk) : State :=
          (t.putWave { w with spanHeld := w.spanHeld ||| (1 <<< k.block) }).putWalk { x with stopped := false }
        if k.levels.isSome then go s k
        else match s.readLoop w op Want.loopRead k.c with
          | .error (x, t) => s.accessFault w op x Want.loopRead t k.word k.addr k.hdr (some [0, 0, 0, 0, 0])
          | .ok (t, bs, bad) =>
            if bad then s.machineCheck w k.word k.addr k.hdr
            else match parseLoop bs 128 with
              | none => s.uncontained w (s.reportOf w 0x22 0x14 k.word k.addr k.hdr)
              | some lv => go t { k with levels := some lv }

def execLoopResume (walk : Nat) (s : State) : Out State := .next (s.loopResume walk)

/-! ## Tenures (R326) -/

/-- The operation behind an entry. -/
def State.spanOp (s : State) (e : SpanEntry) : Option Access :=
  match s.wave? e.wave with
  | some w => w.ops.find? (fun o => o.op == e.op)
  | none => none

/-- The lanes whose operation an entry is part of. -/
def State.entryLanes (s : State) (e : SpanEntry) : LaneMask :=
  ((s.spanOp e).map (fun a => a.mask)).getD (((s.walks.find? (fun k => k.op == e.op)).map (fun k => k.mask)).getD allLanes)

/-- An entry may run (R158, R164): nothing older of its wave works on its block, the wave's earlier stores to scratchpad are performed, no
SYNCW of its lanes before it is incomplete, and of a walk's steps it is the next one's. -/
def State.entryReady (s : State) (e : SpanEntry) : Bool :=
  match s.wave? e.wave with
  | none => false
  | some w =>
    let stores := w.ops.any (fun o => o.op < e.op && o.writes && (match o.space with | some sp => !sp.mapped | none => false))
      || !w.mayPerform e.op (s.entryLanes e) false
    let turn := s.walks.all (fun k => k.op != e.op || k.fetch == k.n)
    match e.kind, e.block with
    | .hitch, _ => true
    | .rbox, _ => !stores
    | .quarter _, some m => !stores && !s.blockBusy w m e.op
    | .step, some m => !stores && turn && !s.blockBusy w m e.op
    | .quarter _, none | .step, none => false

/-- The entry of the highest priority, the oldest among equals; one that has been passed over four times comes first. -/
def entryBefore (aging : Bool) (x y : SpanEntry) : Bool :=
  let ax := aging && decide (4 ≤ x.skipped)
  let ay := aging && decide (4 ≤ y.skipped)
  if ax != ay then ax
  else if !ax && x.prio != y.prio then decide (y.prio < x.prio)
  else decide (x.order < y.order)

def headOf (aging : Bool) : List SpanEntry → Option SpanEntry
  | [] => none
  | x :: t => match headOf aging t with
    | none => some x
    | some y => if entryBefore aging y x then some y else some x

/-- The B operand and scale keys of a quarter operation (R165): opcode form, gang, descriptor, tile, scales. -/
def spanKey (w : Wave) (a : Access) : Option (MmaForm × Bool × Nat × Nat × Nat × List (List Byte)) :=
  match mmaForm a.instr with
  | none => none
  | some f =>
    let o? : Option MmaOps := match a.instr with
      | .spanMmaBf16 _ o | .spanMmaE4m3 _ o _ | .spanMmaE5m2 _ o _ | .spanMmaE2m1 _ o _ | .spanMmaW4bf _ o _
      | .spanMmaWf4bf _ o _ | .spanMmaE4m3B32 _ o _ | .spanMmaE5m2B32 _ o _ | .spanMmaE2m1B32 _ o _ => some o
      | _ => none
    o?.map (fun o =>
      let reg := match o.b with | .run _ => true | .desc _ => false
      (f, reg, if reg then a.op else w.gang, a.aux.getD 3 0, o.bTile.val,
        a.pieces.map (fun p => if f.weight.isSome then p.got else p.got.drop (4 * f.scales))))

/-- May an entry be fused with the head? (R165, R326) -/
def State.mayFuse (s : State) (head e : SpanEntry) : Bool :=
  match head.kind, e.kind, s.wave? head.wave, s.wave? e.wave, s.spanOp head, s.spanOp e with
  | .quarter _, .quarter _, some w1, some w2, some a1, some a2 =>
    (spanKey w1 a1).isSome && spanKey w1 a1 == spanKey w2 a2
  | _, _, _, _, _, _ => false

/-- Entries in the order of age. -/
def insertAge (e : SpanEntry) : List SpanEntry → List SpanEntry
  | [] => [e]
  | x :: t => if e.order < x.order then e :: x :: t else x :: insertAge e t

/-- The pass that a head entry forms (R326). -/
def State.formPass (s : State) (ready : List SpanEntry) (head : SpanEntry) : List SpanEntry :=
  head :: (((ready.filter (fun e => e != head && s.mayFuse head e)).foldl (fun l e => insertAge e l) []).take 3)

/-- The copies of the next step start when the pass of a step starts (R177). -/
def Walk.next (k : Walk) : Walk := { k with fetch := k.n + 1, done := [], posted := false }

/-- A pass starts; its cluster works again (R334). -/
def State.startPass (s : State) (cl : Nat) (pass : List SpanEntry) : State :=
  let s1 := s.updCluster cl (fun c => { c with span := { c.span with
    hitched := true, pass := pass, passes := c.span.passes + 1 }, issued := some s.tick, ballast := 0 })
  { s1 with walks := s1.walks.map (fun k => if pass.any (fun e => e.op == k.op && e.kind == .step) then k.next else k) }

/-- The ready entries of a cluster that can head or join a pass. -/
def State.readyPasses (s : State) (cl : Nat) : List SpanEntry :=
  (s.cluster cl).span.entries.filter (fun e => e.kind != .hitch && s.entryReady e)

/-- The next pass of a running tenure, or its end (R171, R326). -/
def State.nextPass (s : State) (cl : Nat) : State :=
  let sp := (s.cluster cl).span
  if sp.ending || 16 ≤ sp.passes then s.unhitch cl
  else match headOf false (s.readyPasses cl) with
    | some h => s.startPass cl (s.formPass (s.readyPasses cl) h)
    | none => if sp.owner.isSome then s else s.unhitch cl

/-- TENURE_GRANT (R326): an unhitched cluster with a ready entry hitches; in a tenure held open, a pass that has become
possible starts. A claim whose wave has exited since is granted too and holds the tenure open until one of the other ends of R171, which
leaves that case open (assumption log 84). -/
def execTenureGrant (cluster : Nat) (s : State) : Out State :=
  let c := s.cluster cluster
  let sp := c.span
  if sp.hitched then
    if sp.pass.isEmpty && sp.owner.isSome && !(s.readyPasses cluster).isEmpty then .next (s.nextPass cluster) else .next s
  else if s.tick < sp.coolUntil || c.modeTo.isSome then .next s
  else
    let ready := sp.entries.filter s.entryReady
    match headOf true ready with
    | none => .next s
    | some h =>
      let age (taken : List SpanEntry) (t : State) : State := t.updCluster cluster (fun c => { c with span := { c.span with
        entries := c.span.entries.map (fun e => if ready.contains e && !taken.contains e then { e with skipped := e.skipped + 1 }
          else e) } })
      if h.kind == .hitch then
        let s1 := (age [h] s).updCluster cluster (fun c => { c with span := { c.span with
          entries := c.span.entries.filter (fun e => e.op != h.op), hitched := true, owner := some h.wave, passes := 0, ending := false
          idle := s.tick } })
        .next ((s1.endSpan h.wave h.op 0).nextPass cluster)
      else
        let pass := s.formPass (ready.filter (fun e => e.kind != .hitch)) h
        .next ((age pass s).startPass cluster pass)

/-- TENURE_IDLE_TIMEOUT (R171): 256 consecutive cycles without a pass end a tenure held open. -/
def execTenureIdleTimeout (cluster : Nat) (s : State) : Out State :=
  let sp := (s.cluster cluster).span
  if sp.hitched && sp.owner.isSome && sp.pass.isEmpty && sp.idle + 10 ≤ s.tick then .next (s.unhitch cluster) else .next s

/-! ## Passes (R164, R166 to R169) -/

/-- Rows of a quarter operation updated (R166): the registers of the block and the flags. -/
def mmaRows (f : MmaForm) (d : Nat) (rows : List Nat) (a : Nat → List Byte) (b : List (List Fv × BitVec 6)) (sa sb : Nat → List Byte)
    (rf : RegFile) : RegFile × BitVec 6 :=
  rows.foldl (fun (acc : RegFile × BitVec 6) i =>
    let ea := f.rowA (a i)
    (List.range 32).foldl (fun (x : RegFile × BitVec 6) j =>
      let col := b.getD j ([], 0)
      let r := f.fold ea col.1 (sa i) (sb j) (x.1.vreg (d + j) i)
      (x.1.putV (d + j) (laneBit i) (fun _ => r.1), x.2 ||| r.2 ||| col.2)) acc) (rf, 0)

/-- The operands of a quarter operation (R161 to R163). -/
def State.mmaPass (s : State) (w : Wave) (a : Access) (f : MmaForm) (o : MmaOps) (rows : List Nat) (rf : RegFile) :
    RegFile × BitVec 6 :=
  let piece (l : Nat) : Piece := a.pieces.getD l { lane := l, addr := 0, len := 0, x := [], y := [], got := [], done := false }
  let rowA (l : Nat) : List Byte := match o.a with
    | .run _ => (piece l).x
    | .desc _ => s.spanRowBytes w (a.aux.getD 2 0) o.aTile l
  let colB (l : Nat) : List Byte := match o.b with
    | .run _ => (piece l).y
    | .desc _ => s.spanRowBytes w (a.aux.getD 3 0) o.bTile l
  let sb (l : Nat) : List Byte := if f.weight.isSome then (piece l).got else (piece l).got.drop (4 * f.scales)
  mmaRows f o.d rows rowA ((List.range 32).map (fun j => f.colB (colB j) (sb j))) (fun l => (piece l).got) sb rf

/-- The rows of a quarter that qualify. -/
def quarterRows (mask : LaneMask) (q : Nat) : List Nat := (lanesOf mask).filter (fun l => l / 8 == q)

/-- A pass entry of an operation has ended: one quarter less, its flags gathered; the last one ends the operation. -/
def State.endEntry (s : State) (w : Wave) (a : Access) (fl : BitVec 6) : State :=
  let flags := BitVec.ofNat 6 (a.aux.getD 1 0) ||| fl
  let left := a.aux.headD 1 - 1
  if left = 0 then (s.putWave w).endSpan w.uid a.op flags
  else s.putWave { w with ops := w.ops.map (fun o => if o.op == a.op then
    { a with aux := left :: flags.toNat :: a.aux.drop 2 } else o) }

/-- A pass of a step of a walk (R177): A and B of the step's buffers. -/
def State.walkPass (s : State) (w : Wave) (k : Walk) (rf : RegFile) : RegFile × BitVec 6 :=
  let f : MmaForm := ⟨bf16, 16, 64, 4, 0, none⟩
  let at_ (base l : Nat) : List Byte := s.padBytes w true (base + 128 * l) 128
  let a := k.stage + k.n % 2 * 0x1000
  mmaRows f (32 * k.block) (lanesOf k.mask) (at_ a) ((List.range 32).map (fun j => f.colB (at_ (a + 0x2000) j) [])) (fun _ => [])
    (fun _ => []) rf

/-- A step of a walk has ended (R177, R178). -/
def State.endStep (s : State) (w : Wave) (k : Walk) : State :=
  let w1 := w.writeBack k.op (fun rf => (s.walkPass w k rf).1)
  let k1 := { k with n := k.n + 1, flags := k.flags ||| (s.walkPass w k w.rf).2 }
  let s1 := s.putWave w1
  if k1.n = k1.total then
    let lv := k1.levels.getD []
    let w2 := { w1 with walkIdx := lv.map (fun l => l.1 - 1), walkSteps := k1.n }
    { s1.putWave w2 with walks := s1.walks.filter (fun x => x.op != k.op) }.endSpan w.uid k.op k1.flags
  else if k1.stopping then s1.stopWalk w1 k1 false
  else s1.postStep k1

/-- An operand of a pass entry that it would consume holds an uncorrectable error (R391): the registers it folds into, or words of the
scratchpad. -/
def State.entrySpoilt (s : State) (w : Wave) (e : SpanEntry) : Bool :=
  let desc (d t n : Nat) : Bool := (List.range n).any (fun k => s.padSpoilt w true (spanOff d t k 0) 128)
  let src (x : SpanSrc) (d t n : Nat) : Bool := match x with | .run _ => false | .desc _ => desc d t n
  match e.kind with
  | .hitch => false
  | .step => match s.walks.find? (fun k => k.op == e.op) with
    | some k => w.rf.spoilt (vRun (32 * k.block) 32) k.mask || s.padSpoilt w true (k.stage + k.n % 2 * 0x1000) 0x1000
      || s.padSpoilt w true (k.stage + k.n % 2 * 0x1000 + 0x2000) 0x1000
    | none => false
  | .quarter q => match w.ops.find? (fun o => o.op == e.op) with
    | some a => (match mmaOps a.instr with
      | some o => w.rf.spoilt (vRun o.d 32) (maskOf (fun l => l / 8 == q && a.mask.getLsbD l))
        || src o.a (a.aux.getD 2 0) o.aTile 32 || src o.b (a.aux.getD 3 0) o.bTile 32
      | none => false)
    | none => false
  | .rbox => match w.ops.find? (fun o => o.op == e.op) with
    | some a => (match a.instr with
      | .spanRbox _ _ _ _ t => desc (a.aux.getD 3 0) t 6
      | _ => false)
    | none => false

/-- The word, its address and its clause of an operation or a walk that a pass entry belongs to. -/
def State.entryWord (s : State) (w : Wave) (e : SpanEntry) : Word64 × Word64 × Word64 :=
  match w.ops.find? (fun o => o.op == e.op), s.walks.find? (fun k => k.op == e.op) with
  | some a, _ => (a.word, a.addr, a.hdr)
  | none, some k => (k.word, k.addr, k.hdr)
  | none, none => (0, 0, 0)

/-- One entry of a pass has ended. -/
def State.passEntry (s : State) (e : SpanEntry) : State :=
  match s.wave? e.wave with
  | none => s
  | some w =>
    let s0 := { s with used := noteUse s.used w.core (s.regionOf w) }
    if s.entrySpoilt w e then
      let x := s.entryWord w e
      s0.machineCheck w x.1 x.2.1 x.2.2
    else match e.kind with
    | .hitch => s0
    | .step => match s0.walks.find? (fun k => k.op == e.op) with
      | some k => s0.endStep w k
      | none => s0
    | .quarter q => match w.ops.find? (fun o => o.op == e.op) with
      | none => s0
      | some a => match mmaForm a.instr, mmaOps a.instr with
        | some f, some o =>
          let rows := quarterRows a.mask q
          let fl := (s0.mmaPass w a f o rows w.rf).2
          s0.endEntry (w.writeBack a.op (fun rf => (s0.mmaPass w a f o rows rf).1)) a fl
        | _, _ => s0
    | .rbox => match w.ops.find? (fun o => o.op == e.op) with
      | some a => match a.instr with
        | .spanRbox _ d _ _ t =>
          let row (k : Nat) : List Byte := s0.spanRowBytes w (a.aux.getD 3 0) t k
          let rows := (List.range 6).map row
          let word (b : List Byte) (k : Nat) : Nat := (wordAt b k).toNat
          let box (j : Nat) : List Nat := rows.map (fun r => word r j)
          let hit (l : Nat) : Word × Word :=
            rbox ((List.range 8).map (word ((a.pieces[l]?.map (fun p => p.x)).getD []))) box
          let w1 := w.writeBack a.op (fun rf =>
            (rf.putV d a.mask (fun l => (hit l).1)).putV (d + 1) a.mask (fun l => (hit l).2))
          s0.endEntry w1 a 0
        | _ => s0
      | none => s0

/-- SPAN_PASS_END (R158, R159, R166): the pass in progress ends, its entries are freed, a PASSC set meanwhile holds from
now on, and the next pass starts or the tenure ends. Without a pass, a tenure that is to end ends. -/
def execSpanPassEnd (cluster : Nat) (s : State) : Out State :=
  let sp := (s.cluster cluster).span
  if !sp.hitched then .next s
  else if sp.pass.isEmpty then (if sp.ending then .next (s.unhitch cluster) else .next s)
  else
    let s1 := s.updCluster cluster (fun c => { c with passc := c.passTo, issued := some s.tick, span := { c.span with
      pass := [], idle := s.tick
      entries := c.span.entries.filter (fun e => !sp.pass.any (fun x => x.op == e.op && x.kind == e.kind && x.order == e.order)) } })
    .next ((sp.pass.foldl State.passEntry s1).nextPass cluster)

end Sys2Proof.Machine
end

