-- ==== Sys2Proof/Machine/Launch.lean ====
section
/-! DEFINITION. The command processor: contexts at latching (R340, R341, R364), launch descriptors (R32 to R34), doorbells
(R312, R313), node start (R36, R315), completion (R38), and ENQ, ENQG and DHOPS (R320 to R324). -/

namespace Sys2Proof.Machine

/-! ## Contexts -/

/-- A site is populated (R2). -/
def State.populated (s : State) (site : Nat) : Bool :=
  match s.variant with
  | .kz9 => decide (site < 8)
  | .kz96 => decide (site < 6)

/-- Bound virtual dies of a binding, in order, with their sites. -/
def Ctx.bound (c : Ctx) : List (Nat × Nat) := (List.range 8).filterMap (fun n => (c.site n).map (fun x => (n, x)))

/-- The device rejects the descriptor of a context at latching (R341, R364). -/
def State.ctxRejected (s : State) (id : Nat) : Bool :=
  let a := s.hub.ctxBase + 64 * id
  let c := s.readCtx id
  let root := s.numAt (a + 8) 8
  let ctl := s.numAt a 4
  let sites := c.bound.map (fun x => x.2)
  ctl % 2 = 0 || 8 ≤ ctl || s.numAt (a + 6) 2 != 0 || s.numAt (a + 0x18) 40 != 0 || root / 2 ^ 60 != 10
    || root / 2 ^ 44 % 2 ^ 16 != 0 || (s.homeOf c.root).isNone || s.bad.contains (a / 64)
    || c.bind.any (fun b => b.toNat / 8 % 16 != 0) || sites.any (fun x => !s.populated x) || sites.eraseDups.length != sites.length
    || sites.isEmpty || c.region = 0 || s.regionBad c.region
    || (s.regionChain c.region).any (fun r => s.ctxs.any (fun x => x.id != id && x.region == r))

/-- A context as the command processor uses it: latched, or as its descriptor stands. -/
def State.ctxOf (s : State) (id : Nat) : Ctx := (s.ctx? id).getD (s.readCtx id)

/-- Why a structure of the command processor is not read or not taken: it waits for a page-table change (R350), its home field names an
unbound virtual die (R343), or a REASON of R36. -/
inductive CpNo where
  | wait
  | unbound
  | reason (n : Nat)
  deriving DecidableEq, Repr

/-- A read by the command processor; `code` is its reason where it does not translate or meets an uncorrectable error (R36, R391). -/
def State.cpRead (s : State) (c : Ctx) (va n code : Nat) : Except CpNo (List Byte) :=
  match s.translate c (Want.load false) va with
  | .ok m =>
    if (sectors m.pa n).any (fun x => s.bad.contains x) then .error (.reason code) else .ok (s.bytesAt m.pa n)
  | .refused => .error .wait
  | .unbound => .error .unbound
  | .bad _ _ _ => .error (.reason code)

/-! ## Launch descriptors (R32 to R34) -/

/-- A field of a structure that has been read. -/
def field (b : List Byte) (o n : Nat) : Nat := ofBytes ((b.drop o).take n)

/-- The descriptor that 256 bytes hold (R32). -/
def parseDesc (b : List Byte) : Desc :=
  let dbg := field b 0x2C 4
  { entry := BitVec.ofNat 64 (field b 0 8), handler := BitVec.ofNat 64 (field b 8 8)
    saveBase := BitVec.ofNat 64 (field b 0x10 8), saveStride := field b 0x18 4, region := field b 0x1C 2
    gang := field b 0x1E 1 % 4, fuse := field b 0x1E 1 / 4 % 2 == 1, scratch := field b 0x1F 1 % 16
    waves := (List.range 4).map (fun i => field b (0x20 + i) 1)
    budgets := (List.range 4).map (fun i => field b (0x24 + i) 1)
    trapEn := BitVec.ofNat 5 (field b 0x28 4), dbgAttach := dbg % 2 == 1, breakEntry := dbg / 2 % 2 == 1
    stopScope := dbg / 4 % 4, dbgTag := dbg / 256 % 256, frameBase := BitVec.ofNat 64 (field b 0x30 8)
    framePerLane := field b 0x38 4, roundSeed := BitVec.ofNat 32 (field b 0x3C 4)
    args := (List.range 16).map (fun i => BitVec.ofNat 32 (field b (0xC0 + 4 * i) 4)) }

/-- Role and register budget of each wave of a workgroup, in wave index order (R31). -/
def Desc.roles (d : Desc) : List (Nat × Nat) :=
  (List.range 4).flatMap (fun r => List.replicate (d.waves.getD r 0) (r, 8 * d.budgets.getD r 0))

/-- The bytes of a full save record (R384). -/
def Desc.saveSize (d : Desc) : Nat :=
  256 + d.gangSize * (1024 + d.scratch * 32768 + d.roles.foldl (fun n r => n + (4096 + 128 * r.2)) 0)

/-- Role counts and budgets are as R31 and R34 ask. -/
def Desc.rolesOk (d : Desc) : Bool :=
  let w (i : Nat) := d.waves.getD i 0
  let b (i : Nat) := d.budgets.getD i 0
  (List.range 4).all (fun i => decide (w i ≤ 16) && (if w i = 0 then b i == 0 else decide (1 ≤ b i) && decide (b i ≤ 24)))
    && (if w 0 = 0 then decide (1 ≤ w 1 + w 2 + w 3) && decide (w 1 + w 2 + w 3 ≤ 16) else w 1 + w 2 + w 3 == 0)

/-- The command processor rejects a launch descriptor (R34); `r` is the node's region. -/
def State.descRejected (s : State) (r : Nat) (b : List Byte) : Bool :=
  let d := parseDesc b
  let dbg := field b 0x2C 4
  (b.drop 0x42).take 126 != List.replicate 126 0 || field b 0x1E 1 / 8 != 0 || field b 0x1F 1 / 16 != 0
    || field b 0x28 4 / 32 != 0 || dbg / 16 % 16 != 0 || dbg / 65536 != 0
    || d.entry.toNat % 8 != 0 || d.handler.toNat % 8 != 0 || d.saveBase.toNat % 256 != 0 || d.frameBase.toNat % 256 != 0
    || !d.rolesOk || 8 < d.scratch || d.gang = 3 || d.stopScope = 3
    || d.saveStride % 256 != 0 || d.saveStride < d.saveSize || d.framePerLane % 16 != 0 || 65536 < d.framePerLane
    || (if d.region = 0 then r == 0 else d.region != r && !s.below r d.region) || field b 0x40 2 != 1

/-- A launch descriptor read and checked: REASON 0x04 or 0x05, or the descriptor (R36). -/
def State.readDesc (s : State) (c : Ctx) (r : Nat) (va : Nat) : Except CpNo Desc :=
  if va % 256 != 0 then .error (.reason 0x04)
  else match s.cpRead c va 256 0x04 with
    | .error e => .error e
    | .ok b => if s.descRejected r b then .error (.reason 0x05) else .ok (parseDesc b)

/-- The region of a batch of a node (R39, R360). -/
def Desc.regionIn (d : Desc) (n : Node) : Nat := if d.region = 0 then n.region else d.region

/-- A batch as it is created (R30, R37). -/
def State.newBatch (s : State) (n : Node) (seq count : Nat) (d : Desc) (desc arg : Word64) (die : DieField) (lanes : LaneMask)
    (frags : Map Fragment) : State :=
  let b : Batch :=
    { uid := s.fresh, node := n.uid, seq := seq, count := count, desc := d, descAddr := desc, arg := arg
      region := d.regionIn n, die := die, next := 0, retired := 0, lanes := lanes, frags := frags
      gbarGen := 0, gbarCame := [], gbarLast := 0, gbarArr := [], release := none, headTick := s.tick
      aged := false }
  { s.putNode { n with nextSeq := seq + 1, spawn := n.spawn + count } with batches := s.batches ++ [b], fresh := s.fresh + 1 }

/-! ## Doorbells (R312, R313) -/

/-- Slots of a ring. -/
def Ring.size (r : Ring) : Nat := 2 ^ (r.sizeLog + 4)

def State.ring (s : State) (n : Nat) : Ring := s.rings.getD n .reset
def State.updRing (s : State) (n : Nat) (f : Ring → Ring) : State := { s with rings := updAt s.rings n f }

/-- STATE is BOOTING or REBOOTING (R396). -/
def State.booting (s : State) : Bool := s.fw.state == 0 || s.fw.state == 4

/-- The command processor is open: firmware runs (R393, R399). -/
def State.cpOpen (s : State) : Bool := (s.fw.state == 1 || s.fw.state == 2) && !s.pins.reset && !s.pins.linkFailed

/-- The address of a ring slot's record. -/
def State.slotAddr (s : State) (ring slot : Nat) : Nat := (s.ring ring).base + 256 * slot

/-- Write the STATE of a record. -/
def State.setState (s : State) (a st : Nat) : State :=
  s.cpWrite a (toBytes 4 (s.numAt a 4 / 16 * 16 + st))

/-- The record becomes READY (R314): the submitted mark clears, and it waits for its start. `at_` is the number of the event that makes
it READY, which those of one cycle share (R315). -/
def State.makeReady (s : State) (at_ ring slot : Nat) : State :=
  let a := s.slotAddr ring slot
  let n : Node :=
    { uid := s.fresh, ring := ring, slot := slot, ctx := (s.ring ring).ctx, region := s.numAt (a + 8) 2, running := false
      place := 0, readyTick := s.tick, readyAt := at_, spawn := 0, nextSeq := 0, startOrder := 0, tStart := 0
      seedLanes := s.numAt (a + 0xA) 2 % 64, resident := 0 }
  let s1 := (s.setState a 2).updRing ring (fun r => { r with submitted := r.submitted.filter (fun x => x != slot) })
  { s1 with nodes := s1.nodes ++ [n], fresh := s.fresh + 1 }

/-- A slot that a doorbell passes (R313): WAITING becomes submitted, and READY when it has no predecessor left. -/
def State.submitSlot (at_ : Nat) (s : State) (ring slot : Nat) : State :=
  let a := s.slotAddr ring slot
  if s.numAt a 4 % 16 != 1 || (s.ring ring).submitted.contains slot then s
  else
    let s1 := s.updRing ring (fun r => { r with submitted := r.submitted ++ [slot] })
    if s.numAt (a + 4) 4 = 0 then s1.makeReady at_ ring slot else s1

/-- A doorbell (R312, R313). -/
def State.doorbell (s : State) (ring head : Nat) : State :=
  let r := s.ring ring
  if s.pins.reset then s
  else if !s.cpOpen || !r.bound || r.size ≤ head || 64 ≤ ring then
    s.updRing ring (fun r => { r with discards := r.discards + 1 })
  else
    let count := (head + r.size - r.head % r.size) % r.size
    let s1 := (List.range count).foldl (fun t k => t.submitSlot s.fresh ring ((r.head + k) % r.size)) s
    s1.updRing ring (fun r => { r with head := head })

def execHubDoorbell (ring head : Nat) (s : State) : Out State := .next (s.doorbell ring head)

/-! ## Successors (R35, R36, R38) -/

/-- A successor reference that the checks at start refuse (R36, REASON 0x07). -/
def State.succBad (s : State) (x : Nat) : Bool :=
  x / 2 ^ 31 = 1 && (64 ≤ x / 2 ^ 16 % 2 ^ 6 || !(s.ring (x / 2 ^ 16 % 2 ^ 6)).bound || (s.ring (x / 2 ^ 16 % 2 ^ 6)).size ≤ x % 2 ^ 16)

/-- The successor references of a continuation chain from an address, up to its end or to where it stops: the second part says why, and
names the block it waits for and those met before (R35, R36, R350). There are 2^58 addresses of blocks, and no block is met twice. -/
def State.chain (s : State) (c : Ctx) : Nat → List Nat → Nat → List Nat × Option (CpNo × List Nat)
  | 0, _, _ => ([], some (.reason 0x07, []))
  | fuel + 1, seen, va =>
    if va = 0 then ([], none)
    else if va % 64 != 0 || seen.contains va then ([], some (.reason 0x07, []))
    else match s.cpRead c va 64 0x07 with
      | .error .wait => ([], some (.wait, va :: seen))
      | .error _ => ([], some (.reason 0x07, []))
      | .ok b =>
        let refs := (List.range 14).map (fun i => field b (4 * i) 4)
        if refs.any (fun x => x / 2 ^ 22 % 2 ^ 9 != 0) then ([], some (.reason 0x07, []))
        else
          let t := s.chain c fuel (va :: seen) (field b 0x38 8)
          (refs ++ t.1, t.2)

/-- Successor references of a record, in order (R38), as far as they can be read. -/
def State.succsOf (s : State) (n : Node) : List Nat × Option (CpNo × List Nat) :=
  let a := s.recordOf n
  let own := (List.range 6).map (fun i => s.numAt (a + 0x20 + 4 * i) 4)
  let t := s.chain (s.ctxOf n.ctx) (2 ^ 58 + 1) [] (s.numAt (a + 0x38) 8)
  (own ++ t.1, t.2)

/-- A record's PRED_COUNT falls by 1 (R38, R314, R322); at 0 a submitted record becomes READY. -/
def State.lowerPred (at_ : Nat) (s : State) (ring slot : Nat) : State :=
  let a := s.slotAddr ring slot
  let p := s.numAt (a + 4) 4 - 1
  let s1 := s.cpWrite (a + 4) (toBytes 4 p)
  if p = 0 && (s.ring ring).submitted.contains slot then s1.makeReady at_ ring slot else s1

/-- A completing node walks its successors (R38): the state, and whether a reference was skipped. -/
def State.lowerAll (s : State) (at_ : Nat) (refs : List Nat) : State × Bool :=
  refs.foldl (fun (acc : State × Bool) x =>
    if x / 2 ^ 31 % 2 = 0 then acc
    else
      let ring := x / 2 ^ 16 % 2 ^ 6
      let slot := x % 2 ^ 16
      let a := acc.1.slotAddr ring slot
      if !(acc.1.ring ring).bound || acc.1.numAt a 4 % 16 != 1 || acc.1.numAt (a + 4) 4 = 0 then (acc.1, true)
      else (acc.1.lowerPred at_ ring slot, acc.2)) (s, false)

/-- References of the record at `a` are lowered, REASON 0x08 is given for a skipped one, and a block that a page-table change keeps from
being read leaves the rest of the chain to its completion (R38, R350). -/
def State.lowerRefs (s : State) (a at_ : Nat) (c : Ctx) (l : List Nat × Option (CpNo × List Nat)) : State :=
  let r := s.lowerAll at_ l.1
  let t := if r.2 then r.1.cpWrite (a + 1) [0x08] else r.1
  match l.2 with
  | some (.wait, next) => { t with succs := t.succs ++ [{ record := a, ctx := c, next := next, at_ := at_ }] }
  | _ => t

/-- Chains that waited for a page-table change are walked on. -/
def State.resumeSuccs (s : State) : State :=
  s.succs.foldl (fun t x =>
    t.lowerRefs x.record x.at_ x.ctx (t.chain x.ctx (2 ^ 58 + 1) (x.next.drop 1) (x.next.headD 0))) { s with succs := [] }

/-- A NODE COMPLETES (R38, R314): BATCHES, T_END and STATE are written, its successors lowered, and REASON 0x08 given for a
skipped one. Of a chain that has become unreadable since the start, the references before that are lowered (assumption log 81). -/
def State.completeNode (s : State) (n : Node) : State :=
  let a := s.recordOf n
  let s1 := (s.cpWrite (a + 0x40) (toBytes 8 n.nextSeq)).cpWrite (a + 0x50) (toBytes 8 s.tick)
  let s2 := s1.setState a 4
  (s2.lowerRefs a s2.fresh (s2.ctxOf n.ctx) (s2.succsOf n)).dropNode n.uid false

/-! ## Node start (R36, R315) -/

/-- A node ends FAILED at its start or at a placement (R36, R341): the report, then the record. -/
def State.rejectNode (s : State) (n : Node) (reason : Nat) : State :=
  let r := if reason = 0x0F then cpReport 0x24 0x05 [n.ring, n.slot] 0
    else if reason = 0x0C then cpReport 0x22 0x0C [n.region] 0
    else cpReport 0x22 reason [n.ring, n.slot] 0
  let t := s.report r
  let t := if reason = 0x0F && !t.rejected.contains n.ctx then { t with rejected := t.rejected ++ [n.ctx] } else t
  t.failNode n reason

/-- The checks at start, in order: REASON, or the seed's descriptor (R36). -/
def State.checkNode (s : State) (n : Node) : Except CpNo Desc :=
  let a := s.recordOf n
  let f (o k : Nat) : Nat := s.numAt (a + o) k
  let c := s.ctxOf n.ctx
  let shape := f 0xA 2
  let reserved := f 0 4 / 16 % 16 != 0 || f 0 4 / 2 ^ 16 != 0 || shape / 64 != 0 || f 0xC 4 != 0 || f 0x58 40 != 0
    || (List.range 6).any (fun i => f (0x20 + 4 * i) 4 / 2 ^ 22 % 2 ^ 9 != 0)
  if reserved then .error (.reason 0x01)
  else if shape % 64 = 0 || 32 < shape % 64 then .error (.reason 0x02)
  else if f 8 2 = 0 then .error (.reason 0x03)
  else if (s.ctx? n.ctx).isNone && s.ctxRejected n.ctx then .error (.reason 0x0F)
  else if s.regionBad (f 8 2) then .error (.reason 0x0C)
  else if !s.below c.region (f 8 2) then .error (.reason 0x03)
  else match s.readDesc c (f 8 2) (f 0x10 8) with
    | .error e => .error e
    | .ok d =>
      if d.waveCount != 1 || d.gang != 0 then .error (.reason 0x06)
      else match s.succsOf n with
        | (_, some e) => .error e.1
        | (refs, none) => if refs.any s.succBad then .error (.reason 0x07) else .ok d

/-- The start of a READY node would not be passed over (R315): its seed batch fits the limits on its path (R360), or a check refuses it,
and no structure it needs waits for a page-table change. -/
def State.startsNow (s : State) (n : Node) : Bool :=
  let s0 := s.readRegions n.region
  match s0.checkNode n with
  | .error .wait => false
  | .error _ => true
  | .ok d => (s0.readRegions d.region).enqFits (d.regionIn n) 1 false

/-- The order among READY nodes (R315): priority, then the earlier READY, then ring, then slot. -/
def State.startBefore (s : State) (x y : Node) : Bool :=
  let px := s.effPrio x.region
  let py := s.effPrio y.region
  if px != py then decide (py < px)
  else if x.readyAt != y.readyAt then decide (x.readyAt < y.readyAt)
  else if x.ring != y.ring then decide (x.ring < y.ring)
  else decide (x.slot < y.slot)

/-- The element that comes before the others. -/
def firstBy {α : Type} (before : α → α → Bool) : List α → Option α
  | [] => none
  | x :: t => match firstBy before t with
    | none => some x
    | some y => if before y x then some y else some x

/-- The lowest place in the table of running nodes that is free (R404). -/
def State.freePlace (s : State) : Nat :=
  ((List.range 1024).find? (fun k => !s.nodes.any (fun n => n.running && n.place == k))).getD 0

/-- NODE_START (R315, R359, R37). A LAUNCH_DESC whose home field names an unbound virtual die is DIE_BINDING 0x1 (R343), for which the
manual gives no REASON: the node's is 0x04 (assumption log 97). -/
def execNodeStart (s : State) : Out State :=
  if !s.cpOpen || 1024 ≤ (s.nodes.filter (fun n => n.running)).length then .next s
  else match firstBy s.startBefore (s.nodes.filter (fun n => !n.running && s.startsNow n)) with
    | none => .next s
    | some n =>
      let s0 := s.readRegions n.region
      match s0.checkNode n with
      | .error (.reason r) => .next (s0.rejectNode n r)
      | .error .unbound => .next ((s0.report (cpReport 0x24 0x01 [n.ring, n.slot] 0)).failNode n 0x04)
      | .error .wait => .next s
      | .ok d =>
        let a := s0.recordOf n
        let n1 : Node := { n with
          running := true, place := s0.freePlace, startOrder := s0.nodeStarts, tStart := s.tick
          seedLanes := s0.numAt (a + 0xA) 2 % 64 }
        let s1 := ((s0.setState a 3).cpWrite (a + 0x48) (toBytes 8 s.tick)).readRegions d.region
        let arg := BitVec.ofNat 64 (s0.numAt (a + 0x18) 8)
        .next ({ s1 with nodeStarts := s1.nodeStarts + 1 }.newBatch n1 0 1 d (BitVec.ofNat 64 (s0.numAt (a + 0x10) 8)) arg .any
          (BitVec.ofNat 32 (2 ^ n1.seedLanes - 1)) [])

/-! ## ENQ (R321, R324) -/

/-- The context of a wave, for its die bindings. -/
def State.waveCtx (s : State) (w : Wave) : Option Ctx := s.ctx? w.ctx

/-- A virtual die is bound for a wave. -/
def State.vdBound (s : State) (w : Wave) (vd : Nat) : Bool :=
  match s.waveCtx w with
  | some c => (c.site vd).isSome
  | none => false

/-- An ENQ or ENQG is posted: its results are marked and its flag bound. -/
def State.postEnq (s : State) (i : Issue) (e : PendEnq) (writes : List RegId) : State :=
  let w1 := { i.w with enqs := i.w.enqs ++ [e], marks := i.w.marks ++ [Mark.mk s.fresh writes] }
  { s with fresh := s.fresh + 1 }.retire i (w1.bind s.fresh i.flag)

/-- The home field of an aligned descriptor address names an unbound virtual die (R343): the read of R321 would meet DIE_BINDING. -/
def State.descUnbound (s : State) (w : Wave) (va : Nat) : Bool :=
  w.post.isNone && va % 256 == 0 && !s.vdBound w (va / 2 ^ 53 % 8)

/-- ENQ (R321, R343): a die byte or a descriptor's home field that names an unbound virtual die is DIE_BINDING; a ninth unanswered
one is held. -/
def execEnq (g : Guard) (d : Dst) (a b c : Src) (die : EnqDie) (nw : Bool) (s : State) : Out State :=
  memIssue g (a.regsRun 2 ++ b.regs ++ c.regsRun 2) (d.regsRun 2) (fun s i q =>
    let unbound := match die with
      | .vd n => !s.vdBound i.w n
      | .any | .own => false
    let l := (lowestLane q).getD 0
    if unbound then some (s.uncontained i.w (s.reportAt i 0x24 0x2))
    else if s.descUnbound i.w (a.read64 i.w.rf i.c.head.lit .zext l).toNat then some (s.uncontained i.w (s.reportAt i 0x24 0x1))
    else if 8 ≤ i.w.enqs.length then none
    else
      let e : PendEnq :=
        { op := s.fresh, instr := .enq g d a b c die nw, mask := q, lane := l
          desc := a.read64 i.w.rf i.c.head.lit .zext l, count := (b.read i.w.rf i.c.head.lit l).toNat
          arg := c.read64 i.w.rf i.c.head.lit .zext l, ref := 0, isG := false }
      some (s.postEnq i e (d.regsRun 2))) s

/-- ENQG (R322). -/
def execEnqg (g : Guard) (d : Dst) (a : Src) (s : State) : Out State :=
  memIssue g a.regs d.regs (fun s i q =>
    if 8 ≤ i.w.enqs.length then none
    else
      let l := (lowestLane q).getD 0
      let e : PendEnq :=
        { op := s.fresh, instr := .enqg g d a, mask := q, lane := l, desc := 0, count := 0, arg := 0
          ref := a.read i.w.rf i.c.head.lit l, isG := true }
      some (s.postEnq i e d.regs)) s

/-- The operation is answered: its registers are written and it is complete. -/
def State.answer (s : State) (w : Wave) (e : PendEnq) (f : RegFile → RegFile) : State :=
  s.putWave (({ w with enqs := w.enqs.filter (fun x => x.op != e.op) }.writeBack e.op f).complete e.op)

/-- What an ENQ comes to (R321): it waits, or a status, with what acceptance needs for 0. -/
def State.enqStatus (s : State) (n : Node) (e : PendEnq) (nw : Bool) : Except CpNo (Nat × Desc) :=
  match s.readDesc (s.ctxOf n.ctx) n.region e.desc.toNat with
  | .error (.reason r) => .ok (r, .zero)
  | .error x => .error x
  | .ok d =>
    let r := d.regionIn n
    if e.count = 0 then .ok (0x20, d)
    else if e.count % d.gangSize != 0 then .ok (0x0B, d)
    else if !s.enqFits r e.count true then .ok (0x21, d)
    else if 2 ^ 32 - 1 ≤ n.nextSeq || 2 ^ 48 - 1 < n.spawn + e.count then .ok (0x22, d)
    else if s.enqFits r e.count false then .ok (0, d)
    else if nw then .ok (1, d) else .error .wait

/-- The batch's die field (R318, R324). -/
def dieField (d : EnqDie) (w : Wave) : DieField :=
  match d with
  | .vd n => .vd n
  | .any => .any
  | .own => .pd (spokeOfCore w.core)

/-- The command processor answers an ENQ (R30, R37, R321). -/
def State.answerEnq (s : State) (w : Wave) (e : PendEnq) : State :=
  match e.instr, s.node? w.node with
  | .enq _ d _ _ _ die nw, some n =>
    if !s.released w e.op 3 || !w.mayPerform e.op e.mask true then s
    else match s.enqStatus n e nw with
      | .error _ => s
      | .ok (st, desc) =>
        let write (seq : Nat) (rf : RegFile) : RegFile :=
          (rf.writeRun d 0 e.mask (fun _ => BitVec.ofNat 32 st)).writeRun d 1 e.mask (fun _ => BitVec.ofNat 32 seq)
        if st = 0 then
          let s1 := (s.readRegions desc.region).newBatch n n.nextSeq e.count desc e.desc e.arg
            (dieField die w) allLanes []
          s1.answer w e (write n.nextSeq)
        else
          let s1 := if st = 0x04 || st = 0x05 || st = 0x0B then
              s.report (cpReport 0x22 st ([n.ring, n.slot] ++ s.identOf w) e.desc)
            else s
          s1.answer w e (write 0xFFFFFFFF)
  | _, _ => s

/-- The command processor answers an ENQG (R322). -/
def State.answerEnqg (s : State) (w : Wave) (e : PendEnq) (d : Dst) : State :=
  let x := e.ref.toNat
  let ring := x / 2 ^ 16 % 2 ^ 6
  let slot := x % 2 ^ 16
  let r := s.ring ring
  let a := s.slotAddr ring slot
  if !s.released w e.op 3 || !w.mayPerform e.op e.mask true then s
  else
    let give (t : State) (st : Nat) : State := t.answer w e (fun rf => rf.write d e.mask (fun _ => BitVec.ofNat 32 st))
    if x / 2 ^ 31 = 0 || x / 2 ^ 22 % 2 ^ 9 != 0 then give s 0x31
    else if !r.bound || r.ctx != w.ctx then give s 0x30
    else if r.size ≤ slot then give s 0x31
    else if s.numAt a 4 % 16 != 1 then give s 0x32
    else if s.numAt (a + 4) 4 = 0 then give s 0x33
    else give (s.lowerPred s.fresh ring slot) (if s.numAt (a + 4) 4 = 1 then 1 else 0)

/-- ENQ_ACCEPT (R321, R322): the command processor answers the wave's ENQ or ENQG. -/
def execEnqAccept (wave enq : Nat) (s : State) : Out State :=
  match s.wave? wave with
  | none => .next s
  | some w =>
    match w.enqs.find? (fun e => e.op == enq) with
    | none => .next s
    | some e => match e.instr with
      | .enqg _ d _ => .next ((s.answerEnqg w e d).settleOver wave)
      | _ => .next ((s.answerEnq w e).settleOver wave)

/-! ## DHOPS (R22, R323) -/

/-- The hop distance of two sites (R22): neighbours on the ring share a side link, but for the links the KZ9-6 lacks. -/
def State.hops (s : State) (x y : Nat) : Nat :=
  if x = y then 0
  else
    let lo := min x y
    let hi := max x y
    let side := hi = lo + 1 || (lo = 0 && hi = 7)
    let there := match s.variant with
      | .kz9 => true
      | .kz96 => decide (hi < 6)
    if side && there then 1 else 2

/-- DHOPS (R323): an operand above 7, or an unbound virtual die, in any qualifying lane is DIE_BINDING. -/
def execDhops (g : Guard) (d : Dst) (a b : Src) (s : State) : Out State :=
  match s.issue? with
  | none => .fault .noPath
  | some i =>
    let q := qualify i.w.rf g i.p.lanes
    let va (l : Nat) : Nat := (a.read i.w.rf i.c.head.lit l).toNat
    let vb (l : Nat) : Nat := (b.read i.w.rf i.c.head.lit l).toNat
    let bad (n : Nat) : Bool := decide (7 < n) || !s.vdBound i.w n
    let site (n : Nat) : Nat := match s.waveCtx i.w with | some c => (c.site n).getD 0 | none => 0
    if s.gate i.w false (g.regs ++ a.regs ++ b.regs ++ d.regs) = .go && (lanesOf q).any (fun l => bad (va l) || bad (vb l)) then
      .next (s.uncontained i.w (s.reportAt i 0x24 0x3))
    else regIssue g (a.regs ++ b.regs) d.regs false (fun x =>
      noFlags (x.rf.write d x.q (fun l => BitVec.ofNat 32 (s.hops (site (va l)) (site (vb l)))))) s

end Sys2Proof.Machine
end

