-- ==== Sys2Proof/Machine/Raster.lean ====
section
/-! DEFINITION. The distributed rasteriser (R252 to R266): raster pass blocks, RAST.EMIT with exact coverage, the reorder stage,
fragment waves, the order interlock and blending. -/

namespace Sys2Proof.Machine

/-! ## Coverage (R256, R257) -/

/-- A coordinate in 1/256 pixel, or none where the triangle counts as culled (R256, R257). -/
def subpixel (x : Nat) : Option Int :=
  match fp32.value x with
  | .fin n m e =>
    if pow2Gt m e (if n then 32768 else 32767) 0 then none
    else some (toInt n (roundAt .rne n m (e + 8) 0).1)
  | .nan _ | .inf _ => none

/-- The vertices of a triangle as X0, Y0, X1, Y1, X2, Y2, none where it is culled. -/
def vertices (regs : List Nat) : Option (List Int) := (regs.take 6).mapM subpixel

/-- A triangle set up: its vertices in positive orientation, its doubled area, and whether two were exchanged. -/
structure Tri where
  xs : List Int
  area : Int
  swapped : Bool
  deriving DecidableEq, Repr

def Tri.x (t : Tri) (k : Nat) : Int := t.xs.getD (2 * (k % 3)) 0
def Tri.y (t : Tri) (k : Nat) : Int := t.xs.getD (2 * (k % 3) + 1) 0

/-- Orientation (R257). -/
def triOf (xs : List Int) : Tri :=
  let t : Tri := { xs := xs, area := 0, swapped := false }
  let a := (t.x 1 - t.x 0) * (t.y 2 - t.y 0) - (t.x 2 - t.x 0) * (t.y 1 - t.y 0)
  if a < 0 then { xs := xs.take 2 ++ xs.drop 4 ++ (xs.drop 2).take 2, area := -a, swapped := true } else { t with area := a }

/-- The edge function of edge `i` at a pixel. -/
def Tri.edge (t : Tri) (i : Nat) (px py : Nat) : Int :=
  (t.x (i + 1) - t.x i) * (256 * (py : Int) + 128 - t.y i) - (t.y (i + 1) - t.y i) * (256 * (px : Int) + 128 - t.x i)

/-- The pixel is covered, with the top-left rule (R257). -/
def Tri.covers (t : Tri) (px py : Nat) : Bool :=
  t.area != 0 && (List.range 3).all (fun i =>
    let e := t.edge i px py
    decide (0 < e) || (e == 0 && (decide (t.y (i + 1) < t.y i) || (t.y (i + 1) == t.y i && decide (t.x i < t.x (i + 1))))))

/-- An exact quotient of two naturals rounded once into FP32; the divisor is not 0. -/
def quot32 (n d : Nat) : FpRes :=
  let q := n * 2 ^ 100 / d
  fp32.roundZ .rne false false false (2 * q + (if n * 2 ^ 100 % d = 0 then 0 else 1)) (-101)

/-- b1 and b2 of a covered pixel (R257). -/
def Tri.weights (t : Tri) (px py : Nat) : Word × Word :=
  let w (i : Nat) : Word := BitVec.ofNat 32 (quot32 (t.edge i px py).toNat t.area.toNat).bits
  if t.swapped then (w 0, w 2) else (w 2, w 0)

/-- Pixels of a range of columns or rows that a triangle can reach. -/
def reach (vs : List Int) (n : Nat) : List Nat :=
  let lo := vs.foldl min (vs.headD 0)
  let hi := vs.foldl max (vs.headD 0)
  let a := (lo / 256).toNat
  let b := min n ((hi / 256).toNat + 1)
  (List.range (b - a)).map (fun k => a + k)

/-- Covered pixels inside a rectangle of pixels, row by row. -/
def Tri.pixels (t : Tri) (x0 y0 w h : Nat) : List (Nat × Nat) :=
  (List.range h).flatMap (fun j => ((List.range w).map (fun i => (x0 + i, y0 + j))).filter (fun p => t.covers p.1 p.2))

/-! ## The pass block (R252, R253) -/

/-- Bytes of a pixel (R252). -/
def pixelSize (format : Nat) : Nat := if format = 1 then 8 else 4

/-- The waiter's number of a RAST.EMIT that waits for a page (R352). -/
def rastKey (va : Nat) : Nat := 2 ^ 65 + va / 4096 * 4096

/-- `n` bytes for a device read on behalf of a wave: page by page at most `fuel` pieces, with the units they stand in. -/
def State.waveRead (s : State) (w : Wave) (va n : Nat) : Nat → Except (Nat × Tr) (List Byte × List Nat)
  | 0 => .ok ([], [])
  | fuel + 1 =>
    if n = 0 then .ok ([], [])
    else
      let k := min n (4096 - va % 4096)
      match s.xlate w (Want.load false) va with
      | .ok m =>
        match s.waveRead w (va + k) (n - k) fuel with
        | .ok r => .ok (s.bytesAt m.pa k ++ r.1, sectors m.pa k ++ r.2)
        | .error e => .error e
      | t => .error (va, t)

/-- The translations of a range that a wave has been given are kept (R348). -/
def State.noteRange (s : State) (w : Wave) (va n : Nat) : State :=
  (List.range ((va % 4096 + n + 4095) / 4096)).foldl (fun t k => t.noteVa w (Want.load false) (va / 4096 * 4096 + 4096 * k)) s

/-- The translations of a pass block, of its ownership table and of its primitive counts (R348). -/
def State.notePass (s : State) (w : Wave) (va : Nat) : State :=
  let b := match s.waveRead w va 256 2 with | .ok (b, _) => b | .error _ => []
  let f (o n : Nat) : Nat := ofBytes ((b.drop o).take n)
  let t := s.noteRange w va 256
  let t := if f 0 8 = 0 then t else t.noteRange w (f 0 8) (f 8 2 * f 0xA 2)
  t.noteRange w (f 0x18 8) (4 * f 0x10 4)

/-- What a first RAST.EMIT of a pass finds in its block: the pass, a fault of the read, uncorrectable data, an ILLEGAL reason or
an unbound owner. -/
inductive PassRead where
  | pass (p : Pass)
  | fault (x : Nat × Tr)
  | bad
  | illegal
  | unbound

/-- The fields of a block that are checked alone (R252). -/
def blockBad (b : List Byte) : Bool :=
  let f := field b
  f 0xF 1 != 0 || f 0x14 4 != 0 || f 0x35 1 != 0 || f 0x38 8 != 0 || (b.drop 0x44).take 60 != List.replicate 60 0
    || f 0 8 % 64 != 0 || f 8 2 = 0 || decide (256 < f 8 2) || f 0xA 2 = 0 || decide (256 < f 0xA 2)
    || f 0x10 4 = 0 || decide (65536 < f 0x10 4) || f 0x18 8 % 4 != 0 || decide (2 < f 0x34 1) || f 0x36 2 != 1
    || f 0x28 8 % pixelSize (f 0x34 1) != 0 || f 0x30 4 % pixelSize (f 0x34 1) != 0
    || decide (f 0x30 4 < f 8 2 * 64 * pixelSize (f 0x34 1))

/-- The owner of each tile of the default interleave (R253). -/
def interleave (bound : List Nat) (tx ty : Nat) : List Nat :=
  (List.range (tx * ty)).map (fun k => bound.getD ((k % tx + 3 * (k / tx)) % bound.length) 0)

/-- The block, its tables and its fragment descriptor (R252 to R254). All are read once, as the pass opens: every fragment batch takes the
descriptor as it stood then (assumption log 36). -/
def State.readPass (s : State) (w : Wave) (n : Node) (va : Nat) : PassRead :=
  match s.waveRead w va 256 2 with
  | .error x => .fault x
  | .ok (b, units) =>
    let f := field b
    let count := f 0x10 4
    if units.any (fun u => s.bad.contains u) then .bad
    else if blockBad b then .illegal
    else
      let c := s.ctxOf w.ctx
      let bound := c.bound.map (fun x => x.1)
      let own := if f 0 8 = 0 then .ok ((interleave bound (f 8 2) (f 0xA 2)).map (BitVec.ofNat 8), [])
        else s.waveRead w (f 0 8) (f 8 2 * f 0xA 2) 32
      match own, s.waveRead w (f 0x18 8) (4 * count) 128 with
      | .error x, _ | _, .error x => .fault x
      | .ok (own, u1), .ok (pc, u2) =>
        let counts := (List.range count).map (fun k => field pc (4 * k) 4)
        if (u1 ++ u2).any (fun u => s.bad.contains u) then .bad
        else match s.readDesc c n.region (f 0x20 8) with
          | .error .wait => .fault (f 0x20 8, .refused)
          | .error .unbound => .fault (f 0x20 8, .unbound)
          | .error (.reason _) => .illegal
          | .ok d =>
            if counts.any (fun k => k == 0 || decide (2 ^ 20 < k)) || d.waves != [1, 0, 0, 0] || d.gang != 0
                || own.any (fun x => decide (8 ≤ x.toNat)) then .illegal
            else if own.any (fun x => !bound.contains x.toNat) then .unbound
            else .pass
              { num := s.fresh, block := BitVec.ofNat 64 va
                pa := (match s.xlate w (Want.load false) va with | .ok m => m.pa | _ => 0)
                node := n.uid, ctx := w.ctx, tilesX := f 8 2, tilesY := f 0xA 2, drawBase := f 0xC 3, counts := counts, desc := d
                descAddr := BitVec.ofNat 64 (f 0x20 8), target := f 0x28 8, pitch := f 0x30 4, format := f 0x34 1
                owners := own.map (fun x => x.toNat), emitted := [], prims := [], released := [], queue := [], turns := []
                blended := [] }

def State.putPass (s : State) (p : Pass) : State := { s with passes := replaceBy (fun x => x.num == p.num) p s.passes }
def State.pass? (s : State) (num : Nat) : Option Pass := s.passes.find? (fun p => p.num == num)

/-! ## RAST.EMIT (R256, R258, R259) -/

/-- The draw of the pass that a draw number names (R255). -/
def Pass.drawOf (p : Pass) (draw : Nat) : Nat := (draw + 2 ^ 24 - p.drawBase) % 2 ^ 24

/-- The eight operand words of a lane. -/
def emitRegs (x : List Byte) : List Nat := (List.range 8).map (fun k => field x (4 * k) 4)

/-- Draws of emissions that are issued and not yet forwarded, those of saved gangs among them. -/
def State.pendingDraws (s : State) (p : Pass) : List Nat :=
  (s.waves ++ s.gangs.flatMap (fun g => match g.kept with | some k => k.waves | none => [])).flatMap (fun w =>
    w.ops.flatMap (fun o => match o.instr with
    | .rastEmit .. => if o.aux.headD 0 = p.num then
        (o.pieces.filter (fun x => !x.done)).map (fun x => p.drawOf ((emitRegs x.x).getD 7 0 % 2 ^ 24)) else []
    | _ => []))

/-- The lanes' operands and the pass pass their checks: reason 0x18, then 0x19 (R74, R256). -/
def State.emitReason (s : State) (p : Pass) (node : Nat) (lanes : List (List Byte)) : Option Nat :=
  let bad (x : List Byte) : Bool :=
    let i := (emitRegs x).getD 6 0
    let d := (emitRegs x).getD 7 0
    decide (2 ^ 20 ≤ i) || decide (2 ^ 24 ≤ d) || decide (p.counts.length ≤ p.drawOf d) || decide (p.counts.getD (p.drawOf d) 0 ≤ i)
  let draws := lanes.map (fun x => p.drawOf ((emitRegs x).getD 7 0)) ++ s.pendingDraws p
  if lanes.any bad then some 0x18
  else if p.node != node then some 0x19
  else if draws.any (fun k => p.counts.getD k 0 < Map.get 0 p.emitted k + (draws.filter (fun x => x == k)).length) then some 0x19
  else none

/-- A RAST.EMIT of some of these lanes has lanes that are not forwarded. -/
def Wave.emitting (w : Wave) (m : LaneMask) : Bool :=
  w.ops.any (fun o => (match o.instr with | .rastEmit .. => true | _ => false) && (o.mask &&& m) != 0)

/-- RAST.EMIT: the first that names a pass opens it, and reads the pass block once the wave's release at device scope is done (R259;
assumption log 36); the path stays at its word until every lane is forwarded. -/
def execRastEmit (g : Guard) (a : Fin 192) (b : Fin 48) (c : Fin 192) (e : PComb) (s : State) : Out State :=
  memIssue g (vRun a 8 ++ (Src.s b).regsRun 2 ++ vRun c 2 ++ pcombRegs e) [] (fun s i q =>
    let w := i.w
    if i.p.waitOnly then (if w.emitting i.p.lanes then none else some (s.retire i w))
    else match s.node? w.node with
      | none => none
      | some n =>
        let va := w.rf.spair b
        let ps : List Piece := (lanesOf q).map (fun l =>
          { lane := l, addr := 0, len := 0, x := w.rf.laneRun a 8 l, y := w.rf.laneRun c 2 l, got := [], done := false })
        let cull := maskOf (fun l => w.rf.pcomb e l)
        let emit (t : State) (p : Pass) : State :=
          let acc : Access := { i.access t (.rastEmit g a b c e) q ps [p.num, cull.toNat] with op := t.fresh }
          let w1 := ({ w with ops := w.ops ++ [acc] }).bind t.fresh i.flag
          { t with fresh := t.fresh + 1 }.waitAt i w1 true t.fresh
        let open_ := s.passes.find? (fun p => p.block.toNat == va && p.ctx == w.ctx)
        if va % 256 != 0 then some (s.illegal i 0x18)
        else match open_ with
          | some p =>
            (match s.emitReason p w.node (ps.map (fun x => x.x)) with
            | some r => some (s.illegal i r)
            | none => some (emit s p))
          | none =>
            if 4 ≤ s.passes.length || !s.released w s.fresh 3 then none
            else match s.readPass w n va with
              | .fault (x, .unbound) => some (s.accessFault w s.fresh x (Want.load false) .unbound i.word i.addr i.c.addr none)
              | .fault (x, t) =>
                if s.blocked w.uid (rastKey x) then none
                else some (s.accessFault w (rastKey x) x (Want.load false) t i.word i.addr i.c.addr none)
              | .bad => some (s.machineCheck w i.word i.addr i.c.addr)
              | .illegal => some (s.illegal i 0x18)
              | .unbound => some (s.uncontained w (s.reportAt i 0x24 0x4))
              | .pass p =>
                match s.emitReason p w.node (ps.map (fun x => x.x)) with
                | some r => some (s.illegal i r)
                | none =>
                  let t0 := (s.notePass w va).leave (fun x => x.1 == w.uid && decide (2 ^ 65 ≤ x.2))
                  let t := { t0 with passes := s.passes ++ [p], fresh := s.fresh + 1 }
                  some (emit (t.cpWrite (p.pa + 0x40) (toBytes 4 1)) p)) s

/-- Tiles of a pass that a set of pixels touches by its bounding box (R258). -/
def tilesOf (px : List (Nat × Nat)) : List (Nat × Nat) :=
  match px with
  | [] => []
  | h :: t =>
    let x0 := t.foldl (fun m p => min m p.1) h.1 / 64
    let x1 := t.foldl (fun m p => max m p.1) h.1 / 64
    let y0 := t.foldl (fun m p => min m p.2) h.2 / 64
    let y1 := t.foldl (fun m p => max m p.2) h.2 / 64
    (List.range (y1 + 1 - y0)).flatMap (fun j => (List.range (x1 + 1 - x0)).map (fun i => (x0 + i, y0 + j)))

/-- The owner of a tile. -/
def Pass.owner (p : Pass) (tile : Nat × Nat) : Nat := p.owners.getD (tile.2 * p.tilesX + tile.1) 0

/-- Pixels of the target that a triangle covers. -/
def Pass.covered (p : Pass) (xs : List Int) : List (Nat × Nat) :=
  let t := triOf xs
  let cx := reach [xs.getD 0 0, xs.getD 2 0, xs.getD 4 0] (64 * p.tilesX)
  let cy := reach [xs.getD 1 0, xs.getD 3 0, xs.getD 5 0] (64 * p.tilesY)
  t.pixels (cx.headD 0) (cy.headD 0) cx.length cy.length

/-- The virtual dies that a primitive is forwarded to (R258). -/
def Pass.ownersOf (p : Pass) (xs : List Int) : List Nat := ((tilesOf (p.covered xs)).map p.owner).eraseDups

/-- The physical die of a virtual die of a pass. -/
def State.siteOf (s : State) (p : Pass) (vd : Nat) : Option Nat := (s.ctxOf p.ctx).site vd

/-- Reorder entries of a pass on a physical die, of every draw or of one. -/
def State.entriesAt (s : State) (p : Pass) (site : Nat) (draw : Option Nat) : Nat :=
  (p.prims.filter (fun x => x.dies.any (fun v => s.siteOf p v == some site) && (draw.isNone || draw == some x.draw))).length

/-- An owner die has an entry for a primitive (R259): 512 are kept for the lowest unreleased draw of each open pass. -/
def State.entryFree (s : State) (p : Pass) (draw vd : Nat) : Bool :=
  match s.siteOf p vd with
  | none => true
  | some site =>
    let low (x : Pass) : Nat := match (List.range 8).find? (fun v => s.siteOf x v == some site) with
      | some v => Map.get 0 x.released v
      | none => 0
    let used := s.passes.foldl (fun n x => n + s.entriesAt x site none) 0
    let kept := (s.passes.filter (fun x => !(x.num == p.num && low x == draw))).foldl (fun n x =>
      n + (512 - min 512 (s.entriesAt x site (some (low x))))) 0
    used + kept < 4096

/-- THE NEXT LANE OF A RAST.EMIT IS FORWARDED (R258, R259), once its release at device scope is performed: counted, and where it
covers a pixel held by every owner it touches. -/
def State.rastStep (s : State) (w : Wave) (a : Access) : State :=
  if !s.released w a.op 3 || !w.mayPerform a.op a.mask true then s
  else match s.pass? (a.aux.headD 0), a.pieces.find? (fun x => !x.done) with
    | some p, some x =>
      let regs := emitRegs x.x
      let draw := p.drawOf (regs.getD 7 0)
      let seq := draw * 2 ^ 20 + regs.getD 6 0
      let vs := if (BitVec.ofNat 32 (a.aux.getD 1 0)).getLsbD x.lane then none else vertices regs
      let dies := match vs with | some xs => p.ownersOf xs | none => []
      if dies.all (fun v => s.entryFree p draw v) then
        let prim : Prim :=
          { seq := seq, draw := draw, prim := regs.getD 6 0, payload := BitVec.ofNat 64 (ofBytes x.y), xs := vs.getD [], dies := dies }
        let p1 := { p with
          emitted := Map.put 0 p.emitted draw (Map.get 0 p.emitted draw + 1)
          prims := if dies.isEmpty then p.prims else p.prims ++ [prim] }
        let a1 := { a with pieces := a.pieces.map (fun y => if y.lane == x.lane then { y with done := true } else y) }
        (s.putPass p1).putOp w.uid a1
      else s
    | _, _ => s.putOp w.uid { a with pieces := [] }

/-! ## Release of draws and fragment waves (R258, R261) -/

/-- Primitives in ascending index. -/
def insertPrim (x : Prim) : List Prim → List Prim
  | [] => [x]
  | y :: t => if x.prim < y.prim then x :: y :: t else y :: insertPrim x t

/-- Fragments of a primitive on a virtual die: tile by tile, row-major in each (R258). -/
def Pass.fragments (p : Pass) (vd : Nat) (x : Prim) : List Fragment :=
  let t := triOf x.xs
  ((tilesOf (p.covered x.xs)).filter (fun k => p.owner k == vd)).flatMap (fun k =>
    (t.pixels (64 * k.1) (64 * k.2) 64 64).map (fun px =>
      { id := 0, pass := p.num, seq := x.seq, draw := (p.drawBase + x.draw) % 2 ^ 24, prim := x.prim, x := px.1, y := px.2
        payload := x.payload
        b1 := (t.weights px.1 px.2).1, b2 := (t.weights px.1 px.2).2, turn := false, done := false }))

/-- Every draw of a pass is released on every owner and every fragment wave of it has exited (R254). -/
def State.passOver (s : State) (p : Pass) : Bool :=
  p.owners.eraseDups.all (fun v => Map.get 0 p.released v == p.counts.length) && p.queue.isEmpty
    && !s.batches.any (fun b => b.frags.any (fun f => f.2.pass == p.num) && s.exitedOf b == 0)

/-- A pass closes with PASS_STATUS 2. -/
def State.closePass (s : State) (p : Pass) : State :=
  { s.cpWrite (p.pa + 0x40) (toBytes 4 2) with passes := s.passes.filter (fun x => x.num != p.num) }

/-- A NODE WHOSE SPAWN COUNTER IS 0 COMPLETES (R38, R314). Its passes that are over close first; one that is not closes FAILED with the node
(assumption log 42). -/
def State.settleNode (s : State) (u : Nat) : State :=
  match s.node? u with
  | none => s
  | some n =>
    if !n.running || n.spawn != 0 then s
    else ((s.passes.filter (fun p => p.node == u && s.passOver p)).foldl State.closePass s).completeNode n

/-- DRAW_RELEASE (R258): the next draw of the pass on an owner die, once it is closed. -/
def execDrawRelease (pass die : Nat) (s : State) : Out State :=
  match s.pass? pass with
  | none => .next s
  | some p =>
    let k := Map.get 0 p.released die
    if !p.owners.contains die || p.counts.length ≤ k || Map.get 0 p.emitted k < p.counts.getD k 0 then .next s
    else
      let mine := (p.prims.filter (fun x => x.draw == k && x.dies.contains die)).foldl (fun l x => insertPrim x l) []
      let fr := (mine.flatMap (p.fragments die)).zipIdx.map (fun x => { x.1 with id := s.fresh + x.2 })
      let empty (x : Prim) : Bool := x.draw == k && x.dies.contains die && !fr.any (fun f => f.seq == x.seq)
      let prims := (p.prims.map (fun x => if empty x then { x with dies := x.dies.filter (fun v => v != die) } else x)).filter
        (fun x => !x.dies.isEmpty)
      let t := s.putPass { p with released := Map.put 0 p.released die (k + 1), queue := p.queue ++ fr.map (fun f => (die, f))
                                  prims := prims }
      .next ({ t with fresh := s.fresh + fr.length }.settleNode p.node)

/-- The longest prefix, of at most `n`, in which no two fragments hold one pixel. -/
def packWave : Nat → List Fragment → List Fragment → List Fragment
  | 0, _, _ => []
  | _, _, [] => []
  | n + 1, seen, f :: t => if seen.any (fun g => g.x == f.x && g.y == f.y) then [] else f :: packWave n (f :: seen) t

/-- FRAG_WAVE_LAUNCH (R254, R259, R261): fragments of released draws become one wave of a batch of the pass's node. The model tests neither
the limit of the region on enqueued work, which R39 and R360 put on node starts and ENQs, nor the ends of the node's sequence numbers and
spawn counter, for which the manual says nothing here (assumption log 86). -/
def execFragWaveLaunch (pass die : Nat) (s : State) : Out State :=
  match s.pass? pass with
  | none => .next s
  | some p =>
    match s.node? p.node with
    | none => .next s
    | some n =>
      let mine := (p.queue.filter (fun x => x.1 == die)).map (fun x => x.2)
      let full := packWave 32 [] mine
      let fs := if s.choices.headD 0 = 0 then full else full.take (s.choices.headD 0)
      if fs.isEmpty then .next s
      else
        let has (f : Fragment) : Bool := fs.any (fun x => x.id == f.id)
        let queue := p.queue.filter (fun x => !has x.2)
        let prims := (p.prims.map (fun x =>
          if x.dies.contains die && fs.any (fun f => f.seq == x.seq) && !queue.any (fun y => y.1 == die && y.2.seq == x.seq) then
            { x with dies := x.dies.filter (fun v => v != die) } else x)).filter (fun x => !x.dies.isEmpty)
        let s1 := s.putPass { p with queue := queue, prims := prims, turns := p.turns ++ fs.map (fun f => (f.id, f.x, f.y)) }
        let frags := fs.zipIdx.map (fun x => (x.2, x.1))
        .next { s1.newBatch n n.nextSeq 1 p.desc p.descAddr 0 (.vd die) (BitVec.ofNat 32 (2 ^ fs.length - 1)) frags with
          choices := s.choices.drop 1 }

/-- RASTER_PASS_CLOSE (R254). -/
def execRasterPassClose (pass : Nat) (s : State) : Out State :=
  match s.pass? pass with
  | none => .next s
  | some p => if s.passOver p then .next ((s.closePass p).settleNode p.node) else .next s

/-! ## The order interlock (R262, R264) -/

/-- A fragment's turn has arrived: no fragment of its pixel with a lower place still has one to give up. -/
def State.turnCome (s : State) (f : Fragment) : Bool :=
  match s.pass? f.pass with
  | none => true
  | some p => !p.turns.any (fun t => decide (t.1 < f.id) && t.2.1 == f.x && t.2.2 == f.y)

/-- The lanes of a mask hold their turns, or their turns have come. A lane that has given its turn up, of which the manual says no more, may
take it again at once: for it no fragment with a lower number has a turn to give up either (assumption log 98). -/
def State.turnsCome (s : State) (w : Wave) (m : LaneMask) : Bool :=
  (lanesOf m).all (fun l => match Map.find w.frags l with
    | some f => f.turn || s.turnCome f
    | none => true)

/-- The lanes of a mask take their turns. -/
def Wave.takeTurns (w : Wave) (m : LaneMask) : Wave :=
  { w with frags := w.frags.map (fun f => if m.getLsbD f.1 then (f.1, { f.2 with turn := true }) else f) }

/-- Some lane of the mask does not hold its turn. -/
def Wave.needsTurn (w : Wave) (m : LaneMask) : Bool := w.frags.any (fun f => m.getLsbD f.1 && !f.2.turn)

/-- PIX.ORD (R264). -/
def execPixOrd (g : Guard) (s : State) : Out State :=
  memIssue g [] [] (fun s i q =>
    if i.w.frags.isEmpty then some (s.illegal i 0x1A)
    else some (s.issueOp i (i.access s (.pixOrd g) q [] []) [] true)) s

/-- PIX.ORD completes when every lane's turn has come: an acquire at device scope, for which its lanes' later accesses wait. -/
def State.ordStep (s : State) (w : Wave) (a : Access) : State :=
  if s.turnsCome w a.mask && !s.writes.any (fun x => s.notAt w 3 x) then
    (s.putWave (s.acquire (w.takeTurns a.mask) .dev)).putOp w.uid a
  else s

/-! ## PIX.LD and PIX.BLEND (R265, R266) -/

/-- The address of a fragment's pixel. -/
def State.pixelAddr (s : State) (f : Fragment) : Nat × Nat :=
  match s.pass? f.pass with
  | some p => ((p.target + f.y * p.pitch + f.x * pixelSize p.format) % 2 ^ 64, pixelSize p.format)
  | none => (0, 4)

/-- The pieces of a pixel access, lane 31 first. -/
def State.pixelPieces (s : State) (w : Wave) (q : LaneMask) (x : Nat → List Byte) : List Piece :=
  (lanesOf q).reverse.filterMap (fun l => (Map.find w.frags l).map (fun f =>
    let a := s.pixelAddr f
    { lane := l, addr := a.1, len := a.2, x := x l, y := [], got := [], done := false }))

/-- PIX.LD. -/
def execPixLd (g : Guard) (d : Fin 192) (s : State) : Out State :=
  memIssue g [] (vRun d 2) (fun s i q =>
    if i.w.frags.isEmpty then some (s.illegal i 0x1A)
    else some (s.issueAccess i (i.access s (.pixLd g d) q (s.pixelPieces i.w q (fun _ => [])) []) (vRun d 2))) s

/-- PIX.BLEND. -/
def execPixBlend (g : Guard) (a : Fin 192) (op : BlendOp) (s : State) : Out State :=
  memIssue g (vRun a 4) [] (fun s i q =>
    if i.w.frags.isEmpty then some (s.illegal i 0x1A)
    else some (s.issueAccess i (i.access s (.pixBlend g a op) q (s.pixelPieces i.w q (i.w.rf.laneRun a 4)) []) [.fpstat])) s

/-- A half widened exactly, a NaN keeping its kind. -/
def widen16 (b : Nat) : Nat :=
  match fp16.value b with
  | .nan sig => if sig then 0x7F800001 else 0x7FC00000
  | v => (fp32.convert .rne false v).bits

/-- The channels of a pixel as FP32 (R266). -/
def unpackPixel (format : Nat) (b : List Byte) : List FpRes :=
  match format with
  | 0 => [⟨field b 0 4, 0⟩]
  | 1 => (List.range 4).map (fun c => ⟨widen16 (field b (2 * c) 2), 0⟩)
  | _ => (List.range 4).map (fun c => quot32 (field b c 1) 255)

/-- One channel packed (R266). -/
def packChannel (format : Nat) (v : Nat) : List Byte × BitVec 6 :=
  match format with
  | 0 => (toBytes 4 v, 0)
  | 1 =>
    let r := fp16.convert .rne false (fp32.value v)
    (toBytes 2 r.bits, r.fl)
  | _ => match fp32.value v with
    | .nan sig => ([0], flIf sig flNV)
    | .inf n => ([if n then 0 else 255], flNX)
    | .fin n m e =>
      if m = 0 then ([0], 0)
      else if n then ([0], flNX)
      else if pow2Gt m e 1 0 then ([255], flNX)
      else
        let r := roundAt .rne false (m * 255) e 0
        (toBytes 1 r.1, flIf r.2 flNX)

/-- One channel blended (R266): the source's channel, its alpha, the target's. -/
def blendChannel (op : BlendOp) (src alpha dst : Nat) : FpRes :=
  match op with
  | .rep => ⟨src, 0⟩
  | .over =>
    let k := fp32.add .rne false 0x3F800000 (fp32.modify false true alpha)
    let v := fp32.fma .rne false dst k.bits src
    ⟨v.bits, k.fl ||| v.fl⟩
  | .add => fp32.add .rne false dst src

/-- The new pixel and the flags of the steps (R266). -/
def blendPixel (op : BlendOp) (format : Nat) (src : List Nat) (old : List Byte) : List Byte × BitVec 6 :=
  (unpackPixel format old).zipIdx.foldl (fun (acc : List Byte × BitVec 6) c =>
    let v := blendChannel op (src.getD c.2 0) (src.getD 3 0) c.1.bits
    let p := packChannel format v.bits
    (acc.1 ++ p.1, acc.2 ||| c.1.fl ||| v.fl ||| p.2)) ([], 0)

/-- The format of the pass of a wave's fragments. -/
def State.fragFormat (s : State) (w : Wave) : Nat :=
  match w.frags with
  | f :: _ => (match s.pass? f.2.pass with | some p => p.format | none => 0)
  | [] => 0

/-- The place of a fragment's pixel in the table of its pass. -/
def Fragment.pixel (f : Fragment) : Nat := 2 ^ 14 * f.y + f.x

/-- No later fragment of the pixel has been blended (R260): a further blend of an earlier one is never performed (assumption log 98). -/
def State.inTurn (s : State) (w : Wave) (lane : Nat) : Bool :=
  match Map.find w.frags lane with
  | none => true
  | some f => (s.pass? f.pass).all (fun p => decide (Map.get 0 p.blended f.pixel ≤ f.id))

/-- A fragment has been blended into its pixel. -/
def State.noteBlend (s : State) (f : Fragment) : State :=
  { s with passes := s.passes.map (fun p => if p.num == f.pass then { p with blended := Map.ins p.blended f.pixel f.id } else p) }

/-- Fragments have given up their turns (R262). -/
def State.freeTurns (s : State) (ids : List Nat) : State :=
  { s with passes := s.passes.map (fun p => { p with turns := p.turns.filter (fun t => !ids.contains t.1) }) }

/-- The pixel access is performed. -/
def State.finishPix (s : State) (w : Wave) (a : Access) : State :=
  let rf := match a.instr with
    | .pixLd _ d => a.writeResult (.v d) 2 w.rf
    | _ => w.rf.orFlags (BitVec.ofNat 6 (a.aux.headD 0))
  let w1 := { w with rf := rf, access := none }.complete a.op
  (s.putWave w1.settleCkpt).unwait w.uid a.op

/-- One lane's pixel. -/
def State.pixPiece (s : State) (w : Wave) (a : Access) (m : Mapped) (p : Piece) (fl : Nat) : State × Wave × Piece × Nat :=
  match a.instr with
  | .pixBlend _ _ op =>
    let src := (List.range 4).map (fun k => field p.x (4 * k) 4)
    let r := s.rmwBytes w a.op p.lane m p.addr m.pa p.len 3 0 (fun old => some (blendPixel op (s.fragFormat w) src old).1)
    let f := (blendPixel op (s.fragFormat w) src r.2).2
    let own := Map.find w.frags p.lane
    let w1 := { w with frags := w.frags.map (fun f => if f.1 = p.lane then (f.1, { f.2 with turn := false, done := true }) else f) }
    (own.elim r.1 (fun f => (r.1.noteBlend f).freeTurns [f.id]), w1, { p with done := true }, (BitVec.ofNat 6 fl ||| f).toNat)
  | _ =>
    let r := s.loadBytes w p.lane m p.addr m.pa p.len 3 true 0
    (r.1, r.2.1, { p with got := r.2.2 ++ List.replicate (8 - p.len) 0, done := true }, fl)

/-- The pixels of an access that has its turns and its translations, each at its home. -/
def State.pixMapped (s : State) (w : Wave) (a : Access) (sel : Nat) : State :=
  let maps := a.pieces.zip a.maps
  let blend := match a.instr with | .pixBlend .. => true | _ => false
  if maps.any (fun pm => !pm.1.done && s.bad.contains (pm.2.pa / 64)) then s.machineCheck w a.word a.addr a.hdr
  else if blend && !s.released w a.op 3 then s
  else
    let r := maps.zipIdx.foldl (fun (acc : State × Wave × List Piece × Nat) pm =>
      let p := pm.1.1
      if selects sel pm.2 p && acc.1.mayReadAt acc.2.1 3 pm.1.2.pa p.len && !acc.1.behindOwn acc.2.1 a.op .device p.addr p.len
          && !acc.1.behindWaybill acc.2.1 .device p.addr p.len && (!blend || acc.1.inTurn acc.2.1 p.lane) then
        let x := acc.1.pixPiece acc.2.1 a pm.1.2 p acc.2.2.2
        (x.1, x.2.1, acc.2.2.1 ++ [x.2.2.1], x.2.2.2)
      else (acc.1, acc.2.1, acc.2.2.1 ++ [p], acc.2.2.2)) (s, w, [], a.aux.headD 0)
    let a1 := { a with started := a.started || r.2.2.1.any (fun p => p.done), aux := [r.2.2.2], pieces := r.2.2.1 }
    if a1.pieces.all (fun p => p.done) then r.1.finishPix r.2.1 a1 else r.1.putWave { r.2.1 with access := some a1 }

/-- A STEP OF PIX.LD OR PIX.BLEND (R264 to R266): the lanes' turns, the translation of all their pixels, then each pixel at its
home. -/
def State.pixStep (s : State) (w : Wave) (a : Access) (sel : Nat) : State :=
  let blend := match a.instr with | .pixBlend .. => true | _ => false
  let left := maskOf (fun l => a.pieces.any (fun p => p.lane == l && !p.done))
  if s.blocked w.uid a.op || w.unitHeld a.op || !w.mayPerform a.op a.mask blend then s
  else if w.needsTurn left then
    if s.turnsCome w left && !s.writes.any (fun x => s.notAt w 3 x) then
      let w1 := s.acquire (w.takeTurns left) .dev
      s.putWave { w1 with access := some a }
    else s
  else if !a.maps.isEmpty then s.pixMapped w a sel
  else
    let want := if blend then Want.atomic false else Want.load false
    match worst (a.pieces.map (fun p => (p.addr, s.xlate w want p.addr))) with
    | some (va, t) => s.accessFault w a.op va want t a.word a.addr a.hdr none
    | none =>
      let a1 := { a with maps := (s.mapPieces w want a.pieces).map (fun pm => pm.2) }
      let w1 := { w with access := some a1 }
      ((s.noteMaps w a1.maps).putWave w1).pixMapped w1 a1 sel

end Sys2Proof.Machine
end

