-- ==== Sys2Proof/Machine/Place.lean ====
section
/-! DEFINITION. The distributor: free resources and their reports (R11, R316), placement (R190, R274, R302, R317 to R319, R324,
R341), a wave's start (R40, R41, R111, R261), retirement (R28, R37, R38), requests for pre-emption (R274, R302, R308, R360, R362,
R379), and the gating of spokes (R11). -/

namespace Sys2Proof.Machine

/-! ## Free resources (R316) -/

/-- Scratchpad units of the workgroup's launch. -/
def State.wgScratch (s : State) (g : Workgroup) : Nat :=
  match s.gang? g.gang with
  | some x => (match s.batch? x.batch with | some b => b.desc.scratch | none => 0)
  | none => 0

/-- Open names of a workgroup (R302). -/
def Workgroup.openNames (g : Workgroup) : Nat := (g.bars.filter (fun b => b.2.held)).length

/-- What is free on a core when the gangs of `gone` are taken away. -/
def State.coreFree (s : State) (gone : List Nat) (core : Nat) : CoreView :=
  let ws := s.waves.filter (fun w => w.core == core && !gone.contains w.gang)
  let gs := s.wgs.filter (fun g => g.core == core && !gone.contains g.gang)
  let part (p : Nat) : List Wave := ws.filter (fun w => w.slot / 16 == p)
  { slots := (List.range 4).map (fun p => 16 - (part p).length)
    rows := (List.range 4).map (fun p => 1024 - (part p).foldl (fun n w => n + w.budget) 0)
    scratch := 8 - gs.foldl (fun n g => n + s.wgScratch g) 0
    bars := 64 - gs.foldl (fun n g => n + g.openNames) 0 }

/-- The counts of a cluster when the gangs of `gone` are taken away. -/
def State.clusterFree (s : State) (gone : List Nat) (cl : Nat) : ClusterView :=
  { fused := (s.cluster cl).fused, entries := s.freeEntries cl
    gangs := ((s.gangsOn cl).filter (fun g => !gone.contains g.uid)).length }

/-- The report of a gated spoke: every count reads zero (R11). -/
def CoreView.zero : CoreView := { slots := [0, 0, 0, 0], rows := [0, 0, 0, 0], scratch := 0, bars := 0 }

/-- RESOURCE_REPORT (R316): a spoke's counts replace the distributor's copies, every 64 ns. -/
def execResourceReport (spoke : Nat) (s : State) : Out State :=
  let x := s.spoke spoke
  if s.tick < x.reportTick + 6 then .next s
  else
    let core (c : Nat) : CoreView := if x.gated then .zero else s.coreFree [] c
    let cl (c : Nat) : ClusterView := if x.gated then { fused := none, entries := 0, gangs := 0 } else s.clusterFree [] c
    .next { s.updSpoke spoke (fun x => { x with reportTick := s.tick }) with
      cores := s.cores.zipIdx.map (fun v => if v.2 / 32 = spoke then core v.2 else v.1)
      views := s.views.zipIdx.map (fun v => if v.2 / 8 = spoke then cl v.2 else v.1) }

/-! ## Heads (R274, R318) -/

/-- The head gang of a batch's queue: a saved one, or the next that was never placed. -/
structure Head where
  batch : Batch
  num : Nat
  saved : Option Gang
  deriving DecidableEq, Repr

def Head.size (h : Head) : Nat := h.batch.desc.gangSize

/-- Open names of its member `k` (R302). -/
def Head.openNames (h : Head) (k : Nat) : Nat :=
  match h.saved with
  | some g => (match g.kept with
    | some x => (match x.wgs.find? (fun w => w.member == k) with | some w => w.openNames | none => 0)
    | none => 0)
  | none => 0

/-- Elements in the order of a test. -/
def insertBy {α : Type} (before : α → α → Bool) (x : α) : List α → List α
  | [] => [x]
  | y :: t => if before y x then y :: insertBy before x t else x :: y :: t

def sortBy {α : Type} (before : α → α → Bool) (l : List α) : List α := l.foldr (insertBy before) []

/-- A saved gang whose every wave waits in an open generation of GBAR.GRID. -/
def Batch.atOpenGrid (b : Batch) (g : Gang) : Bool :=
  match g.kept with
  | none => false
  | some k => k.waves.any (fun w => w.live != 0)
      && k.waves.all (fun w => w.live == 0 || b.gbarCame.contains w.uid)

/-- The distributor has learned of a SAVED gang: from the report of its spoke that shows what it left as free (R316, assumption log 107). -/
def State.reported (s : State) (g : Gang) : Bool := decide (g.since < (s.spoke (spokeOfCore g.core)).reportTick)

/-- The head of a batch; none while one is being placed (R274), or while the distributor has not learned of a saved one. Gangs that wait
at an open GBAR.GRID come behind those that have still to reach it: else R308 would pre-empt them again at once, and the generation would
never complete (assumption log 30). -/
def State.headGang (s : State) (b : Batch) : Option Head :=
  let gs := s.gangs.filter (fun g => g.batch == b.uid)
  let saved := sortBy (fun (x y : Gang) => decide (x.num < y.num)) (gs.filter (fun g => g.state == .saved))
  let new := if b.next * b.desc.gangSize < b.count then some (Head.mk b b.next none) else none
  let of (g : Gang) : Option Head := if s.reported g then some ⟨b, g.num, some g⟩ else none
  if gs.any (fun g => g.state == .restoring) then none
  else match saved.find? (fun g => !b.atOpenGrid g), new with
    | some g, _ => of g
    | none, some h => some h
    | none, none => saved.head?.bind of

/-- The priority of a head (R318, R362). -/
def State.headPrio (s : State) (h : Head) : Nat := if h.batch.aged then 7 else s.effPrio h.batch.region

/-- The order among heads (R318). -/
def State.headBefore (s : State) (x y : Head) : Bool :=
  let nx := match s.node? x.batch.node with | some n => n.startOrder | none => 0
  let ny := match s.node? y.batch.node with | some n => n.startOrder | none => 0
  if s.headPrio x != s.headPrio y then decide (s.headPrio y < s.headPrio x)
  else if nx != ny then decide (nx < ny)
  else decide (x.batch.seq < y.batch.seq)

/-- All heads, first first. -/
def State.heads (s : State) : List Head := sortBy s.headBefore (s.batches.filterMap s.headGang)

/-! ## Where a head fits (R190, R317, R318) -/

/-- The L1 mode a launch needs (R190). -/
def Desc.mode (d : Desc) : Option Nat := if d.fuse then some d.scratch else none

/-- A workgroup fits on a core (R317). -/
def Desc.fitsCore (d : Desc) (names : Nat) (v : CoreView) : Bool :=
  (List.range 4).all (fun p =>
    let mine := d.roles.zipIdx.filter (fun r => r.2 % 4 == p)
    mine.length ≤ v.slots.getD p 0 && mine.foldl (fun n r => n + r.1.2) 0 ≤ v.rows.getD p 0)
  && d.scratch ≤ v.scratch && names ≤ v.bars

/-- The lowest cores of a cluster on which a head fits (R27, R190, R317). -/
def State.fitCluster (s : State) (core : Nat → CoreView) (cluster : Nat → ClusterView) (h : Head) (cl : Nat) : Option Nat :=
  let v := cluster cl
  let mode := h.batch.desc.mode
  let going := match (s.cluster cl).modeTo with | some m => m != mode | none => false
  if going || (v.gangs != 0 && v.fused != mode) then none
  else ((List.range (4 / h.size)).map (fun k => 4 * cl + h.size * k)).find? (fun c =>
    (List.range h.size).all (fun k => h.batch.desc.fitsCore (h.openNames k) (core (c + k))))

/-- The first core on the lowest cluster of a site in which a head fits. -/
def State.fitSite (s : State) (core : Nat → CoreView) (cluster : Nat → ClusterView) (h : Head) (site : Nat) : Option Nat :=
  ((List.range 8).map (fun k => 8 * site + k)).findSome? (s.fitCluster core cluster h)

/-- The distributor's copies. Arrivals take barrier entries without it: of these a core has no more than it has now (R302). -/
def State.viewCore (s : State) (c : Nat) : CoreView :=
  let v := s.cores.getD c .zero
  { v with bars := min v.bars (64 - s.barEntries c) }
def State.viewCluster (s : State) (c : Nat) : ClusterView := s.views.getD c { fused := none, entries := 0, gangs := 0 }

/-- Bound virtual dies and their sites in a batch's die field (R318, R324). -/
def State.fieldSites (s : State) (b : Batch) : List (Nat × Nat) :=
  match s.node? b.node with
  | none => []
  | some n =>
    let all := (s.ctxOf n.ctx).bound
    match b.die with
    | .any => all
    | .vd v => all.filter (fun x => x.1 == v)
    | .pd p => all.filter (fun x => x.2 == p)

/-- The head's limits allow one more gang (R317, R360). -/
def State.headAllowed (s : State) (h : Head) : Bool := s.gangFits h.batch.region h.size (h.size * h.batch.desc.scratch)

/-- The virtual die, the site and the first core a head goes to: the die with the most free wave slots on which it fits. -/
def State.destination (s : State) (h : Head) : Option (Nat × Nat × Nat) :=
  let fits := (s.fieldSites h.batch).filterMap (fun x =>
    if (s.spoke x.2).gated then none else (s.fitSite s.viewCore s.viewCluster h x.2).map (fun c => (x.1, x.2, c)))
  let free (site : Nat) : Nat :=
    (List.range 32).foldl (fun n k => (s.viewCore (32 * site + k)).slots.foldl (fun a b => a + b) n) 0
  firstBy (fun x y => decide (free y.2.1 < free x.2.1)) fits

/-! ## A wave's start (R40, R41, R111, R261) -/

/-- RNDSEED of a lane at wave start (R111). -/
def seedAt (b : Batch) (lid idx lane : Nat) : Word :=
  let n : Word := BitVec.ofNat 32 ((lid * 16 + idx) * 32 + lane)
  let z := b.desc.roundSeed ^^^ (n * 0x9E3779B9) ^^^ (BitVec.ofNat 32 b.seq * 0x85EBCA6B)
  if seedStep z = 0 then 1 else seedStep z

/-- The lane registers a fragment lane starts with (R261). -/
def fragRegs (f : Fragment) : List Word :=
  [BitVec.ofNat 32 (f.x + f.y * 65536), BitVec.ofNat 32 f.prim, f.payload.extractLsb' 0 32, f.payload.extractLsb' 32 32, f.b1,
    f.b2, BitVec.ofNat 32 f.draw]

/-- A wave's registers at its start (R40). -/
def startRegs (b : Batch) (lid idx : Nat) : RegFile :=
  let lo := Map.put 0 (Map.put 0 [] 30 (b.arg.extractLsb' 0 32)) 31 (b.arg.extractLsb' 32 32)
  { RegFile.zero with
    s := b.desc.args.zipIdx.foldl (fun m x => Map.put 0 m (32 + x.2) x.1) lo
    v := b.frags.foldl (fun m f => (fragRegs f.2).zipIdx.foldl (fun m x => Map.put 0 m (32 * x.2 + f.1) x.1) m) []
    seed := (List.range 32).foldl (fun m l => Map.put 1 m l (seedAt b lid idx l)) [] }

/-- The lowest free slot of a wave's partition (R26). -/
def State.slotFor (s : State) (core idx : Nat) : Nat :=
  let p := idx % 4
  ((List.range 16).find? (fun k => !s.waves.any (fun w => w.core == core && w.slot == 16 * p + k))).getD 0 + 16 * p

/-- A wave of a workgroup is placed; with BREAK_ENTRY it stops before its first clause (R32, R390). Its first instruction acquires what
the ENQ, the completed node or the doorbell behind it released: no copy granted before counts as fresh (R234, R235). -/
def State.placeWave (s : State) (n : Node) (b : Batch) (gang wg lid core vdie idx : Nat) (role : Nat × Nat) : State :=
  let stop := b.desc.breakEntry
  let w0 := Wave.start s.fresh b.lanes b.desc.entry
  let w : Wave := { w0 with
    wg := wg, gang := gang, batch := b.uid, node := n.uid, ctx := n.ctx, idx := idx, role := role.1, budget := role.2, core := core
    slot := s.slotFor core idx, vdie := vdie, rf := startRegs b lid idx, frags := b.frags, floor := s.fresh, floorL1 := s.fresh
    paths := w0.paths.map (fun p => { p with dbg := stop }) }
  let t := { s with waves := s.waves ++ [w], fresh := s.fresh + 1 }
  if stop then t.queueEvent (t.dbgEvent w 3 0 b.lanes b.desc.entry) else t

/-- A workgroup of a new gang with its waves (R27, R31, R49, R298). -/
def State.placeWg (s : State) (n : Node) (b : Batch) (gang num member core vdie : Nat) : State :=
  let wg := s.fresh
  let lid := num * b.desc.gangSize + member
  let g : Workgroup := { uid := wg, gang := gang, member := member, lid := lid, core := core, waves := b.desc.waveCount
                         scratch := [], padBad := [],
                         bars := [] }
  b.desc.roles.zipIdx.foldl (fun t r => t.placeWave n b gang wg lid core vdie r.2 r.1)
    { s with wgs := s.wgs ++ [g], fresh := s.fresh + 1 }

/-! ## GANG_PLACE (R318, R341) -/

/-- What a placed gang takes leaves the distributor's copies (R316). -/
def State.takeView (s : State) (h : Head) (core : Nat) : State :=
  let d := h.batch.desc
  let sub (v : CoreView) (k : Nat) : CoreView :=
    let mine (p : Nat) := d.roles.zipIdx.filter (fun r => r.2 % 4 == p)
    { slots := (List.range 4).map (fun p => v.slots.getD p 0 - (mine p).length)
      rows := (List.range 4).map (fun p => v.rows.getD p 0 - (mine p).foldl (fun n r => n + r.1.2) 0)
      scratch := v.scratch - d.scratch, bars := v.bars - h.openNames k }
  { s with
    cores := s.cores.zipIdx.map (fun v => if core ≤ v.2 ∧ v.2 < core + h.size then sub v.1 (v.2 - core) else v.1)
    views := s.views.zipIdx.map (fun v => if v.2 = core / 4 then { v.1 with gangs := v.1.gangs + 1, fused := d.mode } else v.1) }

/-- The context's descriptor is latched (R341). -/
def State.latch (s : State) (ctx : Nat) : State :=
  if (s.ctx? ctx).isSome then s else { s with ctxs := s.ctxs ++ [s.readCtx ctx], rejected := s.rejected.filter (fun x => x != ctx) }

/-- A gang that was never placed starts. -/
def State.placeNew (s : State) (n : Node) (b : Batch) (core vdie : Nat) : State :=
  let g : Gang :=
    { uid := s.fresh, batch := b.uid, node := n.uid, num := b.next, state := .resident, core := core, size := b.desc.gangSize
      vdie := vdie, since := s.tick, reqTick := 0, resident := 0, sliceOver := false, full := false, kept := none, gbarGen := 0
      gbarCame := [] }
  let t := ({ s with gangs := s.gangs ++ [g], fresh := s.fresh + 1 }).putBatch
    { b with next := b.next + 1, headTick := s.tick, aged := false }
  (List.range b.desc.gangSize).foldl (fun t k => t.placeWg n b g.uid b.next k (core + k) vdie) t

/-- What the table caches of a gang's cores hold goes (R268): a gang that comes back must not meet lines that it left behind. -/
def State.dropTable (s : State) (core size : Nat) : State :=
  { s with lines := s.lines.filter (fun l => match l.place with
      | .table c => c < core || core + size ≤ c
      | .l1 _ | .l2 _ => true) }

/-- A saved gang takes its new place; its restore follows (R379, R386). No copy granted before counts as fresh there (R232). -/
def State.placeSaved (s : State) (g : Gang) (b : Batch) (core vdie : Nat) : State :=
  let kept := g.kept.getD { waves := [], wgs := [] }
  let t := s.putGang { g with
    state := .restoring, core := core, vdie := vdie, since := s.tick, resident := 0, sliceOver := false, kept := none }
  let t := { t with wgs := t.wgs ++ kept.wgs.map (fun (w : Workgroup) => { w with core := core + w.member }) }
  let home (w : Wave) : Nat := match kept.wgs.find? (fun x => x.uid == w.wg) with | some x => core + x.member | none => core
  let t := kept.waves.foldl (fun t w =>
    { t with
      waves := t.waves ++ [{ w with core := home w, slot := t.slotFor (home w) w.idx, vdie := vdie, floor := t.fresh, floorL1 := t.fresh }]
      copies := t.copies.map (fun (c : CopyOp) => if c.wave == w.uid then { c with core := home w } else c)
      walks := t.walks.map (fun (c : Walk) => if c.wave == w.uid then { c with core := home w } else c) }) t
  ({ t with moved := t.moved ++ [g.uid] }.dropTable core g.size).putBatch { b with headTick := s.tick, aged := false }

/-- The L1s of some cores keep what their scratchpads leave them (R13). -/
def State.trimCores (s : State) (core size : Nat) : State :=
  (List.range size).foldl (fun t k => t.trim (.l1 (core + k)) (2 ^ 16, 0)) s

/-- A head is placed whole (R27, R318). -/
def State.placeHead (s : State) (n : Node) (h : Head) (core vdie : Nat) : State :=
  let t := (s.latch n.ctx).takeView h core
  (match h.saved with
    | some g => t.placeSaved g h.batch core vdie
    | none => t.placeNew n h.batch core vdie).trimCores core h.size

/-- Gangs on their way off their cores: to be saved, or with every lane exited, to retire (R28, R362). -/
def State.leaving (s : State) : List Nat :=
  (s.gangs.filter (fun g => g.state == .requested || g.state == .handling || g.state == .draining
    || (g.onCores && s.waves.all (fun w => w.gang != g.uid || w.live == 0)))).map (fun g => g.uid)

/-- The head would fit on a cluster once some gangs are gone. -/
def State.fitsAfter (s : State) (h : Head) (gone : List Nat) (cl : Nat) : Bool :=
  (s.fitCluster (s.coreFree gone) (s.clusterFree gone) h cl).isSome

/-- A gated die of the head's field is asked for (R11, R318). -/
def State.askUngate (s : State) (h : Head) (site : Nat) : Bool :=
  (s.spoke site).gated && !(s.spoke site).ungating && (s.fieldSites h.batch).any (fun x => x.2 == site)

/-- The first head that can be placed on a site: it is placed, or its cluster begins to change mode (R190), or its die to
ungate, or its node ends because its context is rejected (R341). A head that fits does not wait for other heads (R319). -/
def State.placeFirst (s : State) (site : Nat) : List Head → Option State
  | [] => none
  | h :: t =>
    match s.node? h.batch.node with
    | none => s.placeFirst site t
    | some n =>
      if !s.headAllowed h then s.placeFirst site t
      else if (s.ctx? n.ctx).isNone && s.ctxRejected n.ctx then some (s.rejectNode n 0x0F)
      else match s.destination h with
        | none => if s.askUngate h site then some (s.updSpoke site (fun x => { x with ungating := true, ungateTick := s.tick }))
          else s.placeFirst site t
        | some (vd, goal, core) =>
          if goal ≠ site then s.placeFirst site t
          else
            let cl := core / 4
            let mode := h.batch.desc.mode
            if (s.cluster cl).fused = mode && (s.cluster cl).modeTo.isNone then some (s.placeHead n h core vd)
            else if (s.cluster cl).modeTo.isSome then s.placeFirst site t
            else some (s.updCluster cl (fun c => { c with modeTo := some mode }))

/-- GANG_PLACE (R318): the distributor places one head gang on a spoke. -/
def execGangPlace (site : Nat) (s : State) : Out State := if s.cpOpen then .next ((s.placeFirst site s.heads).getD s) else .next s

/-- CLUSTER_MODE_CHANGE (R190): with no workgroup on the cluster its four L1s are written back and invalidated. -/
def execClusterModeChange (cluster : Nat) (s : State) : Out State :=
  match (s.cluster cluster).modeTo with
  | none => .next s
  | some m =>
    if !(s.gangsOn cluster).isEmpty || (s.cluster cluster).span.hitched then .next s
    else
      let t := s.landAll (fun x => x.spoke == cluster / 8 && (x.stage == 2 || x.l1 / 4 == cluster))
      .next { t.updCluster cluster (fun c => { c with fused := m, modeTo := none }) with
        lines := t.lines.filter (fun l => match l.place with | .l1 c => c / 4 != cluster | .table _ | .l2 _ => true)
        views := updAt t.views cluster (fun (v : ClusterView) => { v with fused := m }) }

/-! ## Gating (R11) -/

/-- UNGATE_DONE (R11). -/
def execUngateDone (spoke : Nat) (s : State) : Out State :=
  if (s.spoke spoke).gated && (s.spoke spoke).ungating && s.cpOpen then
    .next { s.updSpoke spoke (fun x => { x with gated := false, ungating := false }) with
      posts := updAt s.posts spoke (fun p => { p with beat := s.tick }) }
  else .next s

/-- Everything the caches of a spoke hold is written back and dropped. -/
def State.emptySpoke (s : State) (sp : Nat) : State :=
  let t := s.landAll (fun x => x.spoke == sp)
  { t with lines := t.lines.filter (fun l => match l.place with
      | .l1 c | .table c => spokeOfCore c != sp
      | .l2 x => x != sp) }

/-- DIE_GATE (R11): a spoke without resident gangs is gated once its L2 is written back. What its postilion has in flight stands still
until the spoke is ungated (`State.powered`). -/
def execDieGate (spoke : Nat) (s : State) : Out State :=
  if (s.spoke spoke).gated || s.gangs.any (fun g => g.onCores && g.core / 32 == spoke)
      || (List.range 8).any (fun k => (s.cluster (8 * spoke + k)).modeTo.isSome) || 8 ≤ spoke then .next s
  else .next ((s.emptySpoke spoke).updSpoke spoke (fun x => { x with gated := true, ungating := false }))

/-! ## Retirement (R28, R37, R38) -/

/-- Nothing of the wave is still to be performed at system scope (R28), and nothing that it may have observed (R234, R237) once `atHome`
holds of its gang. -/
def State.spent (s : State) (w : Wave) : Bool :=
  s.over w && !w.ops.any (fun o => match o.instr with | .syncw .. | .pf .. => false | _ => true)
    && !s.writes.any (fun x => x.wave == w.uid) && !s.ioWrites.any (fun x => x.wave == w.uid)
    && !s.copies.any (fun c => c.wave == w.uid) && !s.walks.any (fun c => c.wave == w.uid)

/-- The gang leaves its cores. -/
def State.dropGang (s : State) (g : Gang) : State :=
  let t := s.dropWaves (fun u => match s.wave? u with | some w => w.gang == g.uid | none => false)
  { t with wgs := t.wgs.filter (fun w => w.gang != g.uid), gangs := t.gangs.filter (fun x => x.uid != g.uid) }

/-- GANG_RETIRE (R28, R37, R38): every wave has ended and every access of the gang is performed; the spawn counter falls, and at
zero the node completes. A request for the gang's pre-emption is withdrawn (R362). -/
def execGangRetire (gang : Nat) (s : State) : Out State :=
  match s.gang? gang with
  | none => .next s
  | some g =>
    let ws := s.waves.filter (fun w => w.gang == gang)
    if !g.onCores || g.state == .restoring || !ws.all s.spent || !s.atHome ws then .next s
    else match s.batch? g.batch, s.node? g.node with
      | some b, some n =>
        let t := s.dropGang g
        let b1 := { b with retired := b.retired + 1 }
        let n1 := { n with spawn := n.spawn - g.size }
        let t1 := (t.putBatch b1).putNode n1
        let t2 := { t1 with batches := t1.batches.filter (fun x => !(x.uid == b.uid && x.count ≤ b1.retired * b.desc.gangSize)) }
        .next (t2.settleNode n.uid).releaseLatches
      | _, _ => .next s

/-! ## Pre-emption requests (R274, R302, R308, R360, R362, R379) -/

/-- The identifier of a gang within its node (R29). -/
def State.gangKey (s : State) (g : Gang) : Nat × Nat := ((match s.batch? g.batch with | some b => b.seq | none => 0), g.num)

def keyBefore (x y : Nat × Nat) : Bool := decide (x.1 < y.1) || (x.1 == y.1 && decide (x.2 < y.2))

/-- The gang may be chosen: it is resident and a lane of it has not exited (R362). -/
def State.preemptible (s : State) (g : Gang) : Bool :=
  g.state == .resident && s.waves.any (fun w => w.gang == g.uid && w.live != 0)

/-- Every wave of the gang waits at GBAR.GRID (R308). -/
def State.atGrid (s : State) (g : Gang) : Bool :=
  (s.waves.filter (fun w => w.gang == g.uid)).all (fun w => w.paths.all (fun p => p.waiting && p.waitOnly && (match p.clause with
    | some c => (match (parseWord .user (c.words.getD c.idx 0)).val with | .gbarGrid _ => true | _ => false)
    | none => false)))

/-- The head holds its node's lowest thread that has not exited (R273, R274). -/
def State.lowestHead (s : State) (h : Head) : Bool :=
  let key := (h.batch.seq, h.num)
  (s.heads.all (fun x => x.batch.node != h.batch.node || !keyBefore (x.batch.seq, x.num) key))
    && (s.gangs.filter (fun g => g.node == h.batch.node && g.onCores)).all (fun g =>
      !keyBefore (s.gangKey g) key || !s.waves.any (fun w => w.gang == g.uid && w.live != 0))

/-- The order of R362: lowest priority, then the node that started latest, then the highest identifier. -/
def State.victimBefore (s : State) (x y : Gang) : Bool :=
  let px := s.effPrio (s.gangRegion x)
  let py := s.effPrio (s.gangRegion y)
  let nx := match s.node? x.node with | some n => n.startOrder | none => 0
  let ny := match s.node? y.node with | some n => n.startOrder | none => 0
  if px != py then decide (px < py) else if nx != ny then decide (ny < nx) else keyBefore (s.gangKey y) (s.gangKey x)

/-- The head's limits allow it once some gangs are gone (R317, R360). -/
def State.limitsLet (s : State) (h : Head) (gone : List Nat) : Bool :=
  State.headAllowed { s with gangs := s.gangs.filter (fun g => !gone.contains g.uid) } h

/-- The gangs of a cluster that may make room for a head, in order: those of other regions (R362), those of its batch that wait
at GBAR.GRID (R308), and, for the lowest thread of a node, those above it (R274); each with the number of its rule, 0 to 2. Where a
limit of its own region holds the head back, only R308 makes room. -/
def State.victims (s : State) (h : Head) (cl : Nat) : List (Nat × Gang) :=
  let on := (s.gangsOn cl).filter s.preemptible
  let last (x y : Gang) : Bool := keyBefore (s.gangKey y) (s.gangKey x)
  let other := sortBy s.victimBefore (on.filter (fun g =>
    s.gangRegion g != h.batch.region && (decide (s.effPrio (s.gangRegion g) < s.headPrio h)
      || (s.effPrio (s.gangRegion g) == s.headPrio h && g.sliceOver && s.effSlice (s.gangRegion g) != 0))))
  let grid := sortBy last (on.filter (fun g => g.batch == h.batch.uid && s.atGrid g))
  let above := if s.lowestHead h then sortBy last (on.filter (fun g =>
      g.node == h.batch.node && keyBefore (h.batch.seq, h.num) (s.gangKey g) && !grid.contains g)) else []
  if !s.headAllowed h then grid.map (fun g => (1, g))
  else other.map (fun g => (0, g)) ++ grid.map (fun g => (1, g)) ++ above.map (fun g => (2, g))

/-- The order of `victims` over all clusters (R362: the order is the device's, whatever cluster a gang is on). -/
def State.victimFirst (s : State) (x y : Nat × Gang) : Bool :=
  if x.1 != y.1 then decide (x.1 < y.1)
  else if x.1 = 0 then s.victimBefore x.2 y.2
  else keyBefore (s.gangKey y.2) (s.gangKey x.2)

/-- The gangs of a cluster, in order and as few as do, whose pre-emption lets the head fit there. -/
def State.roomAt (s : State) (h : Head) (cl : Nat) : Option (List (Nat × Gang)) :=
  let vs := s.victims h cl
  let does (k : Nat) : Bool :=
    let gone := s.leaving ++ (vs.take k).map (fun x => x.2.uid)
    s.fitsAfter h gone cl && s.limitsLet h gone
  ((List.range (vs.length + 1)).find? does).map (fun k => vs.take k)

/-- The gangs that are pre-empted for the head: those of the cluster whose first victim comes first among all clusters where
pre-emption lets the head fit, and only where nothing else does (R362). -/
def State.roomFor (s : State) (h : Head) : List Nat :=
  let sites := (s.fieldSites h.batch).map (fun x => x.2)
  if s.headAllowed h && ((s.destination h).isSome || sites.any (fun x => (s.spoke x).gated)) then []
  else if s.limitsLet h s.leaving && sites.any (fun x => (List.range 8).any (fun k => s.fitsAfter h s.leaving (8 * x + k))) then []
  else
    let rooms := sites.flatMap (fun x => (List.range 8).filterMap (fun k => s.roomAt h (8 * x + k)))
    let before (x y : List (Nat × Gang)) : Bool := match x.head?, y.head? with
      | some u, some v => s.victimFirst u v
      | _, _ => false
    ((firstBy before rooms).getD []).map (fun x => x.2.uid)

/-- A path is held at an arrival that needs a barrier entry of a core without a free one, or an arrival that has been made is (R302). -/
def State.heldArrival (s : State) (w : Wave) : Bool :=
  match s.wg? w.wg with
  | none => false
  | some g => w.paths.any (fun p => !p.waiting && (match p.clause with
      | some c => (match (parseWord .user (c.words.getD c.idx 0)).val with
        | .barArr e n _ | .barSync e n _ =>
          let q := qualify w.rf e p.lanes
          q != 0 && (q &&& w.barMask n) == 0 && s.entryHeld w g n q
        | _ => false)
      | none => false))
    || w.ops.any (fun o => match o.arrives with
      | some n => !(g.bar n).held && 64 ≤ s.barEntries g.core
      | none => false)

/-- Gangs above a held arrival's workgroup that hold open entries of its core, highest identifier first (R302). -/
def State.entryHolders (s : State) (w : Wave) : List Gang :=
  match s.gang? w.gang with
  | none => []
  | some mine => sortBy (fun x y => keyBefore (s.gangKey y) (s.gangKey x)) (s.gangs.filter (fun g =>
      s.preemptible g && g.node == w.node && keyBefore (s.gangKey mine) (s.gangKey g)
        && s.wgs.any (fun x => x.gang == g.uid && x.core == w.core && 0 < x.openNames)))

/-- The gang is chosen for a held arrival, and none is already leaving that core. -/
def State.freesEntry (s : State) (g : Gang) : Bool :=
  s.waves.any (fun w => s.heldArrival w && (s.entryHolders w).head?.map (fun x => x.uid) == some g.uid
    && !s.wgs.any (fun x => x.core == w.core && 0 < x.openNames && s.leaving.contains x.gang))

/-- A region on the gang's path is capped (R360). -/
def State.capped (s : State) (g : Gang) : Bool := (s.regionChain (s.gangRegion g)).any (fun r => (s.regionOr r).capped)

/-- The wave has taken or pended PREEMPT, or has no need to: a wave whose lanes have exited, or one that a debugger has
stopped (R379). -/
def Wave.heeded (w : Wave) : Bool :=
  w.live == 0 || w.trap.taken || (w.trap.inHandler && w.trap.preempt) || w.paths.any (fun p => p.dbg)

/-- Every wave of a gang satisfies a test. -/
def State.gangAll (s : State) (gang : Nat) (f : Wave → Bool) : Bool := (s.waves.filter (fun w => w.gang == gang)).all f

/-- REQUESTED becomes HANDLING once every wave has taken or pended PREEMPT (R379). -/
def State.settleHandling (s : State) (gang : Nat) : State :=
  match s.gang? gang with
  | some g => if g.state == .requested && s.gangAll gang Wave.heeded then s.putGang { g with state := .handling } else s
  | none => s

/-- The walks of a gang stop, each once the pass in progress has ended (R178). -/
def State.stopWalks (s : State) (gang : Nat) : State :=
  let mine (u : Nat) : Bool := match s.wave? u with | some w => w.gang == gang | none => false
  (s.walks.filter (fun (k : Walk) => mine k.wave && !k.stopped)).foldl (fun (t : State) (k : Walk) =>
    let inPass := (t.cluster (clusterOfCore k.core)).span.pass.any (fun e => e.op == k.op)
    if inPass then t.putWalk { k with stopping := true }
    else match t.wave? k.wave with
      | some w => t.stopWalk w k false
      | none => t) s

/-- THE REQUEST REACHES THE GANG (R178, R379): each wave with a lane left takes PREEMPT at its next precise point; its walk
stops once the pass in progress has ended, and its open tenure ends. -/
def State.requestGang (s : State) (g : Gang) : State :=
  let mine (w : Wave) : Bool := w.gang == g.uid
  let isMine (u : Nat) : Bool := match s.wave? u with | some w => mine w | none => false
  State.stopWalks { s.putGang { g with state := .requested, reqTick := s.tick, full := false } with
    waves := s.waves.map (fun (w : Wave) =>
      if mine w then { w with trap := { w.trap with preempt := w.live != 0, taken := false, reported := false } } else w)
    clusters := s.clusters.map (fun (c : Cluster) => { c with span := c.span.disown isMine }) } g.uid

/-- PREEMPT_REQUEST (R379): the distributor pre-empts a gang under R274, R302, R308, R360 or R362. -/
def execPreemptRequest (gang : Nat) (s : State) : Out State :=
  match s.gang? gang with
  | none => .next s
  | some g =>
    if s.preemptible g && (s.capped g || s.heads.any (fun h => (s.roomFor h).contains gang) || s.freesEntry g) then
      .next ((s.requestGang g).settleHandling gang)
    else .next s

/-- TIME_SLICE_EXPIRE (R362): the gang has been resident for its region's effective slice. -/
def execTimeSliceExpire (gang : Nat) (s : State) : Out State :=
  match s.gang? gang with
  | none => .next s
  | some g =>
    let slice := s.effSlice (s.gangRegion g)
    if g.onCores && slice != 0 && slice ≤ g.resident then .next (s.putGang { g with sliceOver := true }) else .next s

/-- HEAD_AGING (R362): the head of a batch has waited unplaced for 100,000 ticks. -/
def execHeadAging (batch : Nat) (s : State) : Out State :=
  match s.batch? batch with
  | none => .next s
  | some b =>
    if (s.headGang b).isSome && b.headTick + 100000 ≤ s.tick then .next (s.putBatch { b with aged := true }) else .next s

end Sys2Proof.Machine
end

