-- ==== Sys2Proof/Machine/Save.lean ====
section
/-! DEFINITION. Pre-emption after its request (R377 to R389): the taking of PREEMPT, the handler's SAVEW, RESTW and YIELD.SAVED,
the drain and the save record (R380, R384, R423), the full save (R382), the restore (R386), and the watchdog (R389). -/

namespace Sys2Proof.Machine

/-! ## Where a save record lies (R33, R384) -/

/-- Bytes of a workgroup's area before wave `idx`: control data, scratchpad, and the waves before it. -/
def Desc.waveAt (d : Desc) (idx : Nat) : Nat :=
  1024 + d.scratch * 32768 + (d.roles.take idx).foldl (fun n r => n + (4096 + 128 * r.2)) 0

/-- Bytes of a workgroup's area. -/
def Desc.areaSize (d : Desc) : Nat := d.waveAt d.roles.length

/-- The record of a gang. -/
def Desc.recordAt (d : Desc) (num : Nat) : Nat := (d.saveBase.toNat + num * d.saveStride) % 2 ^ 64

/-- The area of a wave's workgroup. -/
def State.areaOf (s : State) (w : Wave) : Nat :=
  let d := s.descOf w
  let num := match s.gang? w.gang with | some g => g.num | none => 0
  let member := match s.wg? w.wg with | some g => g.member | none => 0
  (d.recordAt num + 256 + member * d.areaSize) % 2 ^ 64

/-- The control area of a wave; its registers follow 4,096 bytes on. -/
def State.ctlOf (s : State) (w : Wave) : Nat := (s.areaOf w + (s.descOf w).waveAt w.idx) % 2 ^ 64

/-! ## The control area (R384, R423) -/

/-- CW_WORD of a trap point. -/
def TrapPoint.word (t : TrapPoint) : Nat := t.idx % 16 + (if t.waitOnly then 16 else 0)

def TrapPoint.none : TrapPoint := { hdr := 0, idx := 0, waitOnly := false }

/-- CW_WORD and CW_HDR, or CW_TWORD and CW_THDR, of 32 lanes. -/
def pointBytes (m : Map TrapPoint) : List Byte :=
  let at_ (l : Nat) : TrapPoint := (Map.find m l).getD .none
  (List.range 32).flatMap (fun l => toBytes 1 (at_ l).word) ++ (List.range 32).flatMap (fun l => toBytes 8 (at_ l).hdr.toNat)

/-- TRAPCODE and IN_HANDLER. -/
def Wave.infoLow (w : Wave) : Nat := w.trap.code % 64 + (if w.trap.inHandler then 64 else 0)

/-- The GBAR generation ticket of the record: that of the form the wave last arrived at (R307, R384). -/
def WaveBar.lastTicket (b : WaveBar) : Nat := if b.gform then b.kticket else b.gticket

/-- The fields that SAVEW.C writes, by offset; `pts` are the lanes' points. -/
def Wave.ctlParts (w : Wave) (pts : Map TrapPoint) : List (Nat × List Byte) :=
  let lane (l : Nat) : Nat :=
    (List.range 7).foldl (fun n k => if (Map.get 0 w.rf.p k).getLsbD l then n + 2 ^ k else n) 0 + (if w.gone.getLsbD l then 128 else 0)
  [ (0, toBytes 4 w.infoLow ++ toBytes 4 w.rf.fpstat.toNat)
  , (0x14, toBytes 4 w.rf.timeHi.toNat)
  , (0x20, (List.range 48).flatMap (fun n => toBytes 4 (w.rf.sreg n).toNat) ++ (List.range 32).flatMap (fun l => toBytes 1 (lane l))
      ++ pointBytes pts)
  , (0x340, (List.range 32).flatMap (fun l => toBytes 4 (Map.get 1 w.rf.seed l).toNat)
      ++ (List.range 16).flatMap (fun n => toBytes 4 (w.rf.join n).toNat ++ toBytes 4 (w.rf.came n).toNat)
      ++ (List.range 64).flatMap (fun n => toBytes 4 (w.barMask n).toNat)
      ++ (List.range 64).flatMap (fun n => toBytes 2 (Map.get 0 w.bar.ticket n))
      ++ toBytes 8 (w.bar.gmask.toNat + w.bar.lastTicket % 2 ^ 16 * 2 ^ 32)) ]

/-- CW_FLAGS (R59): 4 bits for each flag. -/
def Wave.flagWord (w : Wave) : Nat := (List.range 12).foldl (fun n f => n + min 15 (w.flagCount f) * 2 ^ (4 * f)) 0

/-- TOKMASK (R45). -/
def Wave.tokMask (w : Wave) : Nat :=
  ((List.range 6).filter (fun m => 32 * m + 31 < w.budget && !w.spanHeld.getLsbD m)).foldl (fun n m => n + 2 ^ m) 0

/-- The filter entry an operation waits in. -/
def State.filterOf (s : State) (wave op : Nat) : Option Filter := s.filters.find? (fun f => f.waiters.contains (wave, op))

/-- A waybill summary (R404). -/
def State.summary (s : State) (w : Wave) (a : Access) : List Byte :=
  let lane := (lowestLane a.mask).getD 0
  let addr := match a.pieces.find? (fun p => p.lane == lane) with | some p => p.addr | none => 0
  let rel := match a.instr.memOp with | some m => orderRel m.at_.order | none => false
  let rep := match s.filterOf w.uid a.op with | some f => f.rep | none => false
  toBytes 8 addr ++ toBytes 1 (a.word.toNat / 2 ^ 14) ++ toBytes 1 (a.word.toNat % 16) ++ toBytes 1 (a.word.toNat / 2 ^ 54)
    ++ toBytes 1 ((if rel then 1 else 0) + (if rep then 2 else 0)) ++ toBytes 4 a.mask.toNat

/-- A CW_WAYBILL entry. -/
def State.waybillEntry (s : State) (w : Wave) (a : Access) : List Byte :=
  s.summary w a ++ toBytes 4 (match s.filterOf w.uid a.op with | some f => f.id | none => 0) ++ toBytes 12 0

/-- A CW_OPS entry: the word, its operands, the flag, how it stands, and the iteration vector. -/
def State.opEntry (s : State) (w : Wave) (op : Nat) (word : Word64) (a b desc sync : Nat) (walk : Bool) (iter : List Nat) : List Byte :=
  let f := s.filterOf w.uid op
  let flag := match w.bound.find? (fun x => x.op == op) with | some x => x.flag | none => 15
  let info := flag + (if walk then 16 else 0) + (if f.isSome || !walk then 32 else 0)
    + (match f with | some x => if x.replayed then 64 else 0 | none => 0)
  toBytes 8 word.toNat ++ toBytes 8 a ++ toBytes 8 b ++ toBytes 8 desc ++ toBytes 4 sync ++ toBytes 4 info
    ++ toBytes 4 (match f with | some x => x.id | none => 0) ++ (List.range 5).flatMap (fun k => toBytes 4 (iter.getD k 0))

/-- The stopped copies and the stopped walk of a wave, in the order of issue. -/
def State.opEntries (s : State) (w : Wave) : List (List Byte) :=
  let cs := (s.copies.filter (fun c => c.wave == w.uid)).map (fun c =>
    let gather := match c.instr with | .cpyx .. => true | _ => false
    (c.op, s.opEntry w c.op c.word (if gather then 0 else c.src) c.dst (if gather then 0 else c.desc) (c.sync.getD 0xFFFFFFFF) false
      c.iter))
  let ks := (s.walks.filter (fun k => k.wave == w.uid)).map (fun k =>
    (k.op, s.opEntry w k.op k.word k.a k.b k.c 0 true (k.vector k.n)))
  (sortBy (fun (x y : Nat × List Byte) => decide (x.1 < y.1)) (cs ++ ks)).map (fun x => x.2)

/-- A lane holds its pixel turn: it has taken it, or it has arrived and is not given up (R262). -/
def State.holdsTurn (s : State) (f : Fragment) : Bool := f.turn || (!f.done && s.turnCome f)

/-- The fields the device writes at the drain, by offset; `low` are the bits of CW_INFO that SAVEW.C wrote. -/
def State.deviceParts (s : State) (w : Wave) (low : Nat) : List (Nat × List Byte) :=
  let ops := s.opEntries w
  let wb := w.waybill.map (s.waybillEntry w)
  let stopped := s.walks.any (fun k => k.wave == w.uid)
  let turn := w.frags.foldl (fun n f => if s.holdsTurn f.2 then n + 2 ^ f.1 else n) 0
  [ (0, toBytes 4 (low % 128 + wb.length % 16 * 128 + ops.length % 8 * 2048))
  , (8, toBytes 8 w.flagWord ++ toBytes 4 (w.tokMask + (if stopped then 64 else 0)))
  , (0x18, toBytes 4 turn)
  , (0x600, (wb.flatten ++ List.replicate 256 0).take 256 ++ (ops.flatten ++ List.replicate 320 0).take 320) ]

/-! ## Access to the save area (R387) -/

/-- A range cut at each 256 bytes. -/
def chunks (addr : Nat) (b : List Byte) : List (Nat × List Byte) :=
  let n := (addr % 256 + b.length + 255) / 256
  (List.range n).map (fun k =>
    let lo := addr / 256 * 256 + 256 * k
    let start := max lo addr
    (start % 2 ^ 64, (b.drop (start - addr)).take (lo + 256 - start)))

/-- Bytes written to the save area. -/
def State.saveChunk (s : State) (w : Wave) (x : Nat × List Byte) : Except (Nat × Tr) State :=
  match s.xlate w (Want.store false) x.1 with
  | .ok m =>
    let s1 := s.atHomeOf w x.1 m
    .ok ((s1.updateLines (s1.sidePlace w.core) m.pa x.2).homeWrite w.uid 0 m.pa x.2)
  | t => .error (x.1, t)

/-- Bytes read from the save area, and the sector of theirs that is in uncorrectable error. -/
def State.saveRead (s : State) (w : Wave) (va n : Nat) : Except (Nat × Tr) (State × List Byte × Option Nat) :=
  match s.xlate w (Want.load false) va with
  | .ok m =>
    let t := s.atHomeOf w va m
    .ok (t, t.overlay (fun x => t.notAt w 3 x) m.pa (t.bytesAt m.pa n), (sectors m.pa n).find? (fun k => t.bad.contains k))
  | t => .error (va, t)

/-- The device's own read of the save area, for which no wave is charged with uncorrectable data: firmware is told (R391). -/
def State.deviceRead (s : State) (w : Wave) (va n : Nat) : Except (Nat × Tr) (State × List Byte) :=
  (s.saveRead w va n).map (fun r => match r.2.2 with
    | some k => (r.1.reportBad ((r.1.homeOf (64 * k)).getD 0) (64 * k), r.2.1)
    | none => (r.1, r.2.1))

/-- Parts of a record written one after the other. -/
def State.saveParts (s : State) (w : Wave) (base : Nat) : List (Nat × List Byte) → Except (Nat × Tr) State
  | [] => .ok s
  | x :: t =>
    match (chunks ((base + x.1) % 2 ^ 64) x.2).foldlM (fun s c => s.saveChunk w c) s with
    | .error e => .error e
    | .ok s1 => s1.saveParts w base t

/-- What an access to the save area that does not translate does: TRANSLATION is uncontained there (R387). -/
def State.saveFault (s : State) (w : Wave) (t : Tr) (word addr hdr : Word64) : State :=
  match t with
  | .bad _ _ _ => s.uncontained w (s.reportOf w 0x20 0 word addr hdr)
  | .unbound => s.uncontained w (s.reportOf w 0x24 0x1 word addr hdr)
  | .refused | .ok _ => s

/-! ## SAVEW and RESTW (R385, R387) -/

/-- Rows `a` to `a + n - 1` as the register area holds them. -/
def RegFile.rows (rf : RegFile) (a n : Nat) : List Byte :=
  (List.range n).flatMap (fun k => (List.range 32).flatMap (fun l => toBytes 4 (rf.vreg (a + k) l).toNat))

/-- The registers SAVEW.C and RESTW.C name. -/
def ctlRegs : List RegId := (List.range 48).map RegId.s ++ (List.range 7).map RegId.p ++ [.fpstat, .seed]

/-- The pieces of an access to the save area. -/
def savePieces (addr : Nat) (b : List Byte) : List Piece :=
  (chunks addr b).map (fun c => { lane := 0, addr := c.1, len := c.2.length, x := c.2, y := [], got := [], done := false })

/-- A word of this kind is ILLEGAL outside a handler (R385), unless a lower reason `r` of it holds (R74). A postilion has no save
record. -/
def saveIssue (g : Guard) (regs dests : List RegId) (r : State → Issue → LaneMask → Option Nat)
    (f : State → Issue → LaneMask → State) (s : State) : Out State :=
  memIssue g regs dests (fun s i q =>
    let outside : Option Nat := if !i.w.trap.inHandler || i.w.post.isSome then some 0x1D else none
    some (match (r s i q).orElse (fun _ => outside) with
      | some n => s.illegal i n
      | none => f s i q)) s

/-- SAVEW.C. -/
def execSavewC (g : Guard) (s : State) : Out State :=
  saveIssue g ctlRegs [] (fun _ _ _ => none) (fun s i q =>
    let base := s.ctlOf i.w
    let ps := (i.w.ctlParts i.w.trap.pts).flatMap (fun x => savePieces ((base + x.1) % 2 ^ 64) x.2)
    s.issueOp i (i.access s (.savewC g) q ps []) [] true) s

/-- RESTW.C. -/
def execRestwC (g : Guard) (s : State) : Out State :=
  saveIssue g [] ctlRegs (fun _ _ _ => none) (fun s i q =>
    let ps := savePieces (s.ctlOf i.w) (List.replicate 0x5C8 0)
    s.issueOp i (i.access s (.restwC g) q ps []) ctlRegs true) s

/-- SAVEW.V. -/
def execSavewV (g : Guard) (a : Fin 192) (n : Fin 256) (s : State) : Out State :=
  saveIssue g (vRun a (8 * n)) [] (fun _ _ _ => none) (fun s i q =>
    let ps := savePieces ((s.ctlOf i.w + 4096 + 128 * a) % 2 ^ 64) (i.w.rf.rows a (8 * n))
    s.issueOp i (i.access s (.savewV g a n) q ps []) [] true) s

/-- RESTW.V. -/
def execRestwV (g : Guard) (a : Fin 192) (n : Fin 256) (s : State) : Out State :=
  saveIssue g [] (vRun a (8 * n)) (fun _ _ _ => none) (fun s i q =>
    let ps := savePieces ((s.ctlOf i.w + 4096 + 128 * a) % 2 ^ 64) (List.replicate (1024 * n) 0)
    s.issueOp i (i.access s (.restwV g a n) q ps []) (vRun a (8 * n)) true) s

/-- The range of SAVEW.S and RESTW.S: a and b of the lowest qualifying lane (R385). -/
def Issue.padRange (i : Issue) (a b : Src) (q : LaneMask) : Nat × Nat :=
  let l := (lowestLane q).getD 0
  ((a.read i.w.rf i.c.head.lit l).toNat, (b.read i.w.rf i.c.head.lit l).toNat)

/-- What is wrong with a range of `n` bytes at `off` of a scratchpad of `size` bytes (R385). -/
def padReason (size off n : Nat) : Option Nat :=
  if size < off + n then some 0x15 else if off % 256 != 0 || n % 256 != 0 then some 0x17 else none

/-- SAVEW.S and RESTW.S (R385). -/
def padSave (ins : Instr) (g : Guard) (a b : Src) (s : State) : Out State :=
  saveIssue g (a.regs ++ b.regs) []
    (fun s i q => padReason (s.descOf i.w).scratchBytes (i.padRange a b q).1 (i.padRange a b q).2)
    (fun s i q =>
      let r := i.padRange a b q
      let base := s.areaOf i.w + 1024
      s.issueOp i (i.access s ins q (savePieces ((base + r.1) % 2 ^ 64) (List.replicate r.2 0)) [base]) [] true) s

def execSavewS (g : Guard) (a b : Src) (s : State) : Out State := padSave (.savewS g a b) g a b s
def execRestwS (g : Guard) (a b : Src) (s : State) : Out State := padSave (.restwS g a b) g a b s

/-- A SAVEW of the wave is not performed (R385). -/
def Access.isSavew (a : Access) : Bool := match a.instr with | .savewC .. | .savewV .. | .savewS .. => true | _ => false
def Access.isSave (a : Access) : Bool := a.isSavew || (match a.instr with | .restwC .. | .restwV .. | .restwS .. => true | _ => false)

/-- The codes of R370. -/
def trapCodes : List Nat := [1, 2, 3, 4, 5, 6, 7, 0x20, 0x21, 0x22, 0x23, 0x24, 0x25]

/-- A control area that RESTW.C and WRITE_CTL refuse (R385). -/
def ctlBad (b : List Byte) : Bool :=
  let info := field b 0 4
  info / 2 ^ 14 != 0 || !trapCodes.contains (info % 64) || 8 < info / 128 % 16 || 5 < info / 2048 % 8
    || (List.range 32).any (fun l => 8 < field b (0x100 + l) 1 % 16 || field b (0x100 + l) 1 / 32 != 0
        || field b (0x120 + 8 * l) 8 % 8 != 0)
    || field b 0x5C0 8 / 2 ^ 48 != 0

/-- The trap points a control area holds. -/
def ctlPoints (b : List Byte) (m : LaneMask) : Map TrapPoint :=
  (lanesOf m).foldl (fun t l => Map.ins t l
    { hdr := BitVec.ofNat 64 (field b (0x120 + 8 * l) 8), idx := field b (0x100 + l) 1 % 16
      waitOnly := field b (0x100 + l) 1 / 16 % 2 == 1 }) []

/-- The registers a control area holds; a lane that is never active keeps its state (R41). A seed of 0, which no RNDSEED may be (R111), is
loaded as 1, as at a wave's start and by MTS (assumption log 89). -/
def ctlRegsOf (b : List Byte) (exist : LaneMask) (rf : RegFile) : RegFile :=
  let w (o : Nat) : Word := BitVec.ofNat 32 (field b o 4)
  { rf with
    fpstat := BitVec.ofNat 6 (field b 4 4), timeHi := w 0x14
    s := (List.range 48).foldl (fun m n => Map.put 0 m n (w (0x20 + 4 * n))) []
    p := (List.range 7).foldl (fun m k => Map.put 0 m k (exist &&& maskOf (fun l => (BitVec.ofNat 8 (field b (0xE0 + l) 1)).getLsbD k))) []
    seed := (List.range 32).foldl (fun m l => Map.put 1 m l (if w (0x340 + 4 * l) = 0 then 1 else w (0x340 + 4 * l))) []
    j := (List.range 16).foldl (fun m n => Map.put 0 m n (w (0x3C0 + 8 * n))) []
    a := (List.range 16).foldl (fun m n => Map.put 0 m n (w (0x3C4 + 8 * n))) [] }

/-- Lanes that the control area marks EXITED leave the wave (R384, R385). -/
def Wave.exitMarked (w : Wave) (b : List Byte) : Wave :=
  let gone := maskOf (fun l => w.live.getLsbD l && decide (128 ≤ field b (0xE0 + l) 1))
  if gone = 0 then w
  else Wave.leaveJoins { w with
    exited := w.exited ||| gone
    paths := (w.paths.map (fun (p : Path) => { p with lanes := p.lanes &&& ~~~gone })).filter (fun p => p.lanes != 0) }

/-- THE SAVEW.C FIELDS LOADED into the wave (R385); its trap points are set by the caller. -/
def Wave.loadCtl (w : Wave) (b : List Byte) : Wave :=
  Wave.exitMarked { w with
    rf := ctlRegsOf b w.exist w.rf
    trap := { w.trap with code := field b 0 4 % 64 }
    bar := { w.bar with
      mask := (List.range 64).foldl (fun m n => Map.put 0 m n (BitVec.ofNat 32 (field b (0x440 + 4 * n) 4))) []
      ticket := (List.range 64).foldl (fun m n => Map.put 0 m n (field b (0x540 + 2 * n) 2)) []
      gmask := BitVec.ofNat 32 (field b 0x5C0 4)
      gticket := if w.bar.gform then w.bar.gticket else field b 0x5C4 2
      kticket := if w.bar.gform then field b 0x5C4 2 else w.bar.kticket } } b

/-- Rows of the register area loaded. -/
def RegFile.loadRows (rf : RegFile) (a : Nat) (exist : LaneMask) (b : List Byte) : RegFile :=
  (List.range (b.length / 128)).foldl (fun r k => r.putV (a + k) exist (fun l => BitVec.ofNat 32 (field b (128 * k + 4 * l) 4))) rf

/-- A RESTW has read every byte: it is loaded. -/
def State.finishRestw (s : State) (w : Wave) (a : Access) : State :=
  let b := a.pieces.flatMap (fun p => p.got)
  match a.instr with
  | .restwV _ r _ => (s.putWave { w with rf := w.rf.loadRows r w.exist b }).putOp w.uid a
  | .restwC _ =>
    if ctlBad b then s.uncontained w (s.reportOf w 0x22 0x1E a.word a.addr a.hdr)
    else
      let w1 := w.loadCtl b
      let w2 := { w1 with trap := { w1.trap with pts := ctlPoints b (w1.live &&& ~~~w1.trap.returned) } }
      (((s.putWave w2).putOp w.uid a).settleOver w.uid).settleHandler w.uid
  | _ => s.putOp w.uid a

/-- A piece of a SAVEW or RESTW. -/
def State.savePiece (s : State) (w : Wave) (a : Access) (p : Piece) : Except (Nat × Tr) (State × Piece × Bool) :=
  let off := p.addr + 2 ^ 64 - a.aux.headD 0
  match s.xlate w (if a.isSavew then Want.store false else Want.load false) p.addr with
  | .ok m =>
    let pad := match a.instr with | .savewS .. | .restwS .. => true | _ => false
    let wait := s.behindOwn w a.op .device p.addr p.len || !s.mayReadAt w 3 m.pa p.len
      || (pad && s.behindOwn w a.op .scratch (off % 2 ^ 64) p.len)
    if wait then .ok (s, p, false)
    else if a.isSavew then
      let data := if pad then s.padBytes w false (off % 2 ^ 64) p.len else p.x
      match s.saveChunk w (p.addr, data) with
      | .ok t => .ok (t, { p with done := true }, pad && s.padSpoilt w false (off % 2 ^ 64) p.len)
      | .error e => .error e
    else match s.saveRead w p.addr p.len with
      | .ok (t, b, bad) =>
        let t := if pad && bad.isNone then t.setPad w false (off % 2 ^ 64) b else t
        .ok (t, { p with got := b, done := true }, bad.isSome)
      | .error e => .error e
  | t => .error (p.addr, t)

/-- A STEP OF SAVEW OR RESTW: in the order of issue among themselves, at system scope. -/
def State.saveStep (s : State) (w : Wave) (a : Access) (sel : Nat) : State :=
  if w.ops.any (fun o => o.op < a.op && o.isSave) || !w.mayPerform a.op a.mask true then s
  else
    let r := a.pieces.zipIdx.foldlM (fun (acc : State × List Piece × Bool) pi =>
      if selects sel pi.2 pi.1 then (acc.1.savePiece w a pi.1).map (fun x => (x.1, acc.2.1 ++ [x.2.1], acc.2.2 || x.2.2))
      else .ok (acc.1, acc.2.1 ++ [pi.1], acc.2.2)) (s, [], false)
    match r with
    | .error (_, t) => s.saveFault w t a.word a.addr a.hdr
    | .ok (t, ps, bad) =>
      let a1 := { a with pieces := ps, started := true }
      if bad then s.machineCheck w a.word a.addr a.hdr
      else if ps.all (fun p => p.done) && !a.isSavew then t.finishRestw w a1
      else t.putOp w.uid a1

/-- YIELD.SAVED (R385): once every SAVEW is performed the wave reports for an outstanding request and stops, or falls
through. -/
def execYieldSaved (g : Guard) (s : State) : Out State :=
  memIssue g [] [] (fun s i _ =>
    if !i.w.trap.inHandler || i.w.trap.cause != 1 then some (s.illegal i 0x1D)
    else if i.w.ops.any Access.isSavew then none
    else
      let asked : Bool := match s.gang? i.w.gang with
        | some x => (x.state == .requested || x.state == .handling) && (i.w.trap.taken || i.w.trap.preempt)
        | none => false
      if asked then
        let w1 := { i.w with
          trap := { i.w.trap with taken := true, preempt := false, reported := true }
          paths := i.w.paths.map (fun (p : Path) => { p with halted := true }) }
        some ((s.putWave w1).settleHandling i.w.gang)
      else some (s.retire i i.w)) s

/-! ## PREEMPT is taken (R372, R373, R377, R379, R383) -/

/-- Nothing forbids the rollback of the wave: no access at its checkpoint has begun to take effect (R373). -/
def Wave.mayRollback (w : Wave) : Bool := match w.access with | some a => !a.fixed | none => true

/-- PREEMPT_TAKE (R379, R383): the wave rolls back and takes PREEMPT at the words its lanes would issue next. With HANDLER 0 it
only stops, to be saved in full (R382). -/
def execPreemptTake (wave : Nat) (s : State) : Out State :=
  match s.wave? wave with
  | none => .next s
  | some w =>
    if !w.trap.preempt || w.trap.inHandler || w.trap.pend.isSome || w.live = 0 || !w.mayRollback || w.paths.any (fun p => p.dbg)
        || !s.running w then .next s
    else
      let w1 := w.rollback
      let handler := (s.descOf w).handler
      let w2 := if handler = 0 then
          { w1 with
            paths := w1.paths.map (fun (p : Path) => { p with halted := true })
            trap := { w1.trap with preempt := false, taken := true } }
        else w1.enterTrap handler 1
      .next (((s.putWave w2).noteStep w).settleHandling w.gang)

/-! ## The drain (R380, R382) -/

/-- The wave needs nothing more of its handler: it has reported, or its lanes have exited, or a debugger holds it. -/
def Wave.yielded (w : Wave) : Bool := w.live == 0 || w.trap.reported || w.paths.any (fun p => p.dbg)

/-- DRAINING begins (R178, R380 steps 1 and 2): each wave returns to its checkpoint, an open tenure of the gang ends, and walks that
were issued since the request stop. -/
def State.startDrain (s : State) (g : Gang) (full : Bool) : State :=
  let isMine (u : Nat) : Bool := match s.wave? u with | some w => w.gang == g.uid | none => false
  State.stopWalks { s.putGang { g with state := .draining, full := full } with
    waves := s.waves.map (fun (w : Wave) => if w.gang == g.uid && w.mayRollback then w.rollback else w)
    clusters := s.clusters.map (fun (c : Cluster) => { c with span := c.span.disown isMine }) } g.uid

/-- PREEMPT_TIMEOUT (R382): 5,000 ticks after the request. -/
def execPreemptTimeout (gang : Nat) (s : State) : Out State :=
  match s.gang? gang with
  | none => .next s
  | some g =>
    if (g.state == .requested || g.state == .handling) && g.reqTick + 5000 ≤ s.tick && !s.gangAll gang Wave.yielded then
      .next (s.startDrain g true)
    else .next s

/-- An operation may stay in flight through a save: it waits for another thread, or for a release behind a held waybill entry. -/
def Wave.mayStay (w : Wave) (o : Access) : Bool :=
  (match o.instr with
    | .syncw .. | .pixOrd .. | .rastEmit .. | .barArr .. | .barSync .. | .gbarGrid .. | .gbarGang .. => true
    | _ => false)
  || (match w.waybill with
    | a :: _ => a.op < o.op && (spanBlock o.instr).isNone && !o.isSave
    | [] => false)

/-- What R380 asks of a wave in steps 1 to 6 is done. -/
def State.drained (s : State) (w : Wave) : Bool :=
  let sp := (s.cluster (clusterOfCore w.core)).span
  w.access.isNone && w.unconf.isEmpty && w.enqs.isEmpty && w.ops.all w.mayStay
    && (match w.waybill with | [] => true | a :: _ => s.blocked w.uid a.op)
    && w.waybill.all (fun o => o.started || (match o.instr with | .spanRelSt .. => false | _ => true))
    && s.copies.all (fun c => c.wave != w.uid || (c.stopped && !c.dead)) && s.walks.all (fun k => k.wave != w.uid || (k.stopped && !k.dead))
    && !sp.entries.any (fun e => e.wave == w.uid) && !sp.pass.any (fun e => e.wave == w.uid) && sp.owner != some w.uid
    && !s.ioWrites.any (fun x => x.wave == w.uid)

/-- A wave whose lanes a debugger has stopped, or any wave of a full save, is written whole (R379, R382, R384). -/
def Gang.whole (g : Gang) (w : Wave) : Bool := g.full || w.paths.any (fun p => p.dbg)

/-- Paths that stand at trap points. -/
def pointPaths (m : Map TrapPoint) : List Path :=
  ((m.map (fun e => e.2)).eraseDups).map (fun t => t.path (maskOf (fun l => Map.find m l == some t)))

/-- What is kept of a wave. A full save keeps it as it was: the lanes of one that had reported go on at their trap points, stopped where a
debugger had stopped them, those that had returned or exited but for (R50, R289, R379); one inside its handler goes on there and keeps a
pended request (R382). -/
def Gang.keepWave (g : Gang) (w : Wave) : Wave :=
  if !g.whole w then { w with trap := { w.trap with preempt := false, taken := false } }
  else if w.trap.reported then
    { w with
      paths := (w.paths.map (fun (p : Path) => { p with lanes := p.lanes &&& w.trap.returned, halted := false })).filter
          (fun p => p.lanes != 0) ++ pointPaths (w.trap.pts.filter (fun e => w.live.getLsbD e.1 && !w.stoppedLanes.getLsbD e.1))
        ++ (pointPaths (w.trap.pts.filter (fun e => w.live.getLsbD e.1 && w.stoppedLanes.getLsbD e.1))).map
            (fun (p : Path) => { p with dbg := true })
      trap := { w.trap with
        inHandler := false, code := 0, cause := 0, pts := [], returned := 0, preempt := false, taken := false, reported := false } }
  else
    { w with
      paths := w.paths.map (fun (p : Path) => { p with halted := p.halted && w.trap.pend.isSome })
      trap := { w.trap with preempt := w.trap.preempt && w.trap.inHandler, taken := false } }

/-- A wave's part of the record; one that is saved whole, as it is to resume (R384). -/
def State.saveWave (s : State) (g : Gang) (w : Wave) : Except (Nat × Tr) State :=
  let base := s.ctlOf w
  if g.whole w then
    let v := g.keepWave w
    let beneath := if v.trap.inHandler then v.trap.pts else []
    let zero : List (Nat × List Byte) := [(0, List.replicate 4096 0)]
    s.saveParts w base (zero ++ v.ctlParts (trapPoints v.paths) ++ s.deviceParts w v.infoLow ++ [(0x220, pointBytes beneath)]
      ++ [(4096, w.rf.rows 0 w.budget)])
  else
    let blocks := (List.range 6).filter (fun m => w.spanHeld.getLsbD m)
    (s.deviceRead w base 4).bind fun r =>
      r.1.saveParts w base (s.deviceParts w (ofBytes r.2) ++ blocks.map (fun m => (4096 + 4096 * m, w.rf.rows (32 * m) 32)))

/-- Workgroup control data (R423). -/
def Workgroup.control (g : Workgroup) : List Byte :=
  (List.range 64).flatMap (fun n =>
    let b := g.bar n
    toBytes 2 b.expect ++ toBytes 2 b.count ++ toBytes 2 b.gen ++ toBytes 1 (if b.held then 1 else 0) ++ toBytes 9 0)

/-- The record's header (R384). -/
def State.saveHeader (s : State) (g : Gang) (b : Batch) (ws : List Wave) : List Byte :=
  let bit (w : Wave) : Nat := if w.trap.reported then
      2 ^ (16 * (match s.wg? w.wg with | some x => x.member | none => 0) + w.idx) else 0
  toBytes 4 (1 + (if g.full then 2 else 0) + 4 * b.desc.gang) ++ toBytes 4 b.seq ++ toBytes 4 g.num ++ toBytes 4 0
    ++ toBytes 8 (ws.foldl (fun n w => n + bit w) 0) ++ toBytes 8 s.tick ++ toBytes 224 0

/-- THE RECORD IS WRITTEN (R380 steps 7 and 8, R382). -/
def State.saveRecord (s : State) (g : Gang) (b : Batch) (ws : List Wave) : Except (Wave × Tr) State :=
  match ws with
  | [] => .ok s
  | w0 :: _ =>
    let base := b.desc.recordAt g.num
    let wgs := s.wgs.filter (fun x => x.gang == g.uid)
    let area (x : Workgroup) : Nat := 256 + x.member * b.desc.areaSize
    let pads := if g.full then wgs.flatMap (fun x =>
        [(area x, x.control), (area x + 1024, (List.range b.desc.scratchBytes).map (Map.get 0 x.scratch))])
      else []
    match s.saveParts w0 base ((0, s.saveHeader g b ws) :: pads) with
    | .error (_, t) => .error (w0, t)
    | .ok s1 => ws.foldlM (fun t w => match t.saveWave g w with
        | .ok x => .ok x
        | .error (_, e) => .error (w, e)) s1

/-- The turns of a wave that have arrived are its lanes' from now on: the order interlock keeps them while it is away (R262, R386). -/
def State.keepTurns (s : State) (w : Wave) : Wave :=
  { w with frags := w.frags.map (fun f => (f.1, { f.2 with turn := s.holdsTurn f.2 })) }

/-- SAVED (R379): the gang leaves its cores and re-enters its batch's queue; a GBAR.GRID that has completed lets it pass with the last
cluster (R308, R333). -/
def State.enterSaved (s : State) (g : Gang) (b : Batch) : State :=
  let mine := s.waves.filter (fun w => w.gang == g.uid)
  let wgs := s.wgs.filter (fun w => w.gang == g.uid)
  let kept : Kept := { waves := mine.map (fun w => g.keepWave (s.keepTurns w))
                       wgs := wgs.map (fun (w : Workgroup) => if g.full then w else { w with scratch := [], padBad := [] }) }
  let t := { s with waves := s.waves.filter (fun w => w.gang != g.uid), wgs := s.wgs.filter (fun w => w.gang != g.uid)
                    moved := s.moved ++ [g.uid] }
  let t := t.putGang { g with state := .saved, kept := some kept, since := s.tick, resident := 0, sliceOver := false }
  let t := match t.region? b.region with
    | some r => t.putRegion { r with preempts := r.preempts + 1 }
    | none => t
  let first := !t.gangs.any (fun x => x.batch == b.uid && x.state == .saved && x.num < g.num)
  let b1 := { b with release := b.release.map (fun r => { r with away := r.away ++ [g.uid] }) }
  (t.putBatch (if first then { b1 with headTick := s.tick, aged := false } else b1)).releaseLatches

/-- Uncorrectable data that a copy or walk of the gang met is taken now (R211, R218). -/
def State.deadOf (s : State) (gang : Nat) : Option Wave := s.waves.find? (fun w => w.gang == gang && (s.checkOf w).isSome)

/-- PREEMPT_DRAIN (R380): DRAINING begins once every wave has yielded; once the drain is complete the record is written and the
gang is SAVED. -/
def execPreemptDrain (gang : Nat) (s : State) : Out State :=
  match s.gang? gang with
  | none => .next s
  | some g =>
    match s.batch? g.batch with
    | none => .next s
    | some b =>
      if g.state == .requested || g.state == .handling then
        let stopped := b.desc.handler = 0 && s.gangAll gang (fun w => w.live == 0 || w.trap.taken || w.paths.any (fun p => p.dbg))
        let reported := s.waves.any (fun w => w.gang == gang && w.live != 0 && w.trap.reported)
        if !s.gangAll gang (fun w => w.live == 0) && (s.gangAll gang Wave.yielded || stopped) then .next (s.startDrain g !reported)
        else .next (s.settleHandling gang)
      else if g.state == .draining then
        match s.deadOf gang with
        | some w => .next (s.takeCheck w)
        | none =>
          let ws := s.waves.filter (fun w => w.gang == gang)
          let early := ws.filter (fun w => (w.access.isSome || !w.unconf.isEmpty) && w.mayRollback)
          let s1 := early.foldl (fun t w => t.putWave w.rollback) s
          if ws.all (fun w => w.live == 0) || !(s1.waves.filter (fun w => w.gang == gang)).all s1.drained then .next s1
          else
            let s2 := s1.landAll (fun x => x.spoke == g.core / 32 && (x.stage == 2 || x.l1 / 4 == g.core / 4)
              && (!x.frame || s1.waves.any (fun w => w.uid == x.wave && w.gang == gang)))
            match s2.saveRecord g b (s2.waves.filter (fun w => w.gang == gang)) with
            | .error (w, t) => .next (s2.saveFault w t 0 0 0)
            | .ok t => .next (t.enterSaved g b)
      else .next s

/-! ## The restore (R386) -/

/-- Bytes of the save area as the device reads them. -/
def State.deviceRange (s : State) (w : Wave) (va n : Nat) : Except (Nat × Tr) (State × List Byte) :=
  (chunks va (List.replicate n 0)).foldlM (fun (acc : State × List Byte) c =>
    (acc.1.deviceRead w c.1 c.2.length).map (fun r => (r.1, acc.2 ++ r.2))) (s, [])

/-- A wave that was saved whole: its registers are read from its area (R382, R386). Its paths and what the save engine holds of it are
those kept, which the record repeats (assumption log 52). -/
def State.loadWhole (s : State) (w : Wave) : Except (Nat × Tr) (State × Wave) :=
  let base := s.ctlOf w
  (s.deviceRange w base 0x5C8).bind fun c =>
    (c.1.deviceRange w ((base + 4096) % 2 ^ 64) (128 * w.budget)).map fun r =>
      (r.1, { w with rf := ctlRegsOf c.2 w.exist (w.rf.loadRows 0 w.exist r.2) })

/-- A workgroup's scratchpad in a full save, read from its area. -/
def State.loadPad (s : State) (ws : List Wave) (g : Workgroup) : Except (Wave × Tr) State :=
  match ws.find? (fun w => w.wg == g.uid) with
  | none => .ok s
  | some w =>
    match s.deviceRange w ((s.areaOf w + 1024) % 2 ^ 64) (s.descOf w).scratchBytes with
    | .ok r => .ok (r.1.putWg { g with padBad := [], scratch := r.2.zipIdx.foldl (fun m x => Map.put 0 m x.2 x.1) [] })
    | .error (_, e) => .error (w, e)

/-- A wave of a gang whose record is not FULL, at the entry of its handler: only what the device restores. One that a debugger stopped
was saved whole (R379). -/
def State.restoreWave (s : State) (w : Wave) : Except (Nat × Tr) (State × Wave) :=
  if w.paths.any (fun p => p.dbg) then s.loadWhole w
  else if w.live = 0 then .ok (s, w)
  else
    let base := s.ctlOf w + 4096
    let blocks := (List.range 6).filter (fun m => w.spanHeld.getLsbD m)
    let w0 := { w with
      rf := .zero
      paths := addPath (Path.at w.live (s.descOf w).handler) []
      bar := { w.bar with mask := [], ticket := [], gmask := 0, gticket := 0, kticket := 0 }
      trap := { w.trap with inHandler := true, code := 7, cause := 7, returned := 0, pend := none, preempt := false, taken := false
                            reported := false } }
    blocks.foldlM (fun (x : State × Wave) m =>
      (List.range 16).foldlM (fun (y : State × Wave) k =>
        (y.1.deviceRead w ((base + 4096 * m + 256 * k) % 2 ^ 64) 256).map (fun r =>
          (r.1, { y.2 with rf := y.2.rf.loadRows (32 * m + 2 * k) w.exist r.2 }))) x) (s, w0)

/-- What a gang's record gives back: after a full save everything, and after another the waves at the entry of their handlers. -/
def State.loadGang (s : State) (g : Gang) : Except (Wave × Tr) State :=
  let ws := s.waves.filter (fun w => w.gang == g.uid)
  let r : Except (Wave × Tr) State := ws.foldlM (fun (t : State) w =>
    match (if g.full then t.loadWhole w else t.restoreWave w) with
    | .ok r => .ok (r.1.putWave r.2)
    | .error (_, e) => .error (w, e)) s
  if g.full then r.bind (fun t => (s.wgs.filter (fun x => x.gang == g.uid)).foldlM (fun t x => t.loadPad ws x) t) else r

/-- GANG_RESTORE (R386): the waves resume as they were after a full save, and in their handlers after another. -/
def execGangRestore (gang : Nat) (s : State) : Out State :=
  match s.gang? gang with
  | none => .next s
  | some g =>
    if g.state != .restoring then .next s
    else
      match (s.putGang { g with state := .resident }).loadGang g with
      | .ok t => .next t
      | .error (w, e) => .next (s.saveFault w e 0 0 0)

/-! ## The watchdog (R389) -/

/-- WATCHDOG (R389): the node's resident time exceeds 1,024 times its region's WATCHDOG, 0 for none. -/
def execWatchdog (node : Nat) (s : State) : Out State :=
  match s.node? node with
  | none => .next s
  | some n =>
    let lim := s.effWatchdog n.region
    if lim = 0 || !n.running || n.resident ≤ 1024 * lim then .next s
    else
      let r := cpReport 0x25 0 [n.ring, n.slot] 0
      .next (((s.report r).failNode n 0x0A))

end Sys2Proof.Machine
end

