-- ==== Sys2Proof/Machine/Power.lean ====
section
/-! DEFINITION. The package power manager (R23, R328, R334), the clusters' clocks (R327) and the spokes' boost (R329 to R332). -/

namespace Sys2Proof.Machine

/-! ## Claims and places (R278, R330, R331) -/

/-- The flags of a header let a path start, as far as its WAIT says (R55). -/
def State.headerLets (s : State) (w : Wave) (p : Path) : Bool :=
  match s.codeWord w p.pc.toNat with
  | .ok (h, _) => (List.range 12).all (fun f => !(headerOf h).wait.getLsbD f || w.flagCount f == 0)
  | .error _ => false

/-- A path that has waited at a barrier word waits no more (R301, R305, R307): it goes on when its word issues again. -/
def State.waitOver (s : State) (w : Wave) (p : Path) : Bool :=
  p.clause.any (fun c => match (parseWord .user (c.words.getD c.idx 0)).val with
    | .barWait _ n => s.barOver w p n false
    | .barSync _ n _ => s.barOver w p n true
    | .pbarWait _ _ _ _ clu => p.phase.any (fun x => s.phaseOver w s.fresh clu x.1 x.2)
    | .gbarGrid _ => s.gbarOver w p false
    | .gbarGang _ => s.gbarOver w p true
    | _ => false)

/-- A path is ready (R278). -/
def State.pathReady (s : State) (w : Wave) (p : Path) : Bool :=
  (!p.waiting || s.waitOver w p) && !p.halted && !p.dbg && (p.clause.isSome || p.entry != 0 || s.headerLets w p)

/-- A cluster claims boost (R330, R360). -/
def State.claims (s : State) (cl : Nat) : Bool :=
  !(s.cluster cl).withdrawn
    && s.waves.any (fun w => w.core < 256 && clusterOfCore w.core == cl && s.running w && w.paths.any (s.pathReady w))
    && (s.gangsOn cl).all (fun g => s.effBoost (s.gangRegion g))

/-- The clusters of a spoke. -/
def clustersOf (spoke : Nat) : List Nat := (List.range 8).map (fun k => 8 * spoke + k)

/-- Claimants that take places: lowest RANK first, ties to the lower cluster (R331). -/
def State.byRank (s : State) (l : List Nat) : List Nat :=
  sortBy (fun x y => decide ((s.cluster x).rank < (s.cluster y).rank) || ((s.cluster x).rank == (s.cluster y).rank && decide (x < y))) l

/-- FREQSTEP of cluster `n` falls to a step: at once (R327), or when the calibration that holds it ends (R406). -/
def State.fall (s : State) (n k : Nat) (c : Cluster) : Cluster :=
  if (s.spoke (n / 8)).calBusy.getLsbD (n % 8) then { c with fallTo := min c.fallTo k } else { c with freq := min c.freq k }

/-- THE ADMISSION of a spoke (R330, R331): a cluster that claims no longer falls to step 0 and frees its place; in OPEN free
places are filled, or the whole set is ranked anew; elsewhere no place is held. -/
def State.admitPlaces (s : State) (spoke : Nat) (anew : Bool) : State :=
  let x := s.spoke spoke
  let claimants := (clustersOf spoke).filter s.claims
  let held := if anew then [] else claimants.filter (fun c => (s.cluster c).admitted)
  let set := if x.boost = .open then held ++ (s.byRank (claimants.filter (fun c => !held.contains c))).take (4 - held.length) else []
  let go (n : Nat) (c : Cluster) : Cluster :=
    if n / 8 ≠ spoke then c
    else if set.contains n then { c with admitted := true, riseTick := if c.admitted then c.riseTick else s.tick }
    else if claimants.contains n && x.boost != .open then { c with admitted := false }
    else s.fall n 0 { c with admitted := false }
  { s with clusters := s.clusters.zipIdx.map (fun c => go c.2 c.1), spokes := updAt s.spokes spoke (fun x => { x with rerank := false }) }

/-- Admission, the last of the events of a tick (R331). -/
def State.settleBoost (s : State) (spoke : Nat) : State := s.admitPlaces spoke (s.spoke spoke).rerank

/-- A cluster that holds a place takes its next step in this tick (R327), 4 ticks after the last; calibration holds the step (R406). -/
def State.riseDue (s : State) (cluster : Nat) : Bool :=
  let c := s.cluster cluster
  let sp := s.spoke (cluster / 8)
  c.admitted && sp.boost == .open && c.freq < 18 && c.riseTick + 4 ≤ s.tick && !sp.calBusy.getLsbD (cluster % 8)

/-- FREQ_STEP_RISE (R327): one step each 4 ticks. -/
def execFreqStepRise (cluster : Nat) (s : State) : Out State :=
  if s.riseDue cluster then
    .next (s.updCluster cluster (fun c => { c with freq := c.freq + 1, boosted := true, riseTick := s.tick }))
  else .next s

/-- BOOST_INTERVAL_END (R329 to R331): at the last tick of each interval of 400 ticks the permits are charged or refilled, the
spoke's state changes, and the places are ranked anew. A GBAR.GRID that must complete in this tick and a rise of this tick come first
(R331). The next interval's count of boosted clusters begins with its first tick (`State.tickOnce`). -/
def execBoostIntervalEnd (spoke : Nat) (s : State) : Out State :=
  let x := s.spoke spoke
  if s.tick < 400 * x.intervals + 399 || 8 ≤ spoke || s.batches.any (fun b => s.gridDue b && b.gbarDies.contains spoke)
      || (clustersOf spoke).any s.riseDue then .next s
  else
    let b := ((clustersOf spoke).filter (fun c => (s.cluster c).boosted)).length
    let budget := if 0 < b then x.budget - b else if x.refill = 7 then min 64 (x.budget + 1) else x.budget
    let refill := if 0 < b then 0 else if x.refill = 7 then 0 else x.refill + 1
    let boost : BoostState := match x.boost with
      | .open => if budget = 0 then .fall1 else .open
      | .fall1 => .dry
      | .dry => if 8 ≤ budget then .open else .dry
    let top := match boost with | .open => 18 | .fall1 => 8 | .dry => 0
    let t := s.updSpoke spoke (fun x => { x with budget := budget, refill := refill, boost := boost, intervals := x.intervals + 1 })
    let t := { t with clusters := t.clusters.zipIdx.map (fun (c : Cluster × Nat) =>
      if c.2 / 8 = spoke then t.fall c.2 top c.1 else c.1) }
    .next (t.admitPlaces spoke true)

/-! ## The power budget (R328) -/

/-- The cluster that an action takes: the highest RANK, ties to the higher number. -/
def State.topRank (s : State) (f : Cluster → Bool) : Option Nat :=
  let cs := (List.range 64).filter (fun n => s.populated (n / 8) && f (s.cluster n))
  (sortBy (fun x y => decide ((s.cluster y).rank < (s.cluster x).rank) || ((s.cluster x).rank == (s.cluster y).rank && decide (y < x)))
    cs).head?

/-- The power controller sets PASSC; a pass in progress runs on under the old value (R159). -/
def Cluster.setPass (c : Cluster) (n : Nat) : Cluster := { c with passTo := n, passc := if c.span.pass.isEmpty then n else c.passc }

/-- The first applicable action above the budget. -/
def State.curb (s : State) : State :=
  let did (t : State) (k n : Nat) : State := { t with power := { t.power with actions := (k, n) :: t.power.actions, calm := 0 } }
  match s.topRank (fun c => 0 < c.freq && !c.withdrawn) with
  | some n => did (s.updCluster n (fun c => s.fall n 0 { c with withdrawn := true, admitted := false })) 0 n
  | none => match s.topRank (fun c => c.passTo == 1) with
    | some n => did (s.updCluster n (fun c => c.setPass 2)) 1 n
    | none => match s.topRank (fun c => c.passTo == 2) with
      | some n => did (s.updCluster n (fun c => c.setPass 4)) 2 n
      | none => { s with power := { s.power with calm := 0 } }

/-- The most recent action is undone. -/
def State.uncurb (s : State) : State :=
  match s.power.actions with
  | [] => { s with power := { s.power with calm := 0 } }
  | (k, n) :: t =>
    let u := s.updCluster n (fun c =>
      if k = 0 then { c with withdrawn := false } else if k = 1 then c.setPass 1 else c.setPass 2)
    { u with power := { u.power with actions := t, calm := 0 } }

/-- The sustained budget the integrator configured, in milliwatts: from 45 W to 160 W (R23). -/
def sustainedMw : Nat := min 160000 (max 45000 Config.budgetMw)

/-- The budget in force (R23, R422): 250 W while the package sprints, which is the device's to say (assumption log 34), else the sustained
one; while PWR_LIMIT_N is low the configured floor, at least 45 W. -/
def State.powerBudget (s : State) : Nat :=
  if s.pins.pwrLimit then min sustainedMw (max 45000 Config.floorMw)
  else if Config.sprints s.freeCtr then 250000 else sustainedMw

/-- POWER_COMPARE (R328): each microsecond the package power, a free value, is held against the budget that is in force. -/
def execPowerCompare (s : State) : Out State :=
  if s.tick < 100 * (s.power.compared + 1) then .next s
  else
    let t := { s with freeCtr := s.freeCtr + 1, power := { s.power with compared := s.power.compared + 1 } }
    if s.powerBudget < Config.freePower s.freeCtr then .next t.curb
    else if 9 ≤ t.power.calm then .next t.uncurb
    else .next { t with power := { t.power with calm := t.power.calm + 1 } }

/-- PWR_LIMIT_N (R422): while it is low the floor budget applies. -/
def execPwrLimitN (asserted : Bool) (s : State) : Out State := .next { s with pins := { s.pins with pwrLimit := asserted } }

/-! ## Ballast (R334) -/

/-- A cluster has stopped issuing, words or span passes, in the 50 ns step that has just ended. -/
def State.stoppedNow (s : State) (cl : Nat) : Bool :=
  (s.cluster cl).span.pass.isEmpty && match (s.cluster cl).issued with
  | some t => t + 5 ≤ s.tick && s.tick < t + 10
  | none => false

/-- More than 8 clusters have stopped issuing within one 50 ns step. -/
def State.manyStopped (s : State) : Bool := 8 < ((List.range 64).filter s.stoppedNow).length

/-- Ballast of a cluster has its next step in this tick (R334): it begins on a stopped cluster when more than 8 have stopped in one
step, and goes on each 50 ns. -/
def State.ballastDue (s : State) (cluster : Nat) : Bool :=
  let c := s.cluster cluster
  if c.ballast != 0 then decide (c.ballastTick + 5 ≤ s.tick)
  else s.stoppedNow cluster && c.issued.any (fun t => decide (c.ballastTick ≤ t)) && s.manyStopped

/-- BALLAST_STEP (R334): it begins at eight eighths of the last issue rate, and falls by one eighth in each step after that. -/
def execBallastStep (cluster : Nat) (s : State) : Out State :=
  if s.ballastDue cluster then
    .next (s.updCluster cluster (fun c => { c with ballast := if c.ballast = 0 then 8 else c.ballast - 1, ballastTick := s.tick }))
  else .next s

end Sys2Proof.Machine
end

