-- ==== Sys2Proof/Machine/Background.lean ====
section
/-! DEFINITION. The background tasks of a spoke (R405 to R407) and what a die or a link reports of itself (R413, R422). Their energy
is charged to region 0 with that of the clusters (R361, `State.chargeTasks`); what they change but time is here (R406). A calibration holds
FREQSTEP, and PASSC actions take effect through it; the wait of accesses to a retraining channel is time (assumption log 91). -/

namespace Sys2Proof.Machine

/-- The always-on island of a spoke works (R11): the site is populated, its memory trained, and the package out of reset. -/
def State.island (s : State) (spoke : Nat) : Bool := s.populated spoke && !s.pins.reset && decide (0 < (s.spoke spoke).capacity)

/-- The next latitude of the run; see `State.choices`. -/
def State.choice (s : State) : Nat := s.choices.headD 0
def State.chosen (s : State) : State := { s with choices := s.choices.drop 1 }

/-- The patrol of the device memory reads its next unit in this tick (R405): 64 bytes in 8, 8 and 9 ticks in turn are 0.5 % of 153.6
GB/s, and 64 GiB in 89.5 s (assumption log 92). -/
def State.scrubDue (s : State) (spoke : Nat) : Bool :=
  let x := s.spoke spoke
  s.island spoke && decide (x.scrubTick + (if x.scrubAddr / 64 % 3 = 2 then 9 else 8) ≤ s.tick)

/-- The patrol of the SRAMs takes a step in this tick (R405): one in 53 ticks is at most 0.1 % of the cycles of an array (assumption log
92). -/
def State.sramDue (s : State) (spoke : Nat) : Bool := s.island spoke && decide ((s.spoke spoke).sramTick + 53 ≤ s.tick)

/-- PATROL_SCRUB (R391, R405, R406): the patrol reads the unit at its address, corrects or reports it, and moves on; a pass ends at
the end of the installed memory. Whether the unit is in error is not the model's to say: choice 1 finds a correctable error,
choice 2 an uncorrectable one. -/
def execPatrolScrub (spoke : Nat) (s : State) : Out State :=
  if !s.scrubDue spoke then .next s
  else
    let x := s.spoke spoke
    let pa := devBase + spokeSpan * spoke + x.scrubAddr
    let k := s.choice
    let s1 := s.chosen
    let s2 := if k = 2 && !s1.bad.contains (pa / 64) then { s1 with bad := s1.bad ++ [pa / 64] } else s1
    let s3 := if s2.bad.contains (pa / 64) then s2.reportBad spoke pa
      else if k = 1 then s2.count spoke 0x10
      else s2
    .next (s3.updSpoke spoke (fun x =>
      if x.scrubAddr + 64 < x.capacity then { x with scrubAddr := x.scrubAddr + 64, scrubTick := s.tick }
      else { x with scrubAddr := 0, scrubTick := s.tick, scrubPasses := (x.scrubPasses + 1) % 256 }))

/-- AN UNCORRECTABLE ERROR OF AN ARRAY of a spoke (R391): in a register, a word of a scratchpad, or a copy in a cache. Which, is not the
model's to say: `n` names it. -/
def State.spoil (s : State) (spoke n : Nat) : State :=
  let k := n / 3
  let ws := s.waves.filter (fun w => w.post.isNone && spokeOfCore w.core == spoke)
  let gs := s.wgs.filter (fun g => g.core / 32 == spoke)
  let at_ (p : Place) : Bool := match p with | .l1 c | .table c => c / 32 == spoke && decide (c < 256) | .l2 x => x == spoke
  match n % 3 with
  | 0 => match ws[k % ws.length]? with
    | some w =>
      let r := k / ws.length / 32
      let unit : RegId × Nat := if r < w.budget then (.v r, k / ws.length % 32) else (.s (r % 48), 0)
      s.putWave { w with rf := { w.rf with bad := w.rf.bad ++ [unit] } }
    | none => s
  | 1 => match gs[k % gs.length]? with
    | some g => s.putWg { g with padBad := g.padBad ++ [k / gs.length] }
    | none => s
  | _ =>
    let ls := s.lines.filter (fun l => at_ l.place)
    match ls[k % ls.length]? with
    | some l => { s with lines := s.lines.map (fun x => if x == l then { x with bad := true } else x) }
    | none => s

/-- SRAM_SCRUB (R391, R405, R406): the patrol goes to another unit of an array; the manual numbers neither the arrays nor their units.
Choice 1 finds a correctable error, choice 2 an uncorrectable one, which the next choice names and which is reported. -/
def execSramScrub (spoke : Nat) (s : State) : Out State :=
  if !s.sramDue spoke then .next s
  else
    let s1 := match s.choice with
      | 1 => s.chosen.count spoke 0x18
      | 2 => (s.chosen.spoil spoke s.chosen.choice).chosen.reportBad spoke 0
      | _ => s.chosen
    let unit := (Config.freeWord s.freeCtr).toNat
    .next { s1.updSpoke spoke (fun x => { x with sramUnit := unit, sramTick := s.tick }) with freeCtr := s.freeCtr + 1 }

/-- CALIBRATION (R405, R406): it begins on the cluster whose turn it is, 10 ms after that cluster's last, and the next such step
ends it; a fall of FREQSTEP that it has held takes effect. -/
def execCalibration (cluster : Nat) (s : State) : Out State :=
  let sp := cluster / 8
  let x := s.spoke sp
  let bit : BitVec 8 := (1 : BitVec 8) <<< (cluster % 8)
  if !s.island sp || 64 ≤ cluster then .next s
  else if x.calBusy.getLsbD (cluster % 8) then
    .next ((s.updSpoke sp (fun x => { x with calBusy := x.calBusy &&& ~~~bit })).updCluster cluster (fun c =>
      { c with freq := min c.freq c.fallTo, fallTo := 18 }))
  else if x.calNext = cluster % 8 && (s.cluster cluster).calTick + 1000000 ≤ s.tick then
    .next ((s.updSpoke sp (fun x => { x with calBusy := x.calBusy ||| bit, calNext := (x.calNext + 1) % 8 })).updCluster cluster
      (fun c => { c with calTick := s.tick }))
  else .next s

/-- RETRAINING (R405, R406): one channel of a spoke at a time, 100 ms after its last; the next such step ends it. -/
def execRetraining (spoke channel : Nat) (s : State) : Out State :=
  let x := s.spoke spoke
  let bit : BitVec 4 := (1 : BitVec 4) <<< channel
  if !s.island spoke || 4 ≤ channel then .next s
  else if x.retrain.getLsbD channel then .next (s.updSpoke spoke (fun x => { x with retrain := x.retrain &&& ~~~bit }))
  else if x.retrain = 0 && x.retrainTicks.getD channel 0 + 10000000 ≤ s.tick then
    .next (s.updSpoke spoke (fun x =>
      { x with retrain := bit, retrainTicks := updAt x.retrainTicks channel (fun _ => s.tick) }))
  else .next s

/-- AGING_MONITOR (R405, R407): each second the monitors are read; the margin and whether one has crossed its guard band are free
values, and the alert stays. -/
def execAgingMonitor (spoke : Nat) (s : State) : Out State :=
  let x := s.spoke spoke
  if !s.island spoke || s.tick < x.agingTick + 100000000 then .next s
  else
    let v := Config.freeWord s.freeCtr
    .next { s.updSpoke spoke (fun x =>
      { x with margin := v.toNat % 65536, agingAlert := x.agingAlert || v.getLsbD 16, agingTick := s.tick }) with
      freeCtr := s.freeCtr + 1 }

/-- TELEMETRY (R405): each millisecond a spoke sends 64 bytes, which the manual does not lay out. -/
def execTelemetry (spoke : Nat) (s : State) : Out State :=
  let x := s.spoke spoke
  if !s.island spoke || s.tick < x.telTick + 100000 then .next s
  else
    let r := s.freeBytes 64
    .next { r.1.updSpoke spoke (fun x => { x with telTick := s.tick }) with sent := s.sent ++ [.telemetry spoke r.2] }

/-- THERM_N (R422): a die rises above its junction limit or falls below it. -/
def execThermN (spoke : Nat) (hot : Bool) (s : State) : Out State :=
  if s.pins.reset then .next s else .next (s.updSpoke spoke (fun x => { x with hot := hot }))

/-- THERM_N is driven low while any die is above its limit (R422). -/
def State.thermLow (s : State) : Bool := (List.range 8).any (fun k => s.populated k && (s.spoke k).hot)

/-- PERST_N is driven low from reset until step 4 of R393 (R422), which a boot without an accepted slot never reaches (assumption log
93). -/
def State.perstLow (s : State) : Bool := s.pins.perst

/-- LINK_RETRY (R413): the adapter's retry corrects an error, which is counted; 8 names the hub's end. -/
def execLinkRetry (spoke : Nat) (s : State) : Out State := if s.pins.reset then .next s else .next (s.count spoke 0x40)

/-- DIE_BGSTAT (R407). -/
def State.bgstat (s : State) (spoke : Nat) : Nat :=
  let x := s.spoke spoke
  x.scrubPasses % 256 * 2 ^ 24 + (if x.capacity = 0 then 0 else min 100 (x.scrubAddr * 100 / x.capacity)) * 2 ^ 17
    + (if x.agingAlert then 2 ^ 16 else 0) + x.retrain.toNat * 2 ^ 12 + x.calBusy.toNat * 2 ^ 4

/-- PWR_BOOST (R332). -/
def State.pwrBoost (s : State) (spoke : Nat) : Nat :=
  let x := s.spoke spoke
  let mask (f : Nat → Bool) : Nat := (List.range 8).foldl (fun n c => if f (8 * spoke + c) then n + 2 ^ c else n) 0
  (match x.boost with | .open => 0 | .fall1 => 1 | .dry => 2) * 2 ^ 30 + mask (fun c => 0 < (s.cluster c).freq) * 2 ^ 22
    + mask s.claims * 2 ^ 14 + x.refill % 8 * 2 ^ 7 + x.budget % 128

end Sys2Proof.Machine
end

