-- ==== Sys2Proof/Machine/Crypto.lean ====
section
/-! DEFINITION. SHA-384 and the signature check of firmware images (R8, R394): ECDSA with SHA-384 over the 384-bit Brainpool curve of
RFC 5639; and the signature of attestation, over NIST P-384 (R408). The manual names the standards; their steps and constants are those of
FIPS 180-4, FIPS 186-5, SP 800-186 and RFC 5639 (assumption log 8). -/

namespace Sys2Proof.Machine

/-! ## SHA-384 -/

/-- A number in big-endian bytes. -/
def ofBig (b : List Byte) : Nat := b.foldl (fun n x => 256 * n + x.toNat) 0

def toBig (n x : Nat) : List Byte := (toBytes n x).reverse

/-- The initial hash value. -/
def shaInit : List Word64 :=
  [0xCBBB9D5DC1059ED8, 0x629A292A367CD507, 0x9159015A3070DD17, 0x152FECD8F70E5939,
   0x67332667FFC00B31, 0x8EB44A8768581511, 0xDB0C2E0D64F98FA7, 0x47B5481DBEFA4FA4]

/-- Words 0 to 15 of the round constants. -/
def shaK0 : List Word64 :=
  [0x428A2F98D728AE22, 0x7137449123EF65CD, 0xB5C0FBCFEC4D3B2F, 0xE9B5DBA58189DBBC,
   0x3956C25BF348B538, 0x59F111F1B605D019, 0x923F82A4AF194F9B, 0xAB1C5ED5DA6D8118,
   0xD807AA98A3030242, 0x12835B0145706FBE, 0x243185BE4EE4B28C, 0x550C7DC3D5FFB4E2,
   0x72BE5D74F27B896F, 0x80DEB1FE3B1696B1, 0x9BDC06A725C71235, 0xC19BF174CF692694]

/-- Words 16 to 31 of the round constants. -/
def shaK1 : List Word64 :=
  [0xE49B69C19EF14AD2, 0xEFBE4786384F25E3, 0x0FC19DC68B8CD5B5, 0x240CA1CC77AC9C65,
   0x2DE92C6F592B0275, 0x4A7484AA6EA6E483, 0x5CB0A9DCBD41FBD4, 0x76F988DA831153B5,
   0x983E5152EE66DFAB, 0xA831C66D2DB43210, 0xB00327C898FB213F, 0xBF597FC7BEEF0EE4,
   0xC6E00BF33DA88FC2, 0xD5A79147930AA725, 0x06CA6351E003826F, 0x142929670A0E6E70]

/-- Words 32 to 47 of the round constants. -/
def shaK2 : List Word64 :=
  [0x27B70A8546D22FFC, 0x2E1B21385C26C926, 0x4D2C6DFC5AC42AED, 0x53380D139D95B3DF,
   0x650A73548BAF63DE, 0x766A0ABB3C77B2A8, 0x81C2C92E47EDAEE6, 0x92722C851482353B,
   0xA2BFE8A14CF10364, 0xA81A664BBC423001, 0xC24B8B70D0F89791, 0xC76C51A30654BE30,
   0xD192E819D6EF5218, 0xD69906245565A910, 0xF40E35855771202A, 0x106AA07032BBD1B8]

/-- Words 48 to 63 of the round constants. -/
def shaK3 : List Word64 :=
  [0x19A4C116B8D2D0C8, 0x1E376C085141AB53, 0x2748774CDF8EEB99, 0x34B0BCB5E19B48A8,
   0x391C0CB3C5C95A63, 0x4ED8AA4AE3418ACB, 0x5B9CCA4F7763E373, 0x682E6FF3D6B2B8A3,
   0x748F82EE5DEFB2FC, 0x78A5636F43172F60, 0x84C87814A1F0AB72, 0x8CC702081A6439EC,
   0x90BEFFFA23631E28, 0xA4506CEBDE82BDE9, 0xBEF9A3F7B2C67915, 0xC67178F2E372532B]

/-- Words 64 to 79 of the round constants. -/
def shaK4 : List Word64 :=
  [0xCA273ECEEA26619C, 0xD186B8C721C0C207, 0xEADA7DD6CDE0EB1E, 0xF57D4F7FEE6ED178,
   0x06F067AA72176FBA, 0x0A637DC5A2C898A6, 0x113F9804BEF90DAE, 0x1B710B35131C471B,
   0x28DB77F523047D84, 0x32CAAB7B40C72493, 0x3C9EBE0A15C9BEBC, 0x431D67C49C100D4C,
   0x4CC5D4BECB3E42B6, 0x597F299CFC657E2A, 0x5FCB6FAB3AD6FAEC, 0x6C44198C4A475817]

def shaK : List Word64 := shaK0 ++ shaK1 ++ shaK2 ++ shaK3 ++ shaK4

/-- The four functions of rotations. -/
def bigSigma0 (x : Word64) : Word64 := x.rotateRight 28 ^^^ x.rotateRight 34 ^^^ x.rotateRight 39
def bigSigma1 (x : Word64) : Word64 := x.rotateRight 14 ^^^ x.rotateRight 18 ^^^ x.rotateRight 41
def smallSigma0 (x : Word64) : Word64 := x.rotateRight 1 ^^^ x.rotateRight 8 ^^^ x >>> 7
def smallSigma1 (x : Word64) : Word64 := x.rotateRight 19 ^^^ x.rotateRight 61 ^^^ x >>> 6

/-- One round on the eight working words. -/
def shaRound (v : List Word64) (k w : Word64) : List Word64 :=
  let at_ (n : Nat) : Word64 := v.getD n 0
  let ch := (at_ 4 &&& at_ 5) ^^^ (~~~(at_ 4) &&& at_ 6)
  let maj := (at_ 0 &&& at_ 1) ^^^ (at_ 0 &&& at_ 2) ^^^ (at_ 1 &&& at_ 2)
  let t1 := at_ 7 + bigSigma1 (at_ 4) + ch + k + w
  [t1 + bigSigma0 (at_ 0) + maj, at_ 0, at_ 1, at_ 2, at_ 3 + t1, at_ 4, at_ 5, at_ 6]

/-- The rounds of a block; `w` are the next 16 words of its message schedule. -/
def shaRounds : List Word64 → List Word64 → List Word64 → List Word64
  | [], _, v => v
  | k :: ks, w, v =>
    let next := smallSigma1 (w.getD 14 0) + w.getD 9 0 + smallSigma0 (w.getD 1 0) + w.getD 0 0
    shaRounds ks (w.drop 1 ++ [next]) (shaRound v k (w.getD 0 0))

/-- A block of 128 bytes enters the hash value. -/
def shaBlock (h : List Word64) (b : List Byte) : List Word64 :=
  let w : List Word64 := (List.range 16).map (fun i => BitVec.ofNat 64 (ofBig ((b.drop (8 * i)).take 8)))
  (h.zip (shaRounds shaK w h)).map (fun x => x.1 + x.2)

/-- The message with its padding to whole blocks. -/
def shaPadded (m : List Byte) : List Byte :=
  m ++ 0x80 :: List.replicate ((239 - m.length % 128) % 128) 0 ++ toBig 16 (8 * m.length)

/-- The blocks of a message of `n` blocks, one after the other. -/
def shaBlocks : Nat → List Byte → List Word64 → List Word64
  | 0, _, h => h
  | n + 1, b, h => shaBlocks n (b.drop 128) (shaBlock h (b.take 128))

/-- SHA-384 OF A BYTE STRING, 48 bytes. -/
def sha384 (m : List Byte) : List Byte :=
  let b := shaPadded m
  ((shaBlocks (b.length / 128) b shaInit).take 6).flatMap (fun x => toBig 8 x.toNat)

/-! ## Curves over prime fields of 384 bits -/

/-- A curve: the prime of the field, the order of the group, the coefficients, and the base point. -/
structure Curve where
  p : Nat
  n : Nat
  a : Nat
  b : Nat
  gx : Nat
  gy : Nat
  deriving DecidableEq, Repr

/-- brainpoolP384r1, of RFC 5639 (R8, R394). -/
def brainpool : Curve :=
  { p := 0x8CB91E82A3386D280F5D6F7E50E641DF152F7109ED5456B412B1DA197FB71123ACD3A729901D1A71874700133107EC53
    n := 0x8CB91E82A3386D280F5D6F7E50E641DF152F7109ED5456B31F166E6CAC0425A7CF3AB6AF6B7FC3103B883202E9046565
    a := 0x7BC382C63D8C150C3C72080ACE05AFA0C2BEA28E4FB22787139165EFBA91F90F8AA5814A503AD4EB04A8C7DD22CE2826
    b := 0x04A8C7DD22CE28268B39B55416F0447C2FB77DE107DCD2A62E880EA53EEB62D57CB4390295DBC9943AB78696FA504C11
    gx := 0x1D1C64F068CF45FFA2A63A81B7C13F6B8847A3E77EF14FE3DB7FCAFE0CBD10E8E826E03436D646AAEF87B2E247D4AF1E
    gy := 0x8ABE1D7520F9C2A45CB1EB8E95CFD55262B70B29FEEC5864E19C054FF99129280E4646217791811142820341263C5315 }

/-- NIST P-384, of SP 800-186 (R8, R408). -/
def nist : Curve :=
  { p := 0xFFFFFFFFFFFFFFFFFFFFFFFFFFFFFFFFFFFFFFFFFFFFFFFFFFFFFFFFFFFFFFFEFFFFFFFF0000000000000000FFFFFFFF
    n := 0xFFFFFFFFFFFFFFFFFFFFFFFFFFFFFFFFFFFFFFFFFFFFFFFFC7634D81F4372DDF581A0DB248B0A77AECEC196ACCC52973
    a := 0xFFFFFFFFFFFFFFFFFFFFFFFFFFFFFFFFFFFFFFFFFFFFFFFFFFFFFFFFFFFFFFFEFFFFFFFF0000000000000000FFFFFFFC
    b := 0xB3312FA7E23EE7E4988E056BE3F82D19181D9C6EFE8141120314088F5013875AC656398D8A2ED19D2A85C8EDD3EC2AEF
    gx := 0xAA87CA22BE8B05378EB1C71EF320AD746E1D3B628BA79B9859F741E082542A385502F25DBF55296C3A545E3872760AB7
    gy := 0x3617DE4A96262C6F5D9E98BF9292DC29F8F41DBD289A147CE9DA3113B5F0B8C00A60B1CE1D7E819D7A431D7C90EA0E5F }

/-- A power modulo `m`, by squares; the first argument bounds the bits of the exponent. -/
def powMod (m : Nat) : Nat → Nat → Nat → Nat
  | 0, _, _ => 1 % m
  | k + 1, x, e => (if e % 2 = 1 then x else 1) * powMod m k (x * x % m) (e / 2) % m

/-- The inverse modulo a prime of at most 384 bits. -/
def invMod (m x : Nat) : Nat := powMod m 384 (x % m) (m - 2)

/-- A point of the curve; none is the point at infinity. -/
abbrev CurvePoint := Option (Nat × Nat)

/-- The third point on a line of slope `l` through two points, mirrored. -/
def chord (c : Curve) (l x1 y1 x2 : Nat) : CurvePoint :=
  let x3 := (l * l + 2 * c.p - x1 - x2) % c.p
  some (x3, (l * (x1 + c.p - x3) + c.p - y1) % c.p)

/-- The sum of two points. -/
def addPoints (c : Curve) : CurvePoint → CurvePoint → CurvePoint
  | none, q => q
  | p, none => p
  | some (x1, y1), some (x2, y2) =>
    if x1 ≠ x2 then chord c ((y2 + c.p - y1) * invMod c.p (x2 + c.p - x1) % c.p) x1 y1 x2
    else if (y1 + y2) % c.p = 0 then none
    else chord c ((3 * x1 * x1 + c.a) * invMod c.p (2 * y1) % c.p) x1 y1 x2

/-- A multiple of a point, by doubling; the first argument bounds the bits of the factor. -/
def mulPoint (c : Curve) : Nat → Nat → CurvePoint → CurvePoint
  | 0, _, _ => none
  | k + 1, n, q => addPoints c (if n % 2 = 1 then q else none) (mulPoint c k (n / 2) (addPoints c q q))

/-- The point is on the curve. -/
def onCurve (c : Curve) (x y : Nat) : Bool :=
  x < c.p && y < c.p && y * y % c.p == (x * x * x + c.a * x + c.b) % c.p

/-- THE SIGNATURE CHECK (R394): `key` is 0x04, X and Y, `sig` is r and s, each 48 bytes big-endian; the signed bytes are hashed with
SHA-384. -/
def sigOk (key msg sig : List Byte) : Bool :=
  let x := ofBig ((key.drop 1).take 48)
  let y := ofBig ((key.drop 49).take 48)
  let r := ofBig (sig.take 48)
  let t := ofBig ((sig.drop 48).take 48)
  let inv := invMod brainpool.n t
  let u1 := ofBig (sha384 msg) * inv % brainpool.n
  let u2 := r * inv % brainpool.n
  key.headD 0 == 4 && onCurve brainpool x y && 0 < r && r < brainpool.n && 0 < t && t < brainpool.n
    && (match addPoints brainpool (mulPoint brainpool 384 u1 (some (brainpool.gx, brainpool.gy)))
          (mulPoint brainpool 384 u2 (some (x, y))) with
      | some p => p.1 % brainpool.n == r
      | none => false)

/-- A SIGNATURE OF THE DEVICE (R8, R408): ECDSA over P-384 with SHA-384, by a private key and the number that FIPS 186-5 draws for each
message; r and s, each 48 bytes big-endian. -/
def sign (key draw : Nat) (msg : List Byte) : List Byte :=
  let k := 1 + draw % (nist.n - 1)
  let r := match mulPoint nist 384 k (some (nist.gx, nist.gy)) with
    | some p => p.1 % nist.n
    | none => 0
  let t := invMod nist.n k * (ofBig (sha384 msg) + r * key) % nist.n
  toBig 48 r ++ toBig 48 t

end Sys2Proof.Machine
end

