-- ==== Sys2Proof/Machine/Readback.lean ====
section
/-! DEFINITION. The readback window (R401 to R404): the items of its groups, and the snapshot. -/

namespace Sys2Proof.Machine

/-- A count that saturates at its largest value (R404). -/
def satBytes (n x : Nat) : List Byte := toBytes n (min x (2 ^ (8 * n) - 1))

/-- An item: its length, and its fields by their offset in the buffer. -/
structure Item where
  len : Nat
  fields : List (Nat × List Byte)
  deriving DecidableEq, Repr

/-- An index that does not exist (R403). -/
def Item.none : Item := { len := 0, fields := [] }

/-- The bytes of an item: those no field names are 0. -/
def Item.bytes (x : Item) : List Byte := x.fields.foldl (fun b f => patch 0x10 b f.1 f.2) (List.replicate x.len 0)

/-- HUB_RING_CTL (R417). -/
def Ring.ctl (r : Ring) : Nat := (if r.bound then 2 ^ 31 else 0) + r.sizeLog % 16 * 2 ^ 24 + r.ctx % 65536

/-- HUB_FR_CTL (R418). -/
def FaultRing.ctl (r : FaultRing) : Nat := (if r.enable then 2 ^ 31 else 0) + r.sizeLog % 32

/-- Group 0x01. The command processor reads a slot as a doorbell passes it, so the next it reads is the head. -/
def State.ringItem (s : State) (i : Nat) : Item :=
  if 64 ≤ i then .none
  else
    let r := s.ring i
    let marks := (List.range (r.size / 8)).map (fun k =>
      BitVec.ofNat 8 ((List.range 8).foldl (fun n b => if r.submitted.contains (8 * k + b) then n + 2 ^ b else n) 0))
    { len := 0x20 + r.size / 8
      fields := [(0x10, toBytes 4 r.ctl), (0x14, toBytes 4 r.head), (0x18, toBytes 8 r.base), (0x20, toBytes 4 r.head),
        (0x24, satBytes 4 r.discards), (0x28, satBytes 4 r.ctlDiscards), (0x30, marks)] }

/-- Group 0x02: by place in the table of running nodes. -/
def State.nodeItem (s : State) (i : Nat) : Item :=
  if 1024 ≤ i then .none
  else match s.nodes.find? (fun n => n.running && n.place == i) with
    | none => { len := 0x2C, fields := [] }
    | some n =>
      { len := 0x2C
        fields := [(0x10, toBytes 4 (1 + 3 * 2 ^ 4 + n.ring % 64 * 2 ^ 8)), (0x14, toBytes 4 n.slot), (0x18, toBytes 6 n.spawn),
          (0x20, toBytes 4 n.nextSeq), (0x24, toBytes 2 n.region), (0x26, toBytes 2 n.ctx), (0x28, satBytes 8 n.resident),
          (0x30, toBytes 8 n.tStart), (0x38, toBytes 4 (s.passes.filter (fun p => p.node == n.uid)).length)] }

/-- The effective RGN_CTL (R357, R358). -/
def State.effCtl (s : State) (r : Nat) : Nat :=
  let x := s.regionOr r
  (if x.valid then 1 else 0) + s.effPrio r % 8 * 2 + (if s.effBoost r then 16 else 0) + (if x.faultDomain then 32 else 0)

/-- Group 0x03. A kill is done in one step, so none is ever in progress. -/
def State.regionItem (s : State) (i : Nat) : Item :=
  match s.region? i with
  | none => { len := 0x2C, fields := [] }
  | some x =>
    { len := 0x2C
      fields := [(0x10, toBytes 4 (s.effCtl i)), (0x14, toBytes 2 (s.effCores i)), (0x16, toBytes 2 (s.effScratch i)),
        (0x18, toBytes 4 (s.effEnq i)), (0x1C, toBytes 4 (s.effEnergy i)), (0x20, toBytes 4 (s.effSlice i)),
        (0x24, toBytes 4 (s.effWatchdog i)), (0x28, satBytes 8 (s.windowCharge i)), (0x30, satBytes 2 (s.liveCores i)),
        (0x32, satBytes 2 (s.liveScratch i)), (0x34, satBytes 4 (s.liveWgs i)),
        (0x38, toBytes 4 (1 + (if s.regionBad x.num then 2 else 0) + (if x.capped then 4 else 0)))] }

/-- Group 0x04. -/
def State.ctxItem (s : State) (i : Nat) : Item :=
  let gangs := (s.gangs.filter (fun g => g.onCores && (match s.node? g.node with | some n => n.ctx == i | none => false))).length
  let rej := if s.rejected.contains i then 2 else 0
  match s.ctx? i with
  | none => { len := 0x1A, fields := [(0x10, toBytes 4 rej), (0x14, satBytes 4 gangs)] }
  | some c =>
    { len := 0x1A
      fields := [(0x10, toBytes 4 (1 + rej)), (0x14, satBytes 4 gangs), (0x18, toBytes 8 (10 * 2 ^ 60 + c.root / 4096)),
        (0x20, c.bind), (0x28, toBytes 2 c.region)] }

/-- Group 0x05. -/
def State.boostItem (s : State) (i : Nat) : Item :=
  if 8 ≤ i || !s.populated i then .none
  else
    { len := 0x48
      fields := (0x10, toBytes 4 (s.pwrBoost i)) :: (0x14, toBytes 4 (if (s.spoke i).gated then 1 else 0)) ::
        (List.range 8).map (fun k =>
          let c := s.cluster (8 * i + k)
          (0x18 + 8 * k, toBytes 1 c.freq ++ toBytes 1 c.passc ++ toBytes 2 0 ++ toBytes 4 (c.lateSum + c.rank * 2 ^ 16))) }

/-- PSTATE (R404). -/
def GangState.code : GangState → Nat
  | .resident => 0 | .requested => 1 | .handling => 2 | .draining => 3 | .saved => 4 | .restoring => 5

/-- The place of a node in the table of running nodes. -/
def State.placeOf (s : State) (node : Nat) : Nat := match s.node? node with | some n => n.place | none => 0

/-- A workgroup entry of group 0x06. -/
def State.wgEntry (s : State) (g : Workgroup) : List Byte :=
  match s.gang? g.gang with
  | none => toBytes 32 0
  | some x =>
    let b := s.batch? x.batch
    toBytes 4 (match b with | some b => b.seq | none => 0) ++ toBytes 4 g.lid ++ toBytes 2 (s.placeOf x.node)
      ++ toBytes 1 (g.member + 4 * (match b with | some b => b.desc.gang | none => 0)) ++ toBytes 1 x.state.code
      ++ toBytes 1 g.waves ++ toBytes 1 (s.wgScratch g) ++ toBytes 2 (s.gangRegion x) ++ toBytes 16 0

/-- Group 0x06: the workgroups of a core and its open barrier entries. -/
def State.gangItem (s : State) (i : Nat) : Item :=
  if 256 ≤ i || !s.populated (i / 32) then .none
  else
    let gs := s.wgs.filter (fun g => g.core == i)
    let bars := gs.zipIdx.flatMap (fun g => (g.1.bars.filter (fun b => b.2.held)).map (fun b =>
      toBytes 8 (1 + g.2 % 64 * 2 + b.1 % 64 * 2 ^ 8 + b.2.expect % 32 * 2 ^ 16 + b.2.count % 32 * 2 ^ 24 + b.2.gen % 65536 * 2 ^ 32)))
    { len := 0xA10
      fields := (0x10, toBytes 4 gs.length) :: (0x20, gs.flatMap s.wgEntry) :: [(0x820, bars.flatten)] }

/-- The address of the checkpoint word (R372): the access it stands at, or the word the wave would issue next. -/
def State.checkpointAt (w : Wave) : Word64 :=
  let next (ps : List Path) : Word64 := match ps.find? (fun p => (lowestLane w.live).any (fun l => p.lanes.getLsbD l)) with
    | some p => p.trapPoint.pc
    | none => 0
  match w.access, w.ckpt with
  | some a, _ => a.addr
  | none, some c => next c.paths
  | none, none => next w.paths

/-- A wave entry of group 0x07, with its offset. -/
def State.waveEntry (s : State) (w : Wave) : List (Nat × List Byte) :=
  let o := 256 * w.slot
  let info := 1 + (if w.trap.inHandler then 2 else 0) + (if w.paths.any (fun p => p.dbg) then 4 else 0) + w.waybill.length % 16 * 2 ^ 4
    + w.tokMask * 2 ^ 8
  let id := s.identOf w
  [ (0x10 + o, toBytes 4 info ++ toBytes 4 (id.getD 1 0) ++ toBytes 4 (id.getD 2 0) ++ toBytes 1 w.idx ++ toBytes 1 w.budget
      ++ toBytes 2 (s.placeOf w.node) ++ toBytes 8 (State.checkpointAt w).toNat ++ toBytes 8 w.flagWord)
  , (0x90 + o, (w.waybill.take 8).flatMap (s.summary w)) ]

/-- Group 0x07. -/
def State.waveItem (s : State) (i : Nat) : Item :=
  if 256 ≤ i || !s.populated (i / 32) then .none
  else { len := 0x4000, fields := (s.waves.filter (fun w => w.core == i && w.slot < 64)).flatMap s.waveEntry }

/-- The core that a waiter of an entry waits on. -/
def State.waiterCore (s : State) (f : Filter) (x : Nat × Nat) : Nat :=
  match s.wave? x.1 with
  | some w => w.core
  | none => f.cores.headD 0

/-- What one core's entry holds of a merged one: its own waiters and kinds of access (R352). -/
def State.coreEntry (s : State) (core : Nat) (f : Filter) : Filter :=
  { f with waiters := f.waiters.filter (fun x => s.waiterCore f x == core), access := Map.get 0 f.kinds core }

/-- A filter entry of group 0x08. -/
def Filter.entry (core : Nat) (f : Filter) : List Byte :=
  toBytes 4 (1 + (if f.rep then 2 else 0) + (if f.iter.isSome then 4 else 0) + f.cause % 256 * 2 ^ 16) ++ toBytes 4 f.id
    ++ toBytes 8 f.page ++ toBytes 2 f.ctx ++ satBytes 2 f.count ++ toBytes 1 f.access ++ toBytes 1 core
    ++ toBytes 10 0

/-- Group 0x08: the open entries of a cluster, and each core's own. A core's entry is merged when it opens. -/
def State.faultItem (s : State) (i : Nat) : Item :=
  if 64 ≤ i || !s.populated (i / 8) then .none
  else
    let fs := s.filters.filter (fun f => !f.replayed)
    { len := 0xC00
      fields := ((List.range 4).map (fun c =>
          (0x10 + 512 * c, ((fs.filter (fun f => f.cores.contains (4 * i + c))).take 16).flatMap (fun f =>
            (s.coreEntry (4 * i + c) f).entry (4 * i + c)))))
        ++ [(0x810, ((fs.filter (fun f => f.cluster == i)).take 32).flatMap (fun f => f.entry (s.firstCore f)))] }

/-- The value of a counter (R404). -/
def State.counter (s : State) (unit off : Nat) : Nat :=
  if unit < 8 then Map.get 0 (s.spoke unit).counters off else Map.get 0 s.hub.counters off

/-- Group 0x09. How many lines the L2 compresses is not the model's to say (R188). -/
def State.counterItem (s : State) (i : Nat) : Item :=
  if 9 ≤ i || (i < 8 && !s.populated i) then .none
  else
    let l2 (k : Nat) : Nat := if i < 8 then (Config.freeWord (s.freeCtr + k)).toNat else 0
    { len := 0x70
      fields := [0x10, 0x18, 0x20, 0x28].map (fun o => (o, satBytes 8 (s.counter i o)))
        ++ [(0x30, satBytes 8 (l2 0)), (0x38, satBytes 8 (l2 1))]
        ++ [0x40, 0x48, 0x50, 0x58, 0x60, 0x68, 0x70, 0x78].map (fun o => (o, satBytes 8 (s.counter i o))) }

/-- Group 0x0A. -/
def State.backgroundItem (s : State) (i : Nat) : Item :=
  if 8 ≤ i || !s.populated i then .none
  else
    let x := s.spoke i
    { len := 0x48
      fields := [(0x10, toBytes 4 (s.bgstat i)), (0x18, toBytes 8 (devBase + spokeSpan * i + x.scrubAddr)), (0x20, toBytes 4 x.sramUnit),
        (0x24, toBytes 4 (x.calNext % 8)), (0x28, x.retrainTicks.flatMap (toBytes 8)), (0x48, toBytes 4 (x.margin % 65536)),
        (0x50, toBytes 8 x.capacity)] }

/-- An item by group and index (R402, R404). -/
def State.item (s : State) (group index : Nat) : Item :=
  match group with
  | 1 => s.ringItem index
  | 2 => s.nodeItem index
  | 3 => s.regionItem index
  | 4 => s.ctxItem index
  | 5 => s.boostItem index
  | 6 => s.gangItem index
  | 7 => s.waveItem index
  | 8 => s.faultItem index
  | 9 => s.counterItem index
  | 10 => s.backgroundItem index
  | _ => .none

/-- HUB_SNAP (R403): the item is copied as it stands at this tick; a write while a copy is in progress is discarded. -/
def State.snapStart (s : State) (group index : Nat) : State :=
  match s.snap.copying with
  | some _ => s
  | none =>
    let x := s.item group index
    let head := toBytes 8 s.tick ++ toBytes 1 group ++ toBytes 1 0 ++ toBytes 2 index ++ toBytes 4 x.len
    { s with
      snap := { s.snap with group := group, index := index, copying := some (s.tick, head ++ x.bytes) }
      freeCtr := s.freeCtr + 2 }

def execHubSnap (value : BitVec 32) (s : State) : Out State :=
  if s.pins.reset then .next s else .next (s.snapStart (value.toNat / 65536 % 256) (value.toNat % 65536))

/-- SNAP_COPY_DONE (R403): the buffer holds the new snapshot, and BUSY clears. -/
def execSnapCopyDone (s : State) : Out State :=
  match s.snap.copying with
  | none => .next s
  | some (_, b) => .next { s with snap := { s.snap with copying := none, buf := b } }

end Sys2Proof.Machine
end

