-- ==== Sys2Proof/Machine/Firmware.lean ====
section
/-! DEFINITION. Firmware: the boot, image slots and their checks (R393 to R395), FW_STATUS and the firmware commands (R396 to R398),
the recovery mailbox and the slot-write window (R399, R400), the restart of the postilions (R392), attestation (R408) and the package
reset (R422). -/

namespace Sys2Proof.Machine

/-! ## The flash and its slots (R394, R395) -/

/-- Where a slot begins: A at 0, B 16 MiB on. -/
def slotBase (b : Bool) : Nat := if b then 2 ^ 24 else 0

/-- Bytes of a slot. -/
def State.flashBytes (s : State) (b : Bool) (o n : Nat) : List Byte :=
  (List.range n).map (fun i => Map.get 0 s.board.flash (slotBase b + o + i))

/-- A read of a slot's bytes ends in an uncorrectable error. -/
def State.flashErr (s : State) (b : Bool) (o n : Nat) : Bool :=
  s.board.flashBad.any (fun x => slotBase b + o ≤ x && x < slotBase b + o + n)

def State.slotNum (s : State) (b : Bool) (o n : Nat) : Nat := ofBytes (s.flashBytes b o n)

/-- EPOCH of a slot. -/
def State.epoch (s : State) (b : Bool) : Nat := s.slotNum b 4 4 / 2 ^ 24

/-- The first failure among the checks that need only the header, or 0. -/
def State.headerReason (s : State) (b : Bool) : Nat :=
  let size := s.slotNum b 8 4
  let zero (o n : Nat) : Bool := (s.flashBytes b o n).all (fun x => x == 0)
  if s.slotNum b 0 4 ≠ 0x57465A4B then 0x01
  else if size % 4096 ≠ 0 || size < 4096 || 0x00FFF000 < size then 0x02
  else if !(zero 0x0C 4 && zero 0x40 64 && zero 0xE1 31 && zero 0x160 160) then 0x08
  else if sha384 (s.flashBytes b 0x80 97) ≠ s.board.keyHash then 0x03
  else if !sigOk (s.flashBytes b 0x80 97) (s.flashBytes b 0 0x100) (s.flashBytes b 0x100 96) then 0x04
  else 0

/-- The reason code of a slot (R395): a read error ends the checks at once. -/
def State.slotReason (s : State) (b : Bool) : Nat :=
  if s.flashErr b 0 512 then 0x07
  else if s.headerReason b ≠ 0 then s.headerReason b
  else
    let size := s.slotNum b 8 4
    if s.flashErr b 512 size then 0x07
    else if sha384 (s.flashBytes b 512 size) ≠ s.flashBytes b 0x10 48 then 0x05
    else if s.epoch b < s.board.floor then 0x06
    else 0

/-- VERSION as the choice of the preferred slot sees it (R395). -/
def State.slotVersion (s : State) (b : Bool) : Nat :=
  if s.slotNum b 0 4 ≠ 0x57465A4B || s.flashErr b 0 512 then 0 else s.slotNum b 4 4

/-! ## The boot (R393) -/

/-- The slot that runs. -/
def State.runSlot (s : State) : Option Bool := if s.fw.state = 1 then some false else if s.fw.state = 2 then some true else none

/-- SHA-384 of the boot ROM (R400, R408). -/
def romHash : List Byte := (List.range 48).map Config.romHash

/-- The measurements of R408 in the order of their index; the manual does not lay out 4 and 5. -/
def State.measurements (s : State) : List (List Byte) :=
  let run := s.runSlot
  let other := match run with | some b => !b | none => !s.fw.pref
  [ romHash
  , (match run with
      | some b => sha384 (s.flashBytes b 0 (512 + s.slotNum b 8 4))
      | none => toBytes 48 0)
  , sha384 (s.flashBytes other 0 512)
  , toBytes 1 s.board.floor ++ s.board.keyHash
  , toBytes 1 (match s.variant with | .kz9 => 0 | .kz96 => 1)
      ++ toBytes 1 ((s.postSites.filter (fun k => k < 8)).foldl (fun n k => n + 2 ^ k) 0)
      ++ (List.range 8).flatMap (fun k => toBytes 8 (s.spoke k).capacity) ]

/-- Every spoke's cores are gated, its L2 written back first (R11, R393, R399). -/
def State.gateAll (s : State) : State :=
  let t := (List.range 8).foldl State.emptySpoke s
  { t with spokes := t.spokes.map (fun (x : Spoke) => { x with gated := true, ungating := false }) }

/-- The accepted body enters the firmware carve-out of pd0's memory (R393 step 4; assumption log 64). -/
def State.loadBody (s : State) (b : Bool) : State :=
  s.cpWrite (devBase + Config.fwCarve % spokeSpan) (s.flashBytes b 512 (s.slotNum b 8 4))

/-- STEPS 3 AND 4 OF R393 with a preferred slot: the slot that is accepted runs, its body is loaded, its postilions start, the command
processor opens and PERST_N is released (R422); when none is, STATE is RECOVERY and the cores are gated (R399). The log grows by the
measurements either way (assumption log 64). -/
def State.bootFrom (s : State) (pref : Bool) : State :=
  let first := s.slotReason pref
  let second := if first = 0 then 0 else s.slotReason (!pref)
  let run : Option Bool := if first = 0 then some pref else if second = 0 then some (!pref) else none
  let a := if pref then second else first
  let b := if pref then first else second
  let fw := { s.fw with
    state := match run with | some false => 1 | some true => 2 | none => 3
    pref := pref, reasonA := a, reasonB := b }
  let t := { s with fw := fw, waves := s.waves.filter (fun w => w.post.isNone), posts := Post.resets }
  let t := { t with fw := { t.fw with log := t.fw.log ++ t.measurements.flatten } }
  match run with
  | some b => State.startPosts { t.loadBody b with pins := { t.pins with perst := false } }
  | none => t.gateAll

/-- The ROM ends a boot or reboot in progress, in its own time (R393, R397). -/
def State.endBoot (s : State) : State := if s.pins.reset || !s.booting then s else s.bootFrom s.fw.pref

/-- RESET_RELEASE (R393, R422): training fixes each populated spoke's capacity (R344), and the boot runs: STATE is BOOTING until its steps
3 and 4 end with `State.endBoot`. -/
def execResetRelease (s : State) : Out State :=
  if !s.pins.reset then .next s
  else
    let t := { s with
      pins := { s.pins with reset := false }
      spokes := s.spokes.zipIdx.map (fun (x : Spoke × Nat) =>
        if s.populated x.2 then { x.1 with capacity := min spokeSpan (4 * Config.density x.2) } else x.1) }
    .next { t with fw := { t.fw with state := 0, pref := decide (t.slotVersion false < t.slotVersion true) } }

/-- PACKAGE_RESET (R422, R398): everything is cleared but fuses and flash, and what is not the device's: its variant, a pin driven from
outside, and the model's own schedule and free values. A floor that a waiting command was raising is left at its old value or, for
choice 1, at its new one. -/
def execPackageReset (s : State) : Out State :=
  let raising : Bool := match s.fw.cmds, s.runSlot with
    | c :: _, some b => c.toNat % 16 == 2 && s.choice == 1 && decide (s.board.floor < s.epoch b) && decide (s.epoch b ≤ 127)
    | _, _ => false
  let floor := if raising then (match s.runSlot with | some b => s.epoch b | none => s.board.floor) else s.board.floor
  .next { State.reset with
    variant := s.variant, board := { s.board with floor := floor }, schedule := s.schedule, choices := s.choices, freeCtr := s.freeCtr
    pins := { State.reset.pins with pwrLimit := s.pins.pwrLimit } }

/-- A postilion has missed three heartbeats in a row (R392): 30 ms have passed since its heartbeat word was written or it started; one of a
gated spoke, which stands still, misses none (assumption log 102). -/
def State.silent (s : State) (post : Nat) : Bool :=
  s.postSites.contains post && (post == 8 || !(s.spoke post).gated)
    && decide ((s.posts.getD post (.reset post)).beat + 3000000 ≤ s.tick)

/-- POSTILION_RESTART (R392): the boot ROM restarts every postilion when one is silent. -/
def execPostilionRestart (post : Nat) (s : State) : Out State :=
  if s.runSlot.isSome && s.silent post then .next s.restartPosts else .next s

/-! ## Registers and commands (R396 to R398) -/

/-- FW_STATUS. -/
def State.fwStatus (s : State) : Nat :=
  (if s.fw.pref then 2 ^ 28 else 0) + s.board.floor % 128 * 2 ^ 20 + s.fw.state % 16 * 2 ^ 16
    + s.fw.reasonB % 256 * 2 ^ 8 + s.fw.reasonA % 256

/-- FW_CMDSTAT. -/
def State.fwCmdstat (s : State) : Nat := s.fw.cmdSeq % 65536 * 2 ^ 16 + s.fw.cmdResult % 16

/-- The OP of a firmware command is known. -/
def fwKnown (c : Word) : Bool := c.toNat % 16 == 1 || c.toNat % 16 == 2

/-- A firmware command is answered. -/
def Firmware.answer (fw : Firmware) (result : Nat) : Firmware :=
  { fw with cmds := fw.cmds.drop 1, cmdSeq := (fw.cmdSeq + 1) % 65536, cmdResult := result }

/-- Commands at the front whose OP is unknown are answered with 0x6. -/
def Firmware.settle (fw : Firmware) : Firmware := (fw.cmds.takeWhile (fun c => !fwKnown c)).foldl (fun f _ => f.answer 0x6) fw

/-- The oldest command is answered. -/
def State.fwAnswer (s : State) (result : Nat) : State := { s with fw := (s.fw.answer result).settle }

/-- A command is written to FW_CMD (R397). -/
def State.fwWrite (s : State) (c : Word) : State :=
  let fw := { s.fw with cmds := s.fw.cmds ++ [c] }
  { s with fw := fw.settle }

/-- BOOT_SLOT's answer (R397): the refusals, a latched context before the slot's own (assumption log 103), or STATE is REBOOTING with the
named slot preferred until `State.endBoot`, and every spoke's cores stay gated meanwhile (R393). -/
def State.bootSlot (s : State) (b : Bool) : State :=
  if s.booting then s.fwAnswer 0x5
  else if !s.ctxs.isEmpty then s.fwAnswer 0x3
  else
    let r := s.slotReason b
    if r = 0x06 then s.fwAnswer 0x1
    else if r ≠ 0 then s.fwAnswer 0x2
    else
      let t := s.fwAnswer 0x0
      State.gateAll { t with fw := { t.fw with state := 4, pref := b }, waves := t.waves.filter (fun w => w.post.isNone) }

/-- RAISE_FLOOR's answer (R398). -/
def State.raiseFloor (s : State) : State :=
  if s.booting then s.fwAnswer 0x5
  else match s.runSlot with
    | none => s.fwAnswer 0x4
    | some b =>
      if s.epoch b ≤ s.board.floor || 127 < s.epoch b then s.fwAnswer 0x4
      else { s with board := { s.board with floor := s.epoch b } }.fwAnswer 0x0

/-- A command is written and answered, or the oldest one that waits is; behind another it waits its turn (R397). -/
def State.fwCommand (s : State) (c : Word) (f : State → State) : State :=
  if s.pins.reset then s
  else match s.fw.cmds with
    | [] => f { s with fw := { s.fw with cmds := [c] } }
    | d :: _ => if d = c then f s else s.fwWrite c

/-- BOOT_SLOT (R397). -/
def execBootSlot (value : BitVec 32) (s : State) : Out State :=
  .next (s.fwCommand (value &&& 0x10 ||| 1) (fun t => t.bootSlot (value.getLsbD 4)))

/-- RAISE_FLOOR (R398). -/
def execRaiseFloor (value : BitVec 32) (s : State) : Out State := .next (s.fwCommand (value &&& 0x10 ||| 2) State.raiseFloor)

/-! ## The recovery mailbox (R399, R400) -/

/-- RM_BUSY. -/
def State.rmBusy (s : State) : Bool := s.booting || s.fw.req.isSome

/-- RM_STAT. -/
def State.rmStat (s : State) : Nat :=
  s.fw.rmSeq % 65536 * 2 ^ 16 + (if s.rmBusy then 2 ^ 15 else 0) + s.fw.rmReason % 256 * 2 ^ 4 + s.fw.rmResult % 16

/-- An answer of the recovery mailbox. -/
def State.rmAnswer (s : State) (result reason : Nat) (data : List Byte) : State :=
  { s with fw := { s.fw with
    req := none, rmSeq := (s.fw.rmSeq + 1) % 65536, rmResult := result, rmReason := reason, rmData := data } }

/-- A discarded mailbox request (R400, R421). -/
def State.mailDiscard (s : State) : State := s.count 8 0x78

/-- A request is answered when it is the one that waits, by its OP and SLOT, or when it finds the mailbox free; another, and any while the
device boots, is discarded and counted. -/
def State.request? (s : State) (req : Word) (f : State → State) : State :=
  if s.pins.reset then s
  else if s.booting then s.mailDiscard
  else match s.fw.req with
    | some r => if r &&& 0x1F == req then f s else s.mailDiscard
    | none => f s

def State.romVersion (s : State) : State := s.rmAnswer 0 0 (toBytes 4 Config.romRelease.toNat ++ romHash)

def State.flashId (s : State) : State :=
  s.rmAnswer 0 0 (toBytes 3 Config.flashIdent.toNat ++ toBytes 1 0 ++ toBytes 4 Config.flashBytes ++ toBytes 1 s.fw.reasonA
    ++ toBytes 1 s.fw.reasonB)

def State.readHeader (s : State) (b : Bool) : State :=
  if s.flashErr b 0 512 then s.rmAnswer 1 0 [] else s.rmAnswer 0 (s.headerReason b) (s.flashBytes b 0 512)

/-- ROM_VERSION (R400). -/
def execRomVersion (s : State) : Out State := .next (s.request? 1 State.romVersion)

/-- FLASH_ID (R400). -/
def execFlashId (s : State) : Out State := .next (s.request? 2 State.flashId)

/-- READ_HEADER (R400). -/
def execReadHeader (arg : BitVec 32) (s : State) : Out State :=
  .next (s.request? (arg &&& 0x10 ||| 3) (fun t => t.readHeader (arg.getLsbD 4)))

/-- Bytes are written into the flash. -/
def Board.write (b : Board) (offset : Nat) (data : List Byte) : Board :=
  { b with
    flash := data.zipIdx.foldl (fun m x => Map.put 0 m (offset + x.2) x.1) b.flash
    flashBad := b.flashBad.filter (fun x => x < offset || offset + data.length ≤ x) }

/-- The part of a write that falls into one slot: into the running one it is discarded and counted (R399). -/
def State.slotPart (s : State) (b : Bool) (offset : Nat) (data : List Byte) : State :=
  if data.isEmpty then s
  else if s.runSlot = some b then s.count 8 0x58
  else { s with board := s.board.write offset data }

/-- A write through the slot-write window (R399), each slot's part for itself. -/
def State.slotWrite (s : State) (offset : Nat) (data : List Byte) : State :=
  let low := 2 ^ 24 - offset
  if 2 ^ 25 < offset + data.length then s
  else (s.slotPart false offset (data.take low)).slotPart true (offset + (data.take low).length) (data.drop low)

/-- SLOT_WRITE (R399): 4 aligned bytes. -/
def execSlotWrite (offset : Nat) (value : BitVec 32) (s : State) : Out State :=
  if s.pins.reset || offset % 4 ≠ 0 then .next s else .next (s.slotWrite offset (toBytes 4 value.toNat))

/-! ## Attestation (R408) -/

/-- An SPDM exchange is answered on the host link: what R408 gives the answer, then bytes that the named standard, and not the manual,
lays out, and at its end, where the answer is signed, the signature of the device key (assumption log 63). -/
def State.spdm (s : State) (kind : Nat) (payload front : List Byte) (signed : Bool) : State :=
  if s.pins.reset || s.pins.linkFailed then s
  else
    let body := front ++ Config.spdmAnswer kind payload s.freeCtr
    let sig := if signed then sign Config.deviceKey (Config.signDraw s.freeCtr) (Config.spdmSigned kind payload body) else []
    { s with freeCtr := s.freeCtr + 1, sent := s.sent ++ [.spdm (body ++ sig)] }

def execSpdmVersion (payload : List (BitVec 8)) (s : State) : Out State := .next (s.spdm 0 payload [] false)
def execSpdmCapabilities (payload : List (BitVec 8)) (s : State) : Out State := .next (s.spdm 1 payload [] false)
def execSpdmAlgorithms (payload : List (BitVec 8)) (s : State) : Out State := .next (s.spdm 2 payload [] false)

/-- SPDM_DIGESTS (R8, R408): the SHA-384 digest of the certificate chain that the flash holds. -/
def execSpdmDigests (payload : List (BitVec 8)) (s : State) : Out State := .next (s.spdm 3 payload (sha384 s.board.certs) false)

/-- SPDM_CERTIFICATE (R8, R408): the certificate chain. -/
def execSpdmCertificate (payload : List (BitVec 8)) (s : State) : Out State := .next (s.spdm 4 payload s.board.certs false)

/-- SPDM_CHALLENGE (R8, R408): its answer is signed. -/
def execSpdmChallenge (payload : List (BitVec 8)) (s : State) : Out State := .next (s.spdm 5 payload [] true)

/-- SPDM_MEASUREMENTS (R408): the five measurements, then what the standard adds; signed where the request asks for it. -/
def execSpdmMeasurements (payload : List (BitVec 8)) (s : State) : Out State :=
  .next (s.spdm 6 payload s.measurements.flatten (Config.spdmAsks payload))

end Sys2Proof.Machine
end

