-- ==== Sys2Proof/Machine/Debug.lean ====
section
/-! DEFINITION. The debugger's commands (R390, R421): a row of the opcode table is a command written to DBG_CMD with its registers set,
or the answer to the one that waits. -/

namespace Sys2Proof.Machine

/-- The wave in a slot: the target is a core in bits 7:0 and a slot in bits 13:8 (DBG_TARGET). -/
def State.dbgWave (s : State) (num : Nat) : Option Wave :=
  s.waves.find? (fun w => w.post.isNone && w.core == num % 256 && w.slot == num / 256 % 64)

/-- A command is answered. -/
def State.dbgAnswer (s : State) (result : Nat) : State :=
  { s with mail := { s.mail with cmd := none, seq := (s.mail.seq + 1) % 65536, result := result } }

/-- A command of some OP runs: with the mailbox free, or when it is the one that waits, with the registers it needs as they stand; a
command written before the previous one is answered is discarded and counted (R404, R421). -/
def State.dbgCommand (s : State) (op : Nat) (set : Mailbox → Mailbox) (f : State → State) : State :=
  if s.pins.reset then s
  else match s.mail.cmd with
    | some c => if c.toNat % 16 = op && set s.mail == s.mail then f s else s.mailDiscard
    | none => f { s with mail := { set s.mail with cmd := some (BitVec.ofNat 32 op) } }

/-- DBG_TARGET as a command's target sets it. -/
def targetReg (t : DbgTarget) : Word := BitVec.ofNat 32 (t.num % 2 ^ 14)

/-- Every lane of the wave is stopped by the debugger. -/
def Wave.allStopped (w : Wave) : Bool := w.paths.all (fun p => p.dbg)

/-- The named lanes are stopped. -/
def Wave.lanesStopped (w : Wave) (m : LaneMask) : Bool :=
  (lanesOf m).all (fun l => w.paths.any (fun p => p.dbg && p.lanes.getLsbD l))

/-- A stopped path goes on: one that waits waits on, another is at its next word (R289). -/
def Path.freed (p : Path) (step : Bool) : Path :=
  if p.waiting || p.clause.isNone then { p with dbg := false, step := step }
  else { p.trapPoint.path p.lanes with prev := p.prev, passed := p.passed, halted := p.halted, step := step }

/-- RESUME. -/
def State.dbgResume (s : State) (num : Nat) (lanes : LaneMask) : State :=
  match s.dbgWave num with
  | none => s.dbgAnswer 2
  | some w =>
    if !w.lanesStopped lanes then s.dbgAnswer 1
    else
      let out := (w.paths.filter (fun p => p.lanes &&& lanes != 0)).map (fun (p : Path) =>
        { p with lanes := p.lanes &&& lanes }.freed false)
      let rest := (w.paths.map (fun (p : Path) => { p with lanes := p.lanes &&& ~~~lanes })).filter (fun p => p.lanes != 0)
      ((s.putWave { w with paths := out.foldl (fun acc p => addPath p acc) rest }).settleTrap w.uid).dbgAnswer 0

/-- RESUME (R421). -/
def execResume (t : DbgTarget) (lanes : LaneMask) (s : State) : Out State :=
  .next (s.dbgCommand 1 (fun m => { m with target := targetReg t, lanes := lanes }) (fun s => s.dbgResume t.num lanes))

/-- STEP: the stopped path that holds the lowest named lane issues its next word. -/
def State.dbgStep (s : State) (num : Nat) (lanes : LaneMask) : State :=
  match s.dbgWave num with
  | none => s.dbgAnswer 2
  | some w =>
    match (lowestLane lanes).bind (fun l => w.paths.find? (fun p => p.dbg && p.lanes.getLsbD l)) with
    | none => s.dbgAnswer 1
    | some p =>
      if !w.lanesStopped lanes then s.dbgAnswer 1
      else (s.putWave { w with paths := w.paths.map (fun q => if q.lanes == p.lanes then q.freed true else q) }).dbgAnswer 0

/-- STEP (R390, R421): its event follows when the word has issued. -/
def execStep (t : DbgTarget) (lanes : LaneMask) (s : State) : Out State :=
  .next (s.dbgCommand 2 (fun m => { m with target := targetReg t, lanes := lanes }) (fun s => s.dbgStep t.num lanes))

/-- STOP: every wave of the scope stops at its next clause boundary, unless it is stopped. Scope 3 is no scope. -/
def State.dbgStop (s : State) (scope num : Nat) : State :=
  match s.dbgWave num with
  | none => s.dbgAnswer 2
  | some w =>
    let sel (x : Wave) : Bool := x.live != 0 && x.post.isNone && !x.allStopped && (match scope with
      | 0 => x.uid == w.uid
      | 1 => x.gang == w.gang
      | 2 => x.node == w.node
      | _ => false)
    if 3 ≤ scope then s.dbgAnswer 4
    else ((s.waves.filter sel).foldl (fun (t : State) x => t.settleDbg x.uid)
      { s with waves := s.waves.map (fun (x : Wave) => if sel x then { x with dbgWant := true } else x) }).dbgAnswer 0

/-- STOP (R390, R421). -/
def execStop (t : DbgTarget) (s : State) : Out State :=
  .next (s.dbgCommand 3
    (fun m => { m with target := targetReg t, arg := if m.arg.toNat % 4 = t.kind then m.arg else BitVec.ofNat 32 t.kind })
    (fun s => s.dbgStop t.kind t.num))

/-- The registers READ_V and WRITE_V name, or the refusal. -/
def Wave.dbgRange (w : Wave) (arg : Word) : Except Nat (Nat × Nat) :=
  let first := arg.toNat % 256
  let n := arg.toNat / 256 % 32
  if !w.allStopped then .error 1
  else if n = 0 || 16 < n || w.budget < first + n then .error 3
  else if w.tokenBlocked ((List.range n).map (fun k => RegId.v (first + k))) then .error 5
  else .ok (first, n)

/-- READ_V. -/
def State.dbgReadV (s : State) (num : Nat) (arg : Word) : State :=
  match s.dbgWave num with
  | none => s.dbgAnswer 2
  | some w =>
    match w.dbgRange arg with
    | .error e => s.dbgAnswer e
    | .ok (first, n) =>
      let b := w.rf.rows first n
      let data := b.zipIdx.foldl (fun (m : Map Byte) (x : Byte × Nat) => Map.put 0 m x.2 x.1) s.mail.data
      { s with mail := { s.mail with data := data } }.dbgAnswer 0

/-- READ_V (R421). -/
def execReadV (t : DbgTarget) (arg : BitVec 32) (s : State) : Out State :=
  .next (s.dbgCommand 4 (fun m => { m with target := targetReg t, arg := arg }) (fun s => s.dbgReadV t.num arg))

/-- Bytes of DBG_DATA. -/
def Mailbox.bytes (m : Mailbox) (n : Nat) : List Byte := (List.range n).map (fun i => Map.get 0 m.data i)

/-- WRITE_V; a lane that is never active keeps its registers (R41). -/
def State.dbgWriteV (s : State) (num : Nat) (arg : Word) : State :=
  match s.dbgWave num with
  | none => s.dbgAnswer 2
  | some w =>
    match w.dbgRange arg with
    | .error e => s.dbgAnswer e
    | .ok (first, n) => (s.putWave { w with rf := w.rf.loadRows first w.exist (s.mail.bytes (128 * n)) }).dbgAnswer 0

/-- WRITE_V (R421). -/
def execWriteV (t : DbgTarget) (arg : BitVec 32) (s : State) : Out State :=
  .next (s.dbgCommand 5 (fun m => { m with target := targetReg t, arg := arg }) (fun s => s.dbgWriteV t.num arg))

/-- READ_CTL: the fields SAVEW.C writes; the trap points are where the lanes are stopped. -/
def State.dbgReadCtl (s : State) (num : Nat) : State :=
  match s.dbgWave num with
  | none => s.dbgAnswer 2
  | some w =>
    if !w.allStopped then s.dbgAnswer 1
    else
      let put (m : Map Byte) (x : Nat × List Byte) : Map Byte := x.2.zipIdx.foldl (fun m b => Map.put 0 m (x.1 + b.2) b.1) m
      { s with mail := { s.mail with data := (w.ctlParts (trapPoints w.paths)).foldl put s.mail.data } }.dbgAnswer 0

/-- READ_CTL (R421). -/
def execReadCtl (t : DbgTarget) (s : State) : Out State :=
  .next (s.dbgCommand 6 (fun m => { m with target := targetReg t }) (fun s => s.dbgReadCtl t.num))

/-- WRITE_CTL: the fields are loaded as by RESTW.C, and the lanes stand at the new points, stopped. -/
def State.dbgWriteCtl (s : State) (num : Nat) : State :=
  match s.dbgWave num with
  | none => s.dbgAnswer 2
  | some w =>
    let b := s.mail.bytes 0x600
    if !w.allStopped then s.dbgAnswer 1
    else if ctlBad b then s.dbgAnswer 6
    else
      let w1 := w.loadCtl b
      let ps := (pointPaths (ctlPoints b w1.live)).map (fun (p : Path) => { p with dbg := true })
      ((s.putWave { w1 with paths := ps }).settleOver w.uid).dbgAnswer 0

/-- WRITE_CTL (R421). -/
def execWriteCtl (t : DbgTarget) (s : State) : Out State :=
  .next (s.dbgCommand 7 (fun m => { m with target := targetReg t }) (fun s => s.dbgWriteCtl t.num))

end Sys2Proof.Machine
end

