-- ==== Sys2Proof/Machine/Hub.lean ====
section
/-! DEFINITION. The management window (R366, R417): its registers as they are read, and the writes that take effect (R354, R417 to
R420). -/

namespace Sys2Proof.Machine

/-! ## Reads -/

/-- One half of an 8-byte register. -/
def half (x : Nat) (upper : Bool) : Nat := if upper then x / 2 ^ 32 % 2 ^ 32 else x % 2 ^ 32

/-- HUB_SNAP (R403). -/
def Snap.reg (x : Snap) : Nat := (if x.copying.isSome then 2 ^ 31 else 0) + x.group % 256 * 2 ^ 16 + x.index % 65536

/-- A 4-byte register of the window, or half of an 8-byte one; write-only registers and unlisted offsets read 0. -/
def State.regRead (s : State) (off : Nat) : Nat :=
  let up := off / 4 % 2 == 1
  if off = 0x10 then s.snap.reg
  else if off / 8 = 3 then half s.hub.ctxBase up
  else if off / 8 = 4 then half s.hub.rgnBase up
  else if off = 0x28 then s.hub.pcieAtom.toNat
  else if 0x40 ≤ off ∧ off < 0xC0 then
    let w := s.hub.inwin.getD ((off - 0x40) / 16) (0, 0)
    half (if off / 8 % 2 = 0 then w.1 else w.2) up
  else if 0x100 ≤ off ∧ off < 0x500 then
    let r := s.ring ((off - 0x100) / 16)
    if off % 16 < 8 then half r.base up else if off % 16 = 8 then r.ctl else 0
  else if 0x500 ≤ off ∧ off < 0x580 then
    match s.faultRings[(off - 0x500) / 32]? with
    | none => 0
    | some r => match off % 32 / 4 with
      | 0 | 1 => half r.base up
      | 2 => r.ctl
      | 3 => r.head
      | 4 => r.tail
      | _ => 0
  else if off = 0x1000 then s.fwStatus
  else if off = 0x1008 then s.fwCmdstat
  else if 0x2000 ≤ off ∧ off < 0x2020 then s.pwrBoost ((off - 0x2000) / 4)
  else if 0x2040 ≤ off ∧ off < 0x2060 then s.bgstat ((off - 0x2040) / 4)
  else 0

/-- An 8-byte register begins at this offset. -/
def wideReg (off : Nat) : Bool :=
  off = 0x18 || off = 0x20 || (0x40 ≤ off && off < 0xC0 && off % 8 == 0) || (0x100 ≤ off && off < 0x500 && off % 16 == 0)
    || (0x500 ≤ off && off < 0x580 && off % 32 == 0)

/-- The registers of the debug mailbox (R421). -/
def Mailbox.regRead (m : Mailbox) (off : Nat) : Nat :=
  match off with
  | 0x000 => m.head
  | 0x004 => m.tail
  | 0x00C => m.seq % 65536 * 2 ^ 16 + m.result % 16
  | 0x010 => m.target.toNat
  | 0x018 => m.lanes.toNat
  | 0x01C => m.arg.toNat
  | _ => 0

/-- A byte of the parts of the window that are not single registers: the snapshot buffer, the mailboxes, the measurement log. -/
def State.bufRead (s : State) (off : Nat) : Byte :=
  let byteOf (x k : Nat) : Byte := BitVec.ofNat 8 (x / 256 ^ (k % 4))
  if off < 0x20000 then s.snap.buf.getD (off - 0x10000) 0
  else if off < 0x21000 then
    let o := off - 0x20000
    if o < 0x100 then byteOf (s.mail.regRead (o / 4 * 4)) o
    else if o < 0x800 then (s.mail.events.getD ((o - 0x100) / 64) []).getD ((o - 0x100) % 64) 0
    else Map.get 0 s.mail.data (o - 0x800)
  else if off < 0x30000 then 0
  else if off < 0x31000 then
    let o := off - 0x30000
    if o / 4 = 1 then byteOf s.rmStat o
    else if o / 4 = 4 then byteOf s.fw.rmData.length o
    else if 0x100 ≤ o ∧ o < 0x300 then s.fw.rmData.getD (o - 0x100) 0
    else 0
  else if 0x40000 ≤ off ∧ off < 0x50000 then s.fw.log.getD (off - 0x40000) 0
  else 0

/-- The registers of a mailbox lie here, ahead of its data. -/
def mailReg (off : Nat) : Bool := (0x20000 ≤ off && off < 0x20100) || (0x30000 ≤ off && off < 0x30100)

/-- A READ OF THE WINDOW (R417): a register takes aligned reads of its own width, or of 4 bytes of an 8-byte one; another reads 0. -/
def State.windowRead (s : State) (off n : Nat) : List Byte :=
  if (mailReg off || mailReg (off + n - 1)) && (n ≠ 4 || off % 4 ≠ 0) then toBytes n 0
  else if 0x10000 ≤ off then (List.range n).map (fun k => s.bufRead (off + k))
  else if n = 4 && off % 4 == 0 then toBytes 4 (s.regRead off)
  else if n = 8 && wideReg off then toBytes 4 (s.regRead off) ++ toBytes 4 (s.regRead (off + 4))
  else toBytes n 0

/-! ## HUB_REPLAY (R354) -/

/-- An operation of a wave still waits for its translation. -/
def State.stillWaits (s : State) (x : Nat × Nat) : Bool :=
  let has (w : Wave) : Bool := 2 ^ 64 ≤ x.2 || (match w.access with | some a => a.op == x.2 | none => false)
    || w.ops.any (fun o => o.op == x.2)
    || w.waybill.any (fun o => o.op == x.2)
  (match s.wave? x.1 with | some w => has w | none => false)
    || s.gangs.any (fun g => match g.kept with | some k => k.waves.any (fun w => w.uid == x.1 && has w) | none => false)
    || s.copies.any (fun c => c.wave == x.1 && c.op == x.2) || s.walks.any (fun k => k.wave == x.1 && k.op == x.2)

/-- A REPLAY (R354): the entry with that id is released and its waiters retry; an id that is not open is discarded and counted. -/
def State.replay (s : State) (id : Nat) : State :=
  if s.filters.any (fun f => f.id == id && !f.replayed) then
    let retry (f : Filter) : Filter :=
      if f.id == id && !f.replayed then { f with replayed := true, todo := [], waiters := f.waiters.filter s.stillWaits } else f
    { s with filters := (s.filters.map retry).filter (fun f => !f.waiters.isEmpty) }
  else s.count 8 0x50

/-- HUB_REPLAY (R354). -/
def execHubReplay (value : BitVec 32) (s : State) : Out State := if s.pins.reset then .next s else .next (s.replay value.toNat)

/-! ## Bases (R417, R418, R420) -/

/-- A write of half of an 8-byte register at `off`: the lower half waits, and the register takes effect at the upper (R417). -/
def State.wideWrite (s : State) (off : Nat) (upper : Bool) (v cur : Nat) (take : State → Nat → State) : State :=
  if upper then
    let lo := (Map.find s.hub.halves off).getD (cur % 2 ^ 32)
    take { s with hub := { s.hub with halves := Map.del s.hub.halves off } } (v % 2 ^ 32 * 2 ^ 32 + lo)
  else { s with hub := { s.hub with halves := Map.ins s.hub.halves off (v % 2 ^ 32) } }

/-- A discarded write of a table base or of a fault ring's register (R419, R420). -/
def State.hubDiscard (s : State) : State := s.count 8 0x68

/-- HUB_CTX_BASE (R420): only while no context is latched. A gang being placed holds its context's latch. -/
def State.ctxBaseWrite (s : State) (upper : Bool) (v : Nat) : State :=
  s.wideWrite 0x18 upper v s.hub.ctxBase (fun t x =>
    if t.ctxs.isEmpty then { t with hub := { t.hub with ctxBase := x / 4096 * 4096 } } else t.hubDiscard)

def execHubCtxBase (upper : Bool) (value : BitVec 32) (s : State) : Out State :=
  if s.pins.reset then .next s else .next (s.ctxBaseWrite upper value.toNat)

/-- HUB_RGN_BASE (R420): only while no node is READY or RUNNING and no context is latched; every block is read afresh. -/
def State.rgnBaseWrite (s : State) (upper : Bool) (v : Nat) : State :=
  s.wideWrite 0x20 upper v s.hub.rgnBase (fun t x =>
    if t.nodes.isEmpty && t.ctxs.isEmpty then { t with hub := { t.hub with rgnBase := x / 256 * 256 }, regions := [] }
    else t.hubDiscard)

def execHubRgnBase (upper : Bool) (value : BitVec 32) (s : State) : Out State :=
  if s.pins.reset then .next s else .next (s.rgnBaseWrite upper value.toNat)

/-- A slot of the ring is submitted and short of COMPLETE or FAILED (R418). -/
def State.ringBusy (s : State) (n : Nat) : Bool := !(s.ring n).submitted.isEmpty || s.nodes.any (fun x => x.ring == n)

/-- A write of a ring's register that takes effect sets its head to 0; another is discarded and counted (R418). -/
def State.ringWrite (s : State) (n : Nat) (f : Ring → Ring) : State :=
  s.updRing n (fun r => if s.ringBusy n then { r with ctlDiscards := r.ctlDiscards + 1 } else { f r with head := 0 })

/-- HUB_RING_CTL (R417, R418). -/
def State.ringCtlWrite (s : State) (n v : Nat) : State :=
  s.ringWrite n (fun r =>
    let k := v / 2 ^ 24 % 16
    { r with bound := v / 2 ^ 31 % 2 == 1 && k ≤ 12, sizeLog := k, ctx := v % 65536 })

def execHubRingCtl (ring : Nat) (value : BitVec 32) (s : State) : Out State :=
  if s.pins.reset then .next s else .next (s.ringCtlWrite ring value.toNat)

/-- HUB_RING_BASE (R417, R418). -/
def State.ringBaseWrite (s : State) (n : Nat) (upper : Bool) (v : Nat) : State :=
  if 64 ≤ n then s
  else s.wideWrite (0x100 + 16 * n) upper v (s.ring n).base (fun t x => t.ringWrite n (fun r => { r with base := x / 256 * 256 }))

def execHubRingBase (ring : Nat) (upper : Bool) (value : BitVec 32) (s : State) : Out State :=
  if s.pins.reset then .next s else .next (s.ringBaseWrite ring upper value.toNat)

/-! ## Fault rings (R418, R419) -/

def State.updFaultRing (s : State) (n : Nat) (f : FaultRing → FaultRing) : State := { s with faultRings := updAt s.faultRings n f }

/-- HUB_FR_CTL (R418, R419): enabling sets head and tail to 0; while enabled only a write that clears ENABLE takes effect. -/
def State.frCtlWrite (s : State) (n v : Nat) : State :=
  let on := v / 2 ^ 31 % 2 == 1
  match s.faultRings[n]? with
  | none => s
  | some r =>
    if r.enable && on then s.hubDiscard
    else s.updFaultRing n (fun r =>
      { r with enable := on, sizeLog := v % 32, head := if on then 0 else r.head, tail := if on then 0 else r.tail })

def execHubFrCtl (ring : Nat) (value : BitVec 32) (s : State) : Out State :=
  if s.pins.reset then .next s else .next (s.frCtlWrite ring value.toNat)

/-- HUB_FR_HEAD (R353, R417). -/
def execHubFrHead (ring : Nat) (value : BitVec 32) (s : State) : Out State :=
  if s.pins.reset then .next s else .next (s.updFaultRing ring (fun r => { r with head := value.toNat }))

/-- HUB_FR_BASE (R353, R419): only while the ring is disabled. -/
def State.frBaseWrite (s : State) (n : Nat) (upper : Bool) (v : Nat) : State :=
  match s.faultRings[n]? with
  | none => s
  | some r => s.wideWrite (0x500 + 32 * n) upper v r.base (fun t x =>
      if r.enable then t.hubDiscard else t.updFaultRing n (fun r => { r with base := x / 4096 * 4096 }))

def execHubFrBase (ring : Nat) (upper : Bool) (value : BitVec 32) (s : State) : Out State :=
  if s.pins.reset then .next s else .next (s.frBaseWrite ring upper value.toNat)

/-! ## Any register (R417) -/

/-- HUB_PCIE_INWIN (R416, R417): BASE and LIMIT are granular to 64 KiB, and LIMIT holds ENABLE in bit 0. -/
def State.inwinWrite (s : State) (off : Nat) (v : Nat) : State :=
  let n := (off - 0x40) / 16
  let limit := off / 8 % 2 == 1
  let w := s.hub.inwin.getD n (0, 0)
  s.wideWrite (off / 8 * 8) (off / 4 % 2 == 1) v (if limit then w.2 else w.1) (fun t x =>
    { t with hub := { t.hub with inwin := updAt t.hub.inwin n (fun w =>
      if limit then (w.1, x / 65536 * 65536 + x % 2) else (x / 65536 * 65536, w.2)) } })

/-- DBG_CMD (R421): a known OP waits for its answer; an unknown one is refused; behind another it is discarded and counted. -/
def State.dbgCmdWrite (s : State) (v : Word) : State :=
  let op := v.toNat % 16
  if s.mail.cmd.isSome then s.mailDiscard
  else if op = 0 || 7 < op then s.dbgAnswer 4
  else { s with mail := { s.mail with cmd := some (BitVec.ofNat 32 op) } }

/-- A register of the debug mailbox is written. DBG_ARG keeps all its bits, of which commands use the low 13 (assumption log 104). -/
def State.mailWrite (s : State) (o : Nat) (v : Word) : State :=
  match o with
  | 0x000 => if v.toNat < 28 then { s with mail := { s.mail with head := v.toNat } } else s
  | 0x008 => s.dbgCmdWrite v
  | 0x010 => { s with mail := { s.mail with target := BitVec.ofNat 32 (v.toNat % 2 ^ 14) } }
  | 0x018 => { s with mail := { s.mail with lanes := v } }
  | 0x01C => { s with mail := { s.mail with arg := v } }
  | _ => s

/-- RM_REQ (R400): a known OP waits for its answer, an unknown one is answered with RESULT 2; while RM_BUSY it is discarded and
counted. -/
def State.rmWrite (s : State) (v : Word) : State :=
  let op := v.toNat % 16
  if s.rmBusy then s.mailDiscard
  else if op = 0 || 3 < op then s.rmAnswer 2 0 []
  else { s with fw := { s.fw with req := some (v &&& 0x1F) } }

/-- Bytes of DBG_DATA are written. -/
def State.dataWrite (s : State) (o : Nat) (b : List Byte) : State :=
  { s with mail := { s.mail with data := b.zipIdx.foldl (fun (m : Map Byte) (x : Byte × Nat) => Map.put 0 m (o + x.2) x.1) s.mail.data } }

/-- A WRITE OF 4 ALIGNED BYTES to the window (R417): what is read-only or unlisted discards it. -/
def State.regWrite (s : State) (off : Nat) (v : Word) : State :=
  let up := off / 4 % 2 == 1
  let n := v.toNat
  if s.pins.reset || off % 4 ≠ 0 then s
  else if off = 0x00 then s.doorbell (n % 64) (n / 65536)
  else if off = 0x04 then s.replay n
  else if off = 0x08 then s.syncRegion (n % 65536)
  else if off = 0x0C then s.hubKill (n % 65536)
  else if off = 0x10 then s.snapStart (n / 65536 % 256) (n % 65536)
  else if off / 8 = 3 then s.ctxBaseWrite up n
  else if off / 8 = 4 then s.rgnBaseWrite up n
  else if off = 0x28 then { s with hub := { s.hub with pcieAtom := v.setWidth 8 } }
  else if 0x40 ≤ off ∧ off < 0xC0 then s.inwinWrite off n
  else if 0x100 ≤ off ∧ off < 0x500 then
    if off % 16 < 8 then s.ringBaseWrite ((off - 0x100) / 16) up n
    else if off % 16 = 8 then s.ringCtlWrite ((off - 0x100) / 16) n
    else s
  else if 0x500 ≤ off ∧ off < 0x580 then
    let f := (off - 0x500) / 32
    match off % 32 / 4 with
    | 0 | 1 => s.frBaseWrite f up n
    | 2 => s.frCtlWrite f n
    | 3 => s.updFaultRing f (fun r => { r with head := n })
    | _ => s
  else if off = 0x1004 then s.fwWrite (v &&& 0x1F)
  else if 0x20000 ≤ off ∧ off < 0x20100 then s.mailWrite (off - 0x20000) v
  else if 0x20800 ≤ off ∧ off < 0x21000 then s.dataWrite (off - 0x20800) (toBytes 4 n)
  else if off = 0x30000 then s.rmWrite v
  else if 0x2000000 ≤ off ∧ off < 0x4000000 then s.slotWrite (off - 0x2000000) (toBytes 4 n)
  else s

/-- REGISTER_WRITE (R417). -/
def execRegisterWrite (offset : Nat) (value : BitVec 32) (s : State) : Out State := .next (s.regWrite offset value)

/-- A WRITE OF THE WINDOW of any width (R417): 8 bytes of an 8-byte register are its lower and its upper half; the data window and the
slot-write window take bytes; any other is discarded. -/
def State.windowWrite (s : State) (off : Nat) (data : List Byte) : State :=
  let n := data.length
  if n = 4 && off % 4 == 0 then s.regWrite off (BitVec.ofNat 32 (ofBytes data))
  else if n = 8 && wideReg off then
    (s.regWrite off (BitVec.ofNat 32 (ofBytes (data.take 4)))).regWrite (off + 4) (BitVec.ofNat 32 (ofBytes (data.drop 4)))
  else if s.pins.reset then s
  else if 0x20800 ≤ off ∧ off + n ≤ 0x21000 then s.dataWrite (off - 0x20800) data
  else if 0x2000000 ≤ off ∧ off + n ≤ 0x4000000 then s.slotWrite (off - 0x2000000) data
  else s

end Sys2Proof.Machine
end

