-- ==== Sys2Proof/Machine/Outside.lean ====
section
/-! DEFINITION. What the host and PCIe peers do to the package (R412, R413, R416), and IO loads that go unanswered (R414). -/

namespace Sys2Proof.Machine

/-- The host reaches the device: it is out of reset and its link works (R413, R422). -/
def State.linked (s : State) : Bool := !s.pins.reset && !s.pins.linkFailed

/-- A range lies in the device memory of one spoke, that is trained (R344, R393). -/
def State.inMemory (s : State) (pa len : Nat) : Bool :=
  match s.homeOf pa with
  | none => false
  | some h => len = 0 || s.homeOf (pa + len - 1) = some h

/-- A range in the management window. -/
def inWindow (pa len : Nat) : Bool := windowBase ≤ pa && pa + len ≤ windowBase + 0x4000000

/-- The pages a range touches. -/
def pages (pa len : Nat) : List Nat := (List.range ((pa % 4096 + len + 4095) / 4096)).map (fun i => (pa / 4096 + i) * 4096)

/-- The home serves a request from outside every core (R193): its pages are shared, and what a core held alone is written back. -/
def State.shareRange (s : State) (pa len : Nat) : State := (pages pa len).foldl State.share s

/-- A read at the home from outside (R412, R416). Uncorrectable data is reported to firmware, as no wave consumes it (R391). -/
def State.outerRead (s : State) (pa len : Nat) : State × List Byte :=
  let t := s.shareRange pa len
  let bad := (sectors pa len).any (fun x => s.bad.contains x)
  (if bad then t.reportBad ((s.homeOf pa).getD 0) pa else t, t.bytesAt pa len)

/-- A write at the home from outside: it advances the versions and leaves leased copies to expire (R412). -/
def State.outerWrite (s : State) (pa : Nat) (data : List Byte) : State := (s.shareRange pa data.length).homeWrite 0 0 pa data

/-- A read-modify-write at the home from outside. -/
def State.outerRmw (s : State) (pa : Nat) (op : AtomOp) (wide : Bool) (x y : Word64) : State × List Byte :=
  let n := if wide then 8 else 4
  let r := s.outerRead pa n
  match atomNew op n r.2 (toBytes n x.toNat) (toBytes n y.toNat) with
  | some new => (r.1.homeWrite 0 0 pa new, r.2)
  | none => r

/-- HOST_READ (R412): the answer goes to the host; an address of the window reads its registers (R417). -/
def execHostRead (addr len : Nat) (s : State) : Out State :=
  if !s.linked then .next s
  else if inWindow addr len then .next { s with sent := s.sent ++ [.host (s.windowRead (addr - windowBase) len)] }
  else if s.inMemory addr len then
    let r := s.outerRead addr len
    .next { r.1 with sent := r.1.sent ++ [.host r.2] }
  else .next s

/-- HOST_WRITE (R412). -/
def execHostWrite (addr : Nat) (data : List (BitVec 8)) (s : State) : Out State :=
  if !s.linked then .next s
  else if inWindow addr data.length then .next (s.windowWrite (addr - windowBase) data)
  else if s.inMemory addr data.length then .next (s.outerWrite addr data)
  else .next s

/-- HOST_RMW (R412): single-copy atomic at the home; the old value goes to the host. -/
def execHostRmw (addr : Nat) (op : AtomOp) (wide : Bool) (x y : BitVec 64) (s : State) : Out State :=
  if !s.linked || !s.inMemory addr (if wide then 8 else 4) then .next s
  else
    let r := s.outerRmw addr op wide x y
    .next { r.1 with sent := r.1.sent ++ [.host r.2] }

/-! ## Peers on the root port (R416) -/

/-- A peer reaches the root port: the package serves, and PERST_N holds no peer in reset (R413, R422). -/
def State.peered (s : State) : Bool := s.linked && !s.perstLow

/-- The range lies wholly inside an enabled inbound window. -/
def State.inbound (s : State) (pa len : Nat) : Bool :=
  s.hub.inwin.any (fun w =>
    w.2 % 2 == 1 && w.1 ≤ pa && pa + len ≤ w.2 / 65536 * 65536 + (if Config.limitInside then 65536 else 0))

/-- A request that is not served is answered with Unsupported Request and counted (R404, R416). -/
def State.unsupported (s : State) (req : Nat) : State := { s.count 8 0x70 with sent := s.sent ++ [.unsupported req] }

/-- INBOUND_WRITE (R416). -/
def execInboundWrite (req addr : Nat) (data : List (BitVec 8)) (s : State) : Out State :=
  if !s.peered then .next s
  else if s.inbound addr data.length && s.inMemory addr data.length then .next (s.outerWrite addr data)
  else .next (s.unsupported req)

/-- INBOUND_READ (R416). -/
def execInboundRead (req addr len : Nat) (s : State) : Out State :=
  if !s.peered then .next s
  else if s.inbound addr len && s.inMemory addr len then
    let r := s.outerRead addr len
    .next { r.1 with sent := r.1.sent ++ [.peer req r.2] }
  else .next (s.unsupported req)

/-- INBOUND_ATOMIC (R416): FetchAdd, Swap and CAS. -/
def execInboundAtomic (req addr : Nat) (op : AtomOp) (wide : Bool) (x y : BitVec 64) (s : State) : Out State :=
  let n := if wide then 8 else 4
  if !s.peered then .next s
  else if (op == .add || op == .exch || op == .cas) && s.inbound addr n && s.inMemory addr n then
    let r := s.outerRmw addr op wide x y
    .next { r.1 with sent := r.1.sent ++ [.peer req r.2] }
  else .next (s.unsupported req)

/-! ## IO loads and the link -/

/-- The outstanding access is an IO load that was sent 50 ms ago or more (R414). -/
def State.ioLate (s : State) (a : Access) : Bool :=
  a.started && a.instr.atomic.isNone && a.instr.memOp.isSome
    && (match a.aux with | [t] => decide (t + 5000000 ≤ s.tick) | _ => false)

/-- IO_LOAD_TIMEOUT (R414): every byte is 0xFF, and the load is counted. -/
def execIoLoadTimeout (load : Nat) (s : State) : Out State :=
  match s.waves.find? (fun w => match w.access with | some a => a.op == load | none => false) with
  | none => .next s
  | some w =>
    match w.access with
    | none => .next s
    | some a =>
      if s.ioLate a then
        .next ((s.count (spokeOfCore w.core) 0x48).finishAccess w { a with
          pieces := a.pieces.map (fun (p : Piece) => { p with got := List.replicate p.len 0xFF, done := true }) })
      else .next s

/-- HOST_LINK_FAILURE (R413): every RUNNING node ends FAILED with REASON 0x0E, and the compute dies are gated. -/
def execHostLinkFailure (s : State) : Out State :=
  if !s.linked then .next s
  else
    let t := s.failRunning 0x0E
    let t := (List.range 8).foldl State.emptySpoke t
    .next { t with
      spokes := t.spokes.map (fun (x : Spoke) => { x with gated := true, ungating := false })
      pins := { t.pins with linkFailed := true } }

end Sys2Proof.Machine
end

