-- ==== Sys2Proof/Machine/Complete.lean ====
section
/-! DEFINITION. ACCESS_PERFORMED (R209) and COPY_UNIT (R216): one step in the life of any operation that a wave has issued and that runs
beside it. -/

namespace Sys2Proof.Machine

/-- The wave whose outstanding access an operation is. -/
def State.accessOf (s : State) (op : Nat) : Option (Wave × Access) :=
  s.waves.findSome? (fun w => match w.access with
    | some a => if a.op == op then some (w, a) else none
    | none => none)

/-- The wave that has an operation in flight. -/
def State.opOf (s : State) (op : Nat) : Option (Wave × Access) :=
  s.waves.findSome? (fun w => (w.ops.find? (fun o => o.op == op)).map (fun o => (w, o)))

/-- The wave in whose waybill an operation stands. -/
def State.billOf (s : State) (op : Nat) : Option (Wave × Access) :=
  s.waves.findSome? (fun w => (w.waybill.find? (fun o => o.op == op)).map (fun o => (w, o)))

/-- A step of the outstanding access: load, atomic, PUBLISH or pixel access. -/
def State.stepAccess (s : State) (w : Wave) (a : Access) (sel : Nat) : State :=
  match a.instr.memOp with
  | some m => s.accessStep State.windowRead w a m sel
  | none => match a.instr with
    | .publish .. => s.publishStep w a
    | .pixLd .. | .pixBlend .. => s.pixStep w a sel
    | _ => s

/-- A step of an operation beside the wave. -/
def State.stepOp (s : State) (w : Wave) (a : Access) (sel : Nat) : State :=
  match a.instr.memOp with
  | some m => s.storeStep w a m sel
  | none =>
    if a.isSave then s.saveStep w a sel
    else match a.instr with
      | .fence .. | .fenceXp .. | .fencePt .. => s.fenceStep w a
      | .synci _ _ _ _ clu => s.synciStep w a clu
      | .syncw _ d _ _ clu => s.syncwStep w a d clu
      | .pbarArr _ _ _ clu => s.pbarStep w a clu
      | .barArr _ n _ | .barSync _ n _ => s.countArrival w a n
      | .gbarGrid _ => s.countGbar w a false
      | .gbarGang _ => s.countGbar w a true
      | .pf _ _ _ l2 => (s.prefetch w (a.aux.headD 0) l2).putOp w.uid { a with pieces := [] }
      | .spanRel .. | .spanZero .. => s.blockStep w a
      | .rastEmit .. => s.rastStep w a
      | .pixOrd .. => s.ordStep w a
      | _ => s

/-- A write in flight takes its next stage; a frame store that is hidden still is seen as widely as its wave lets it be (R185). -/
def State.nextStage (s : State) (x : Write) : State :=
  if x.frame then
    let n := (s.wave? x.wave).elim 5 (fun w => s.frameWidth w x.op)
    if 5 ≤ n then s.reveal x
    else { s with writes := s.writes.map (fun y => if y == x then { x with shown := max x.shown n } else y) }
  else s.advanceWrite x

/-- The writes of an operation each take their next stage. -/
def State.stepWrites (s : State) (op : Nat) : State :=
  match s.writes.find? (fun x => x.op == op) with
  | none => s
  | some x0 =>
    let t := (s.writes.filter (fun x => x.op == op)).foldl State.nextStage s
    t.settleOp x0.wave op

/-- The oldest IO write of an operation is answered by its destination (R414); one to the management window takes effect there, in the
order of arrival (R417). -/
def State.stepIo (s : State) (op : Nat) : State :=
  match s.ioWrites.find? (fun x => x.op == op) with
  | none => s
  | some x =>
    let window (y : IoWrite) : Bool := s.physKind y.pa == .window
    let before := s.ioWrites.takeWhile (fun y => y.op != op)
    if window x && before.any window then s
    else
      let t := { s with ioWrites := before ++ (s.ioWrites.drop (before.length + 1)) }
      if window x then t.windowWrite (x.pa - windowBase) x.data else t

/-- The operation of a wave is bound to a flag, has no result to write, and nothing of it is in flight (R209). -/
def State.landed (s : State) (w : Wave) (op : Nat) : Bool :=
  w.bound.any (fun b => b.op == op) && !w.marks.any (fun m => m.op == op) && !w.reads.any (fun m => m.op == op) && !s.inFlight w op
    && !s.walks.any (fun k => k.op == op) && !(s.cluster (clusterOfCore w.core)).span.entries.any (fun e => e.op == op)
    && !(s.cluster (clusterOfCore w.core)).span.pass.any (fun e => e.op == op)
    && !s.writes.any (fun x => x.wave == w.uid && x.op == op)

/-- An operation whose last write another access took to its home is complete for its flag (R59, R209). -/
def State.settleLanded (s : State) (op : Nat) : State :=
  match s.waves.find? (fun w => s.landed w op) with
  | some w => s.settleOp w.uid op
  | none => s

/-- A user trap that waits while a TRANSLATION fault holds the memory unit is taken now: the wave returns to its checkpoint, and the
word that the fault holds is its lanes' trap point (R373). One that waits for the access is taken once that is done. -/
def State.settleHeld (s : State) (u : Nat) : State :=
  match s.wave? u with
  | none => s
  | some w =>
    match w.trap.pend with
    | none => s
    | some code =>
      if w.access.any (fun a => s.blocked u a.op && !a.fixed) then
        (s.putWave (w.rollback.enterTrap (s.descOf w).handler code)).noteStep w
      else s.settleTrap u

/-- A step of an operation by its number: a trap or a stop that waited for the access may then be taken (R374, R390). The postilion
of a gated spoke takes no step (R11). -/
def State.stepNumber (s : State) (op sel : Nat) : State :=
  match s.accessOf op, s.opOf op, s.billOf op with
  | some (w, a), _, _ => if s.powered w then ((s.stepAccess w a sel).settleHeld w.uid).settleDbg w.uid else s
  | none, some (w, a), _ => if s.powered w then (s.stepOp w a sel).settleOver w.uid else s
  | none, none, some (w, a) =>
    (match a.instr with
      | .spanRelSt .. => if a.started then s else s.relStStep w a
      | _ => s).settleOver w.uid
  | none, none, none =>
    if s.writes.any (fun x => x.op == op) then s.stepWrites op
    else if s.ioWrites.any (fun x => x.op == op) then s.stepIo op
    else s.settleLanded op

/-- PT_COMPLETION (R350): what waited for it to read a completed node's successors goes on (R38). -/
def execPtCompletion (write : Nat) (s : State) : Out State := .next (s.ptComplete write).resumeSuccs

/-- COPY_UNIT (R216, R178): unit `unit` of a copy, or of the step copy of a loop walk, moves. -/
def execCopyUnit (copy unit : Nat) (s : State) : Out State :=
  if s.copies.any (fun c => c.op == copy) then .next (s.copyUnit State.windowRead copy unit)
  else .next (s.walkUnit State.windowRead copy unit)

/-- ACCESS_PERFORMED (R209): `access` is 256 times the operation's number, plus the piece, or 255 for all its pieces. -/
def execAccessPerformed (access : Nat) (s : State) : Out State :=
  .next (s.stepNumber (access / 256) (access % 256)).chosen

end Sys2Proof.Machine
end

