-- ==== Sys2Proof/Machine/Dispatch.lean ====
section
/-! DEFINITION. The meaning of each instruction and of each step of the device and of the outside: one arm per constructor,
in the order of Instr. -/

namespace Sys2Proof.Machine

def exec (i : Instr) (s : State) : Host.Outcome State Fault Refusal :=
  match i with
  | .iadd g d a b m => Sys2Proof.Machine.execIadd g d a b m s
  | .iadd3 g d a b c => Sys2Proof.Machine.execIadd3 g d a b c s
  | .isub g d a b m => Sys2Proof.Machine.execIsub g d a b m s
  | .ineg g d a sat => Sys2Proof.Machine.execIneg g d a sat s
  | .iabs g d a sat => Sys2Proof.Machine.execIabs g d a sat s
  | .imul24 g d a b z => Sys2Proof.Machine.execImul24 g d a b z s
  | .imul24h g d a b z => Sys2Proof.Machine.execImul24h g d a b z s
  | .imad24 g d a b c z => Sys2Proof.Machine.execImad24 g d a b c z s
  | .imul g d a b => Sys2Proof.Machine.execImul g d a b s
  | .imulh g d a b z => Sys2Proof.Machine.execImulh g d a b z s
  | .imad g d a b c => Sys2Proof.Machine.execImad g d a b c s
  | .imin g d a b z => Sys2Proof.Machine.execImin g d a b z s
  | .imax g d a b z => Sys2Proof.Machine.execImax g d a b z s
  | .isetp g d a b c cmp z k => Sys2Proof.Machine.execIsetp g d a b c cmp z k s
  | .sel g d a b c wide => Sys2Proof.Machine.execSel g d a b c wide s
  | .lop3 g d a b c table => Sys2Proof.Machine.execLop3 g d a b c table s
  | .shl g d a b => Sys2Proof.Machine.execShl g d a b s
  | .shr g d a b => Sys2Proof.Machine.execShr g d a b s
  | .sha g d a b => Sys2Proof.Machine.execSha g d a b s
  | .shf g d a b c left => Sys2Proof.Machine.execShf g d a b c left s
  | .bfe g d a b c sext => Sys2Proof.Machine.execBfe g d a b c sext s
  | .bfi g d a b c e => Sys2Proof.Machine.execBfi g d a b c e s
  | .brev g d a => Sys2Proof.Machine.execBrev g d a s
  | .popc g d a => Sys2Proof.Machine.execPopc g d a s
  | .clz g d a => Sys2Proof.Machine.execClz g d a s
  | .ctz g d a => Sys2Proof.Machine.execCtz g d a s
  | .prmt g d a b c => Sys2Proof.Machine.execPrmt g d a b c s
  | .lea g d a b shift z => Sys2Proof.Machine.execLea g d a b shift z s
  | .iadd64 g d a b sub => Sys2Proof.Machine.execIadd64 g d a b sub s
  | .mov g d a wide => Sys2Proof.Machine.execMov g d a wide s
  | .movi g d imm z => Sys2Proof.Machine.execMovi g d imm z s
  | .movs g d num => Sys2Proof.Machine.execMovs g d num s
  | .mts g a num => Sys2Proof.Machine.execMts g a num s
  | .plop3 g d a b c table => Sys2Proof.Machine.execPlop3 g d a b c table s
  | .fadd g d a b sm fm => Sys2Proof.Machine.execFadd g d a b sm fm s
  | .fmul g d a b sm fm => Sys2Proof.Machine.execFmul g d a b sm fm s
  | .fmin g d a b sm => Sys2Proof.Machine.execFmin g d a b sm s
  | .fmax g d a b sm => Sys2Proof.Machine.execFmax g d a b sm s
  | .ffma g d a b c sm fm => Sys2Proof.Machine.execFfma g d a b c sm fm s
  | .fsetp g d a b c cmp k => Sys2Proof.Machine.execFsetp g d a b c cmp k s
  | .fclass g d a wide => Sys2Proof.Machine.execFclass g d a wide s
  | .frnd g d a rnd wide => Sys2Proof.Machine.execFrnd g d a rnd wide s
  | .dadd g d a b sm fm => Sys2Proof.Machine.execDadd g d a b sm fm s
  | .dmul g d a b sm fm => Sys2Proof.Machine.execDmul g d a b sm fm s
  | .dfma g d a b c sm fm => Sys2Proof.Machine.execDfma g d a b c sm fm s
  | .dsetp g d a b c cmp k => Sys2Proof.Machine.execDsetp g d a b c cmp k s
  | .hadd2F16 g d a b sm fm => Sys2Proof.Machine.execHadd2F16 g d a b sm fm s
  | .hadd2Bf16 g d a b sm fm => Sys2Proof.Machine.execHadd2Bf16 g d a b sm fm s
  | .hmul2F16 g d a b sm fm => Sys2Proof.Machine.execHmul2F16 g d a b sm fm s
  | .hmul2Bf16 g d a b sm fm => Sys2Proof.Machine.execHmul2Bf16 g d a b sm fm s
  | .hfma2F16 g d a b c sm fm => Sys2Proof.Machine.execHfma2F16 g d a b c sm fm s
  | .hfma2Bf16 g d a b c sm fm => Sys2Proof.Machine.execHfma2Bf16 g d a b c sm fm s
  | .hmin2F16 g d a b sm => Sys2Proof.Machine.execHmin2F16 g d a b sm s
  | .hmin2Bf16 g d a b sm => Sys2Proof.Machine.execHmin2Bf16 g d a b sm s
  | .hmax2F16 g d a b sm => Sys2Proof.Machine.execHmax2F16 g d a b sm s
  | .hmax2Bf16 g d a b sm => Sys2Proof.Machine.execHmax2Bf16 g d a b sm s
  | .hsetp2F16 g d a b c cmp k => Sys2Proof.Machine.execHsetp2F16 g d a b c cmp k s
  | .hsetp2Bf16 g d a b c cmp k => Sys2Proof.Machine.execHsetp2Bf16 g d a b c cmp k s
  | .dot4S8 g d a b c sat mix => Sys2Proof.Machine.execDot4S8 g d a b c sat mix s
  | .dot4Z8 g d a b c sat mix => Sys2Proof.Machine.execDot4Z8 g d a b c sat mix s
  | .dot8S4 g d a b c sat mix => Sys2Proof.Machine.execDot8S4 g d a b c sat mix s
  | .dot8Z4 g d a b c sat mix => Sys2Proof.Machine.execDot8Z4 g d a b c sat mix s
  | .dot4fE4m3 g d a b c sa sb fm => Sys2Proof.Machine.execDot4fE4m3 g d a b c sa sb fm s
  | .dot4fE5m2 g d a b c sa sb fm => Sys2Proof.Machine.execDot4fE5m2 g d a b c sa sb fm s
  | .dot8fE2m1 g d a b c sa sb fm => Sys2Proof.Machine.execDot8fE2m1 g d a b c sa sb fm s
  | .scale g d a b e8 fm => Sys2Proof.Machine.execScale g d a b e8 fm s
  | .cvt g d a dt st rnd sat sr => Sys2Proof.Machine.execCvt g d a dt st rnd sat sr s
  | .pack g d f => Sys2Proof.Machine.execPack g d f s
  | .unpack g d a f => Sys2Proof.Machine.execUnpack g d a f s
  | .rcp g d a => Sys2Proof.Machine.execRcp g d a s
  | .rsq g d a => Sys2Proof.Machine.execRsq g d a s
  | .sqrt g d a => Sys2Proof.Machine.execSqrt g d a s
  | .ex2 g d a => Sys2Proof.Machine.execEx2 g d a s
  | .lg2 g d a => Sys2Proof.Machine.execLg2 g d a s
  | .sin g d a => Sys2Proof.Machine.execSin g d a s
  | .cos g d a => Sys2Proof.Machine.execCos g d a s
  | .tanh g d a => Sys2Proof.Machine.execTanh g d a s
  | .pair h1 h2 => Sys2Proof.Machine.execPair h1 h2 s
  | .shflIdx g d a b c w => Sys2Proof.Machine.execShflIdx g d a b c w s
  | .shflUp g d a b c w => Sys2Proof.Machine.execShflUp g d a b c w s
  | .shflDn g d a b c w => Sys2Proof.Machine.execShflDn g d a b c w s
  | .shflXor g d a b c w => Sys2Proof.Machine.execShflXor g d a b c w s
  | .voteAny g d a => Sys2Proof.Machine.execVoteAny g d a s
  | .voteAll g d a => Sys2Proof.Machine.execVoteAll g d a s
  | .voteEq g d a => Sys2Proof.Machine.execVoteEq g d a s
  | .voteBal g d a => Sys2Proof.Machine.execVoteBal g d a s
  | .redux g d a op => Sys2Proof.Machine.execRedux g d a op s
  | .scan g d a excl op => Sys2Proof.Machine.execScan g d a excl op s
  | .matchLanes g d a wide => Sys2Proof.Machine.execMatchLanes g d a wide s
  | .barArr g name a => Sys2Proof.Machine.execBarArr g name a s
  | .barWait g name => Sys2Proof.Machine.execBarWait g name s
  | .barSync g name a => Sys2Proof.Machine.execBarSync g name a s
  | .pbarArr g a b clu => Sys2Proof.Machine.execPbarArr g a b clu s
  | .pbarWait g d a b clu => Sys2Proof.Machine.execPbarWait g d a b clu s
  | .gbarGrid g => Sys2Proof.Machine.execGbarGrid g s
  | .gbarGang g => Sys2Proof.Machine.execGbarGang g s
  | .gbarGridComplete node batch => Sys2Proof.Machine.execGbarGridComplete node batch s
  | .gbarReleaseStep node batch => Sys2Proof.Machine.execGbarReleaseStep node batch s
  | .gbarGangComplete gang => Sys2Proof.Machine.execGbarGangComplete gang s
  | .bra g => Sys2Proof.Machine.execBra g s
  | .brx g a => Sys2Proof.Machine.execBrx g a s
  | .call g d => Sys2Proof.Machine.execCall g d s
  | .calli g d a => Sys2Proof.Machine.execCalli g d a s
  | .ret g a => Sys2Proof.Machine.execRet g a s
  | .join g j a => Sys2Proof.Machine.execJoin g j a s
  | .waitj g j => Sys2Proof.Machine.execWaitj g j s
  | .dropj g j a => Sys2Proof.Machine.execDropj g j a s
  | .exit g => Sys2Proof.Machine.execExit g s
  | .yield g => Sys2Proof.Machine.execYield g s
  | .nop g => Sys2Proof.Machine.execNop g s
  | .bpt g imm => Sys2Proof.Machine.execBpt g imm s
  | .trap g imm => Sys2Proof.Machine.execTrap g imm s
  | .rftResume g => Sys2Proof.Machine.execRftResume g s
  | .rftTo g a => Sys2Proof.Machine.execRftTo g a s
  | .ldf g d a b at_ sz => Sys2Proof.Machine.execLdf g d a b at_ sz s
  | .stf g a b c at_ sz => Sys2Proof.Machine.execStf g a b c at_ sz s
  | .lds g d a b at_ sz => Sys2Proof.Machine.execLds g d a b at_ sz s
  | .sts g a b c at_ sz => Sys2Proof.Machine.execSts g a b c at_ sz s
  | .ats g d a b c at_ op => Sys2Proof.Machine.execAts g d a b c at_ op s
  | .ldc g d a b at_ sz => Sys2Proof.Machine.execLdc g d a b at_ sz s
  | .stc g a b c at_ sz => Sys2Proof.Machine.execStc g a b c at_ sz s
  | .atc g d a b c at_ op => Sys2Proof.Machine.execAtc g d a b c at_ op s
  | .ldg g d a b at_ sz => Sys2Proof.Machine.execLdg g d a b at_ sz s
  | .stg g a b c at_ sz => Sys2Proof.Machine.execStg g a b c at_ sz s
  | .atg g d a b c at_ op => Sys2Proof.Machine.execAtg g d a b c at_ op s
  | .redg g a b at_ op => Sys2Proof.Machine.execRedg g a b at_ op s
  | .pf g a b l2 => Sys2Proof.Machine.execPf g a b l2 s
  | .ldt g d a b at_ sz => Sys2Proof.Machine.execLdt g d a b at_ sz s
  | .ldh g d a b at_ sz => Sys2Proof.Machine.execLdh g d a b at_ sz s
  | .sth g a b c at_ sz => Sys2Proof.Machine.execSth g a b c at_ sz s
  | .ath g d a b c at_ op => Sys2Proof.Machine.execAth g d a b c at_ op s
  | .redh g a b at_ op => Sys2Proof.Machine.execRedh g a b at_ op s
  | .cpy g a b sync desc dir shw => Sys2Proof.Machine.execCpy g a b sync desc dir shw s
  | .cpyx g a b sync clu row => Sys2Proof.Machine.execCpyx g a b sync clu row s
  | .copyUnit copy unit => Sys2Proof.Machine.execCopyUnit copy unit s
  | .synci g a b c clu => Sys2Proof.Machine.execSynci g a b c clu s
  | .syncw g d a b clu => Sys2Proof.Machine.execSyncw g d a b clu s
  | .fence g at_ => Sys2Proof.Machine.execFence g at_ s
  | .fenceXp g at_ => Sys2Proof.Machine.execFenceXp g at_ s
  | .fencePt g => Sys2Proof.Machine.execFencePt g s
  | .publish g d a b c => Sys2Proof.Machine.execPublish g d a b c s
  | .accessPerformed access => Sys2Proof.Machine.execAccessPerformed access s
  | .faultRecordWrite fault => Sys2Proof.Machine.execFaultRecordWrite fault s
  | .leaseRenewalReturn wave unconfirmed => Sys2Proof.Machine.execLeaseRenewalReturn wave unconfirmed s
  | .waybillDrain wave => Sys2Proof.Machine.execWaybillDrain wave s
  | .ptCompletion write => Sys2Proof.Machine.execPtCompletion write s
  | .hitch g => Sys2Proof.Machine.execHitch g s
  | .unhitch g => Sys2Proof.Machine.execUnhitch g s
  | .spanAcq g d => Sys2Proof.Machine.execSpanAcq g d s
  | .spanRel g d => Sys2Proof.Machine.execSpanRel g d s
  | .spanRelSt g d a b shw => Sys2Proof.Machine.execSpanRelSt g d a b shw s
  | .spanZero g d => Sys2Proof.Machine.execSpanZero g d s
  | .spanStat g d sel => Sys2Proof.Machine.execSpanStat g d sel s
  | .spanRbox g d a b bTile => Sys2Proof.Machine.execSpanRbox g d a b bTile s
  | .spanLoop g d a b c stage => Sys2Proof.Machine.execSpanLoop g d a b c stage s
  | .spanMmaBf16 g o => Sys2Proof.Machine.execSpanMmaBf16 g o s
  | .spanMmaE4m3 g o c => Sys2Proof.Machine.execSpanMmaE4m3 g o c s
  | .spanMmaE5m2 g o c => Sys2Proof.Machine.execSpanMmaE5m2 g o c s
  | .spanMmaE2m1 g o c => Sys2Proof.Machine.execSpanMmaE2m1 g o c s
  | .spanMmaW4bf g o c => Sys2Proof.Machine.execSpanMmaW4bf g o c s
  | .spanMmaWf4bf g o c => Sys2Proof.Machine.execSpanMmaWf4bf g o c s
  | .spanMmaE4m3B32 g o c => Sys2Proof.Machine.execSpanMmaE4m3B32 g o c s
  | .spanMmaE5m2B32 g o c => Sys2Proof.Machine.execSpanMmaE5m2B32 g o c s
  | .spanMmaE2m1B32 g o c => Sys2Proof.Machine.execSpanMmaE2m1B32 g o c s
  | .tenureGrant cluster => Sys2Proof.Machine.execTenureGrant cluster s
  | .spanPassEnd cluster => Sys2Proof.Machine.execSpanPassEnd cluster s
  | .tenureIdleTimeout cluster => Sys2Proof.Machine.execTenureIdleTimeout cluster s
  | .loopResume walk => Sys2Proof.Machine.execLoopResume walk s
  | .rastEmit g a b c e => Sys2Proof.Machine.execRastEmit g a b c e s
  | .pixOrd g => Sys2Proof.Machine.execPixOrd g s
  | .pixBlend g a op => Sys2Proof.Machine.execPixBlend g a op s
  | .pixLd g d => Sys2Proof.Machine.execPixLd g d s
  | .drawRelease pass die => Sys2Proof.Machine.execDrawRelease pass die s
  | .fragWaveLaunch pass die => Sys2Proof.Machine.execFragWaveLaunch pass die s
  | .rasterPassClose pass => Sys2Proof.Machine.execRasterPassClose pass s
  | .enq g d a b c die nw => Sys2Proof.Machine.execEnq g d a b c die nw s
  | .enqAccept wave enq => Sys2Proof.Machine.execEnqAccept wave enq s
  | .enqg g d a => Sys2Proof.Machine.execEnqg g d a s
  | .dhops g d a b => Sys2Proof.Machine.execDhops g d a b s
  | .savewC g => Sys2Proof.Machine.execSavewC g s
  | .savewV g a n => Sys2Proof.Machine.execSavewV g a n s
  | .savewS g a b => Sys2Proof.Machine.execSavewS g a b s
  | .restwC g => Sys2Proof.Machine.execRestwC g s
  | .restwV g a n => Sys2Proof.Machine.execRestwV g a n s
  | .restwS g a b => Sys2Proof.Machine.execRestwS g a b s
  | .yieldSaved g => Sys2Proof.Machine.execYieldSaved g s
  | .clauseStart wave path => Sys2Proof.Machine.execClauseStart wave path s
  | .hubDoorbell ring head => Sys2Proof.Machine.execHubDoorbell ring head s
  | .hubReplay value => Sys2Proof.Machine.execHubReplay value s
  | .hubKill value => Sys2Proof.Machine.execHubKill value s
  | .hostRead addr len => Sys2Proof.Machine.execHostRead addr len s
  | .hostWrite addr data => Sys2Proof.Machine.execHostWrite addr data s
  | .hostRmw addr op wide x y => Sys2Proof.Machine.execHostRmw addr op wide x y s
  | .hubRgnSync value => Sys2Proof.Machine.execHubRgnSync value s
  | .hubSnap value => Sys2Proof.Machine.execHubSnap value s
  | .snapCopyDone => Sys2Proof.Machine.execSnapCopyDone s
  | .hubRingCtl ring value => Sys2Proof.Machine.execHubRingCtl ring value s
  | .hubRingBase ring upper value => Sys2Proof.Machine.execHubRingBase ring upper value s
  | .hubFrCtl ring value => Sys2Proof.Machine.execHubFrCtl ring value s
  | .hubFrHead ring value => Sys2Proof.Machine.execHubFrHead ring value s
  | .hubFrBase ring upper value => Sys2Proof.Machine.execHubFrBase ring upper value s
  | .registerWrite offset value => Sys2Proof.Machine.execRegisterWrite offset value s
  | .bootSlot value => Sys2Proof.Machine.execBootSlot value s
  | .raiseFloor value => Sys2Proof.Machine.execRaiseFloor value s
  | .romVersion => Sys2Proof.Machine.execRomVersion s
  | .flashId => Sys2Proof.Machine.execFlashId s
  | .readHeader arg => Sys2Proof.Machine.execReadHeader arg s
  | .resume t lanes => Sys2Proof.Machine.execResume t lanes s
  | .step t lanes => Sys2Proof.Machine.execStep t lanes s
  | .stop t => Sys2Proof.Machine.execStop t s
  | .readV t arg => Sys2Proof.Machine.execReadV t arg s
  | .writeV t arg => Sys2Proof.Machine.execWriteV t arg s
  | .readCtl t => Sys2Proof.Machine.execReadCtl t s
  | .writeCtl t => Sys2Proof.Machine.execWriteCtl t s
  | .debugEventPost => Sys2Proof.Machine.execDebugEventPost s
  | .hostLinkFailure => Sys2Proof.Machine.execHostLinkFailure s
  | .resetRelease => Sys2Proof.Machine.execResetRelease s
  | .nodeStart => Sys2Proof.Machine.execNodeStart s
  | .gangPlace site => Sys2Proof.Machine.execGangPlace site s
  | .ungateDone spoke => Sys2Proof.Machine.execUngateDone spoke s
  | .gangRetire gang => Sys2Proof.Machine.execGangRetire gang s
  | .resourceReport spoke => Sys2Proof.Machine.execResourceReport spoke s
  | .preemptRequest gang => Sys2Proof.Machine.execPreemptRequest gang s
  | .preemptTake wave => Sys2Proof.Machine.execPreemptTake wave s
  | .preemptTimeout gang => Sys2Proof.Machine.execPreemptTimeout gang s
  | .preemptDrain gang => Sys2Proof.Machine.execPreemptDrain gang s
  | .gangRestore gang => Sys2Proof.Machine.execGangRestore gang s
  | .watchdog node => Sys2Proof.Machine.execWatchdog node s
  | .timeSliceExpire gang => Sys2Proof.Machine.execTimeSliceExpire gang s
  | .headAging batch => Sys2Proof.Machine.execHeadAging batch s
  | .energyCharge => Sys2Proof.Machine.execEnergyCharge s
  | .energyWindowEnd => Sys2Proof.Machine.execEnergyWindowEnd s
  | .powerCompare => Sys2Proof.Machine.execPowerCompare s
  | .boostIntervalEnd spoke => Sys2Proof.Machine.execBoostIntervalEnd spoke s
  | .freqStepRise cluster => Sys2Proof.Machine.execFreqStepRise cluster s
  | .ballastStep cluster => Sys2Proof.Machine.execBallastStep cluster s
  | .patrolScrub spoke => Sys2Proof.Machine.execPatrolScrub spoke s
  | .sramScrub spoke => Sys2Proof.Machine.execSramScrub spoke s
  | .calibration cluster => Sys2Proof.Machine.execCalibration cluster s
  | .retraining spoke channel => Sys2Proof.Machine.execRetraining spoke channel s
  | .agingMonitor spoke => Sys2Proof.Machine.execAgingMonitor spoke s
  | .telemetry spoke => Sys2Proof.Machine.execTelemetry spoke s
  | .resultWrite wave mark => Sys2Proof.Machine.execResultWrite wave mark s
  | .clusterModeChange cluster => Sys2Proof.Machine.execClusterModeChange cluster s
  | .packageReset => Sys2Proof.Machine.execPackageReset s
  | .spdmVersion payload => Sys2Proof.Machine.execSpdmVersion payload s
  | .spdmCapabilities payload => Sys2Proof.Machine.execSpdmCapabilities payload s
  | .spdmAlgorithms payload => Sys2Proof.Machine.execSpdmAlgorithms payload s
  | .spdmDigests payload => Sys2Proof.Machine.execSpdmDigests payload s
  | .spdmCertificate payload => Sys2Proof.Machine.execSpdmCertificate payload s
  | .spdmChallenge payload => Sys2Proof.Machine.execSpdmChallenge payload s
  | .spdmMeasurements payload => Sys2Proof.Machine.execSpdmMeasurements payload s
  | .inboundWrite req addr data => Sys2Proof.Machine.execInboundWrite req addr data s
  | .inboundRead req addr len => Sys2Proof.Machine.execInboundRead req addr len s
  | .inboundAtomic req addr op wide x y => Sys2Proof.Machine.execInboundAtomic req addr op wide x y s
  | .ioLoadTimeout load => Sys2Proof.Machine.execIoLoadTimeout load s
  | .pwrLimitN asserted => Sys2Proof.Machine.execPwrLimitN asserted s
  | .postilionRestart post => Sys2Proof.Machine.execPostilionRestart post s
  | .dieGate spoke => Sys2Proof.Machine.execDieGate spoke s
  | .thermN spoke hot => Sys2Proof.Machine.execThermN spoke hot s
  | .linkRetry spoke => Sys2Proof.Machine.execLinkRetry spoke s
  | .slotWrite offset value => Sys2Proof.Machine.execSlotWrite offset value s
  | .hubCtxBase upper value => Sys2Proof.Machine.execHubCtxBase upper value s
  | .hubRgnBase upper value => Sys2Proof.Machine.execHubRgnBase upper value s

end Sys2Proof.Machine
end

