-- ==== Sys2Proof/Machine/Policy.lean ====
section
/-! DEFINITION. What may happen next: time (R46), the word a path issues (R52, R56), and the order the model takes when its schedule
names none (assumption log 1). The manual leaves this order to the device but for the bounds of R275; any other order is a schedule. -/

namespace Sys2Proof.Machine

/-! ## Time -/

/-- A completion or a release step of GBAR.GRID that falls in this tick (R333). -/
def State.gridEvent (s : State) : Option Instr :=
  match s.batches.find? s.gridDue with
  | some b => some (.gbarGridComplete b.node b.seq)
  | none => (s.batches.find? s.stepFirst).map (fun b => .gbarReleaseStep b.node b.seq)

/-- A copy, a calibration or a retraining that has had its whole time ends in this tick: a snapshot's and a calibration's 2 µs, a
retraining's 1 µs (R403, R405). -/
def State.taskOver (s : State) : Option Instr :=
  if s.snap.copying.any (fun x => decide (x.1 + 200 ≤ s.tick)) then some .snapCopyDone
  else
    let cal (c : Nat) : Bool :=
      s.island (c / 8) && (s.spoke (c / 8)).calBusy.getLsbD (c % 8) && decide ((s.cluster c).calTick + 200 ≤ s.tick)
    let train (n : Nat) : Bool := s.island (n / 4) &&
      (s.spoke (n / 4)).retrain.getLsbD (n % 4) && decide ((s.spoke (n / 4)).retrainTicks.getD (n % 4) 0 + 100 ≤ s.tick)
    (((List.range 64).find? cal).map Instr.calibration).orElse
      (fun _ => ((List.range 32).find? train).map (fun n => Instr.retraining (n / 4) (n % 4)))

/-- What a spoke has to do in this tick (R11, R316, R405): the end of its ungating, its report, and the tasks that are to begin. -/
def State.spokeDue (s : State) (k : Nat) : Option Instr :=
  let x := s.spoke k
  if x.gated && x.ungating && x.ungateTick + 1000 ≤ s.tick then some (.ungateDone k)
  else if !s.populated k then none
  else if x.reportTick + 7 ≤ s.tick then some (.resourceReport k)
  else if !s.island k then none
  else if s.scrubDue k then some (.patrolScrub k)
  else if s.sramDue k then some (.sramScrub k)
  else if x.telTick + 100000 ≤ s.tick then some (.telemetry k)
  else if x.agingTick + 100000000 ≤ s.tick then some (.agingMonitor k)
  else if !x.calBusy.getLsbD x.calNext && (s.cluster (8 * k + x.calNext)).calTick + 1000000 ≤ s.tick then
    some (.calibration (8 * k + x.calNext))
  else if x.retrain = 0 then
    ((List.range 4).find? (fun c => x.retrainTicks.getD c 0 + 10000000 ≤ s.tick)).map (Instr.retraining k)
  else none

/-- Events that a tick may not pass (R11, R316, R327 to R334, R361, R382, R389, R403, R405): the first that is due. -/
def State.hardDue (s : State) : Option Instr :=
  if s.pins.reset then none
  else if s.gridEvent.isSome then s.gridEvent
  else if 100 * (s.power.charged + 1) ≤ s.tick then some .energyCharge
  else if 100000 * (s.power.windows + 1) ≤ s.tick then some .energyWindowEnd
  else if 100 * (s.power.compared + 1) ≤ s.tick then some .powerCompare
  else
    let rise := (List.range 64).find? s.riseDue
    let interval := (List.range 8).find? (fun k => decide (400 * (s.spoke k).intervals + 399 ≤ s.tick))
    let late := s.gangs.find? (fun g => (g.state == .requested || g.state == .handling) && g.reqTick + 5000 ≤ s.tick
      && !s.gangAll g.uid Wave.yielded)
    let dog := s.nodes.find? (fun n => n.running && s.effWatchdog n.region != 0 && decide (1024 * s.effWatchdog n.region < n.resident))
    [rise.map Instr.freqStepRise, interval.map Instr.boostIntervalEnd, late.map (fun g => Instr.preemptTimeout g.uid),
      dog.map (fun n => Instr.watchdog n.uid), s.taskOver, (List.range 8).findSome? s.spokeDue,
      ((List.range 64).find? s.ballastDue).map Instr.ballastStep].findSome? id

/-- The node's watchdog counts (R389): a gang of it is resident, and not every wave it has there is halted by a debugger. -/
def State.counts (s : State) (n : Node) : Bool :=
  let live := s.waves.filter (fun w => w.node == n.uid && w.post.isNone && w.live != 0)
  s.gangs.any (fun g => g.node == n.uid && g.onCores) && (live.isEmpty || live.any (fun w => !w.allStopped))

/-- A cluster has been boosted in the interval that tick `t` lies in: at `t`, or before it since the interval began (R329). -/
def Cluster.noteBoost (t : Nat) (c : Cluster) : Cluster := { c with boosted := (t % 400 != 0 && c.boosted) || decide (0 < c.freq) }

/-- One reference tick ends with the admission of boost (R331), and the next begins (R46, R329, R362, R389). -/
def State.tickOnce (s : State) : State :=
  if s.pins.reset then { s with tick := s.tick + 1 }
  else
    let t := (List.range 8).foldl State.settleBoost s
    { t with
      tick := s.tick + 1
      clusters := t.clusters.map (Cluster.noteBoost (s.tick + 1))
      gangs := s.gangs.map (fun (g : Gang) => if g.onCores then { g with resident := g.resident + 1 } else g)
      nodes := s.nodes.map (fun (n : Node) => if s.counts n then { n with resident := n.resident + 1 } else n) }

/-- Ticks pass, up to the next event that they may not. -/
def State.elapse (s : State) : Nat → State
  | 0 => s
  | n + 1 => if s.hardDue.isSome then s else s.tickOnce.elapse n

/-! ## The word that issues -/

/-- A path may issue its next word: it runs, and no trap and no debugger stops it. -/
def State.mayIssue (s : State) (i : Issue) : Bool := s.running i.w && !i.p.halted && !i.p.dbg

/-- The path at `cur` did not move: its word is held, or waits. -/
def State.heldAt (i : Issue) (t : State) : Bool :=
  match t.issue? with
  | some j => j.w.uid == i.w.uid && j.c.addr == i.c.addr && j.c.idx == i.c.idx
  | none => false

/-- The word of the issuing path as its decoder reads it. -/
def Issue.instr (i : Issue) : Except Nat Instr := decode i.w.env i.word

/-! ## The order without a schedule -/

/-- Paths that are in a clause. -/
def State.inClause (s : State) : List (Nat × Nat) :=
  (s.waves.filter s.running).flatMap (fun w =>
    (w.paths.filter (fun p => p.clause.isSome && !p.halted && !p.dbg)).filterMap (fun p => (lowestLane p.lanes).map (fun l => (w.uid, l))))

/-- Paths that could start, one of each wave, the wave that has waited longest first (R275). -/
def State.starters (s : State) : List (Nat × Nat) :=
  let l := (s.waves.filter s.running).filterMap (fun w =>
    (w.paths.find? (fun p => s.couldStart w p && s.ranksFirst w p)).bind (fun p => (lowestLane p.lanes).map (fun l => (w.turn, w.uid, l))))
  (sortBy (fun (x y : Nat × Nat × Nat) => decide (x.1 < y.1)) l).map (fun x => x.2)

/-- A list turned by some places. -/
def turned {α : Type} (l : List α) (k : Nat) : List α := l.drop (k % (l.length + 1)) ++ l.take (k % (l.length + 1))

/-- The moves of the paths in one tick: a wave's next clause starts, and its paths issue words. -/
def State.issues (s : State) : List Move :=
  let go (x : Nat × Nat) : List Move := List.replicate 8 (.issue x.1 x.2)
  s.inClause.flatMap go ++ s.starters.flatMap (fun x => Move.event (.clauseStart x.1 x.2) :: go x)

/-- Steps of the device that a wave waits for. -/
def State.waveEvents (s : State) (w : Wave) : List Instr :=
  w.access.toList.map (fun a => Instr.accessPerformed (256 * a.op + 255))
  ++ w.ops.map (fun o => Instr.accessPerformed (256 * o.op + 255))
  ++ (w.waybill.filter (fun o => !o.started && (match o.instr with | .spanRelSt .. => true | _ => false))).map (fun o =>
      Instr.accessPerformed (256 * o.op + 255))
  ++ (if w.waybill.isEmpty then [] else [Instr.waybillDrain w.uid])
  ++ (if s.tick % 64 = 0 then w.enqs else w.enqs.take 1).map (fun e => Instr.enqAccept w.uid e.op)
  ++ (w.marks.filter (fun m => !s.inFlight w m.op)).map (fun m => Instr.resultWrite w.uid m.op)
  ++ (w.bound.filter (fun b => s.landed w b.op)).map (fun b => Instr.accessPerformed (256 * b.op + 255))
  ++ (if w.unconf.isEmpty then [] else [Instr.leaseRenewalReturn w.uid 0])
  ++ (if w.trap.preempt && !w.trap.inHandler then [Instr.preemptTake w.uid] else [])

/-- Steps of the memory system. -/
def State.memEvents (s : State) : List Instr :=
  ((s.writes.map (fun x => x.op)).eraseDups).map (fun o => Instr.accessPerformed (256 * o + 255))
  ++ ((s.ioWrites.map (fun x => x.op)).eraseDups).map (fun o => Instr.accessPerformed (256 * o + 255))
  ++ s.copies.flatMap (fun c => (List.range 16).map (fun i => Instr.copyUnit c.op (c.upto + i)))
  ++ s.walks.flatMap (fun k =>
      if k.stopped then [Instr.loopResume k.op]
      else (((List.range 512).filter (fun u => !k.done.contains u)).take 64 ++ [512]).map (fun u => Instr.copyUnit k.op u))
  ++ (s.filters.filter (fun f => !f.written && !f.replayed)).map (fun f => Instr.faultRecordWrite f.id)
  ++ s.ptPend.map (fun p => Instr.ptCompletion p.num)

/-- Steps of the command processor and the distributor. -/
def State.workEvents (s : State) : List Instr :=
  s.batches.flatMap (fun b => match s.node? b.node with
    | none => []
    | some n =>
      (if b.gbarCame.isEmpty then [] else [Instr.gbarGridComplete n.uid b.seq])
      ++ (match b.release with | some r => if r.left.isEmpty then [] else [Instr.gbarReleaseStep n.uid b.seq] | none => [])
      ++ (if b.headTick + 100000 ≤ s.tick && !b.aged then [Instr.headAging b.uid] else []))
  ++ s.gangs.flatMap (fun g =>
      (if g.gbarCame.isEmpty then [] else [Instr.gbarGangComplete g.uid])
      ++ (if s.gangAll g.uid (fun w => w.live == 0) then [Instr.gangRetire g.uid] else [])
      ++ (match g.state with
        | .resident => if s.capped g || s.freesEntry g then [Instr.preemptRequest g.uid] else []
        | .requested | .handling | .draining => [Instr.preemptDrain g.uid]
        | .restoring => [Instr.gangRestore g.uid]
        | .saved => [])
      ++ (let slice := s.effSlice (s.gangRegion g)
        if slice != 0 && slice ≤ g.resident && !g.sliceOver then [Instr.timeSliceExpire g.uid] else []))
  ++ (if s.nodes.any (fun n => !n.running) then [Instr.nodeStart] else [])
  ++ (if s.heads.isEmpty then [] else (List.range 8).map Instr.gangPlace ++ (s.heads.flatMap s.roomFor).eraseDups.map Instr.preemptRequest)
  ++ (List.range 8).flatMap (fun k =>
      (if (s.spoke k).ungating then [Instr.ungateDone k] else [])
      ++ (if (s.spoke k).reportTick + 6 ≤ s.tick then [Instr.resourceReport k] else []))
  ++ (List.range 64).flatMap (fun c => if (s.cluster c).modeTo.isSome then [Instr.clusterModeChange c] else [])
  ++ s.passes.flatMap (fun p =>
      p.owners.eraseDups.flatMap (fun d => [Instr.drawRelease p.num d, Instr.fragWaveLaunch p.num d]) ++ [Instr.rasterPassClose p.num])

/-- Steps of the span and of the clocks. -/
def State.clusterEvents (s : State) : List Instr :=
  (List.range 64).flatMap (fun c =>
    let x := s.cluster c
    (if x.span.entries.isEmpty then [] else [Instr.tenureGrant c])
    ++ (if x.span.hitched then [Instr.spanPassEnd c] ++ (if x.span.idle + 10 ≤ s.tick then [Instr.tenureIdleTimeout c] else []) else []))

/-- The command that waits in the debug mailbox. -/
def Mailbox.command (m : Mailbox) : Option Instr :=
  let t (k : Nat) : DbgTarget := { kind := k, num := m.target.toNat }
  m.cmd.bind (fun c => match c.toNat % 16 with
    | 1 => some (.resume (t 0) m.lanes)
    | 2 => some (.step (t 0) m.lanes)
    | 3 => some (.stop (t (m.arg.toNat % 4)))
    | 4 => some (.readV (t 0) m.arg)
    | 5 => some (.writeV (t 0) m.arg)
    | 6 => some (.readCtl (t 0))
    | 7 => some (.writeCtl (t 0))
    | _ => none)

/-- Steps of the hub and of the background tasks. -/
def State.hubEvents (s : State) : List Instr :=
  (if s.mail.due.isEmpty then [] else [Instr.debugEventPost])
  ++ s.mail.command.toList
  ++ (match s.fw.cmds with
    | c :: _ => if c.toNat % 16 = 1 then [Instr.bootSlot c] else [Instr.raiseFloor c]
    | [] => [])
  ++ (match s.fw.req with
    | some r => if r.toNat % 16 = 1 then [Instr.romVersion] else if r.toNat % 16 = 2 then [Instr.flashId] else [Instr.readHeader r]
    | none => [])
  ++ (if s.snap.copying.isSome then [Instr.snapCopyDone] else [])
  ++ (List.range 8).flatMap (fun k =>
      let x := s.spoke k
      (match (List.range 8).find? (fun c => x.calBusy.getLsbD c) with | some c => [Instr.calibration (8 * k + c)] | none => [])
      ++ (match (List.range 4).find? (fun c => x.retrain.getLsbD c) with | some c => [Instr.retraining k c] | none => []))

/-- Steps that the device could take now. -/
def State.events (s : State) : List Instr :=
  s.waves.flatMap s.waveEvents ++ s.memEvents ++ s.workEvents ++ s.clusterEvents ++ s.hubEvents

/-- WITHOUT A SCHEDULE, when no path issues: what the hour demands; else a tick passes, in which every step that the device could
take is tried once and every wave that may go on does. -/
def State.plan (s : State) : List Move :=
  if s.pins.reset then [.event .resetRelease]
  else if s.booting then [.elapse 1, .boot]
  else match s.hardDue with
    | some e => [.event e]
    | none =>
      let t := s.tickOnce
      .elapse 1 :: (turned t.events t.tick).map .event ++ t.issues

/-! ## A machine that is about to issue one word (withFetchWord) -/

/-- A header for a clause of one word: no WAIT, no flags, literal 0 (R54). -/
def plainHeader : Header :=
  { count := 1, wait := 0, seta := 15, setb := 15, yieldHint := false, gap := 0, lit := 0 }

/-- Where the word stands. -/
def fetchAt : Nat := 0x1000

/-- A wave of 32 lanes that has just started the clause of one word. -/
def fetchWave (word : Word64) : Wave :=
  { Wave.start 6 allLanes (BitVec.ofNat 64 fetchAt) with
    wg := 5, gang := 4, batch := 3, node := 2, ctx := 1
    paths := [{ Path.at allLanes (BitVec.ofNat 64 fetchAt) with
      clause := some { addr := BitVec.ofNat 64 fetchAt, head := plainHeader, words := [word], idx := 0 }, slot := true }] }

/-- The launch it belongs to. -/
def fetchDesc : Desc :=
  { Desc.zero with entry := BitVec.ofNat 64 fetchAt, scratch := 1, waves := [1, 0, 0, 0], budgets := [24, 0, 0, 0], framePerLane := 1024 }

/-- The machine of R393 after its boot, with one node, batch, gang, workgroup and wave of context 1 and region 1 in place on the first
core of pd0, the wave about to issue `word`. -/
def State.withWord (s : State) (word : Word64) : State :=
  { s with
    pins := { s.pins with reset := false }
    fw := { s.fw with state := 1 }
    schedule := [], cur := some (6, 0), stall := false, fresh := 7
    waves := [fetchWave word]
    wgs := [{ uid := 5, gang := 4, member := 0, lid := 0, core := 0, waves := 1, scratch := [], padBad := [], bars := [] }]
    gangs := [{ uid := 4, batch := 3, node := 2, num := 0, state := .resident, core := 0, size := 1, vdie := 0, since := 0
                reqTick := 0, resident := 0, sliceOver := false, full := false, kept := none, gbarGen := 0, gbarCame := [] }]
    batches := [{ uid := 3, node := 2, seq := 0, count := 1, desc := fetchDesc, descAddr := 0, arg := 0, region := 1, die := .any
                  next := 1, retired := 0, lanes := allLanes, frags := [], gbarGen := 0, gbarCame := [], gbarLast := 0, gbarArr := []
                  release := none, headTick := 0, aged := false }]
    nodes := [{ uid := 2, ring := 0, slot := 0, ctx := 1, region := 1, running := true, place := 0, readyTick := 0, readyAt := 0
                spawn := 1, nextSeq := 1, startOrder := 0, tStart := 0, seedLanes := 32, resident := 0 }]
    nodeStarts := 1
    ctxs := [{ id := 1, root := devBase + 0x100000, bind := [0x80, 0, 0, 0, 0, 0, 0, 0], region := 1, faultRing := 0 }]
    spokes := updAt s.spokes 0 (fun (x : Spoke) => { x with gated := false, capacity := spokeSpan }) }

end Sys2Proof.Machine
end

