-- ==== Sys2Proof/Machine/Step.lean ====
section
/-! DEFINITION. One step of the machine: the next move of its schedule or, without one, the word of the path that issues or what
`State.plan` says. -/

namespace Sys2Proof.Machine

/-- After a word has been tried the machine notes whether its path moved. -/
def noteStall (i : Issue) : Out State → Out State
  | .next t => .next { t with stall := State.heldAt i t }
  | .fault r => .fault r
  | .refused r => .refused r

/-- The word of a path, tried now, would not move it (R56). -/
def State.wordHeld (s : State) (u l : Nat) : Bool :=
  let s1 := { s with cur := some (u, l) }
  match s1.issue? with
  | none => false
  | some i =>
    match i.instr with
    | .ok ins => (match exec ins s1 with
      | .next t => State.heldAt i t
      | .fault _ | .refused _ => false)
    | .error _ => false

/-- The number of the partition a wave is in. -/
def Wave.part (w : Wave) : Nat := 4 * w.core + w.slot / 16

/-- THE PARTITION MAY TURN TO THIS WAVE (R56): it is on it, or the wave it is on stands between clauses or at words that are held. -/
def State.partFree (s : State) (w : Wave) : Bool :=
  match (Map.find s.parts w.part).bind s.wave? with
  | none => true
  | some x => x.uid == w.uid || !s.running x || x.paths.all (fun p => !p.inSlot || (match lowestLane p.lanes with
      | some l => s.wordHeld x.uid l
      | none => true))

/-- The partition is on the wave. -/
def State.turnTo (s : State) (w : Wave) : State := { s with parts := Map.ins s.parts w.part w.uid }

/-- The path that issues, in a slot (R279): a path that has waited inside its clause takes a free one in its turn; one that waits tries
its word again without. -/
def State.slotted (s : State) (i : Issue) : Option State :=
  if i.p.slot || i.p.waiting then some s
  else if i.w.slotFree && s.ranksFirst i.w i.p then
    some (s.putWave { i.w with paths := i.w.paths.map (fun p => if p.lanes == i.p.lanes then { p with slot := true, passed := 0 } else p) })
  else none

/-- A decoded word runs. A word that does not decode cannot stand in a clause that has started (R72); should one, it is ILLEGAL. -/
def stepWord (s : State) (i : Issue) : Out State :=
  match i.instr with
  | .ok ins => noteStall i (exec ins s)
  | .error r => .next (s.illegal i r)

/-- THE WORD OF THE PATH AT `cur` ISSUES, if it may and its partition may turn to it. -/
def stepIssue (s : State) : Out State :=
  match s.issue? with
  | none => .next s
  | some i =>
    if s.mayIssue i && s.partFree i.w then
      match (s.slotted i).map (fun t => (t, t.issue?)) with
      | some (t, some j) => stepWord (t.turnTo j.w) j
      | some (_, none) | none => .next { s with stall := true }
    else .next { s with stall := true }

/-! ## Two words in one cycle (R42, R47, R115, R279) -/

/-- A word whose every effect is on lane, scalar and predicate registers, flags and seeds (R93): a pair word or an opcode below 0x0D0. -/
def registerWord (w : Word64) : Bool := kindOf w == .pair || (kindOf w == .full && (w.extractLsb' 54 9).toNat < 0x0D0)

/-- The path of a wave that holds a lane, about to issue such a word. -/
def State.both? (s : State) (u l : Nat) : Option Issue :=
  match { s with cur := some (u, l) }.issue? with
  | some i => if registerWord i.word && !i.p.waiting && i.p.slot then some i else none
  | none => none

/-- A register word has a qualifying lane (R63, R67): without one it leaves a scalar destination as it is (R42). -/
def Issue.qualifies (i : Issue) : Bool :=
  kindOf i.word == .pair || qualify i.w.rf (pGuard (fieldsOf i.word)).val i.p.lanes != 0

/-- The registers after two words of one cycle: each read them as they were in `old`; those the second word, of `i`, writes stand over
those of the first. -/
def Wave.bothWrote (w old first : Wave) (i : Issue) : Wave :=
  let lanes := i.p.lanes
  let new := w.marks.drop old.marks.length
  { w with
    marks := first.marks ++ new
    rf := { w.rf with
      v := (w.rf.v.filter (fun e => lanes.getLsbD (e.1 % 32))).foldl (fun m e => Map.put 0 m e.1 e.2)
        (first.rf.v.filter (fun e => !lanes.getLsbD (e.1 % 32)))
      s := (if i.qualifies then new.flatMap (fun m => m.regs) else []).foldl (fun m r => match r with
        | .s n => Map.put 0 m n (Map.get 0 w.rf.s n)
        | .v _ | .p _ | .fpstat | .seed => m) first.rf.s
      p := (List.range 7).foldl (fun m n =>
        Map.put 0 m n ((Map.get 0 first.rf.p n &&& ~~~lanes) ||| (Map.get 0 w.rf.p n &&& lanes))) [] } }

/-- The first word, and then the second as if in the same cycle, which is one issue cycle of the gang (R361). A MOVS of FPSTAT that
comes second reads the flags of the first (assumption log 95). -/
def State.inOneCycle (s : State) (u : Nat) (first second : Issue) : Out State :=
  let at_ (t : State) (i : Issue) : Out State := stepIssue { t with cur := (lowestLane i.p.lanes).map (fun l => (u, l)) }
  match at_ s first with
  | .next t =>
    match t.wave? u, s.wave? u with
    | some w1, some w0 =>
      match at_ (t.putWave { w1 with rf := { w1.rf with v := w0.rf.v, s := w0.rf.s, p := w0.rf.p }, marks := w0.marks }) second with
      | .next r => (match r.wave? u with
        | some w2 => .next { r.putWave (w2.bothWrote w0 w1 second) with used := if t.used == s.used then r.used else t.used }
        | none => .next r)
      | .fault f => .fault f
      | .refused f => .refused f
    | _, _ => .next t
  | .fault f => .fault f
  | .refused f => .refused f

/-- The word of an issue is an MTS, whose write of FPSTAT comes first in its cycle (R47). -/
def Issue.isMts (i : Issue) : Bool :=
  match i.instr with
  | .ok (.mts _ _ _) => true
  | _ => false

/-- The word raises a user trap (R114, R115), whatever becomes of it: a handler, the end of the wave without one (R371), or ILLEGAL in
one (R378). It is tried with a handler that nothing has entered. -/
def State.wouldTrap (s : State) (i : Issue) : Bool :=
  let t := { s with
    cur := (lowestLane i.p.lanes).map (fun l => (i.w.uid, l))
    batches := s.batches.map (fun (b : Batch) => { b with desc := { b.desc with handler := 8 } })
    waves := s.waves.map (fun (w : Wave) => { w with trap := { w.trap with inHandler := false, pend := none } }) }
  match i.instr with
  | .ok ins => (match exec ins t with
    | .next r => (match r.wave? i.w.uid with
      | some w => w.trap.pend.isSome || w.trap.inHandler
      | none => false)
    | .fault _ | .refused _ => false)
  | .error _ => false

/-- TWO PATHS OF A WAVE ISSUE REGISTER WORDS IN ONE CYCLE (R42, R47, R114, R115): an MTS of FPSTAT comes first, and flags are ORed over
what it writes; the path whose lowest lane is lower writes last, of two such MTS too (assumption log 95); if it takes a user trap, the
other takes none. -/
def stepBoth (u a b : Nat) (s : State) : Out State :=
  match s.both? u a, s.both? u b with
  | some x, some y =>
    if x.p.lanes &&& y.p.lanes != 0 then .next s
    else
      let low := if (lowestLane x.p.lanes).getD 0 < (lowestLane y.p.lanes).getD 0 then x else y
      let high := if (lowestLane x.p.lanes).getD 0 < (lowestLane y.p.lanes).getD 0 then y else x
      if !high.isMts && (low.isMts || s.wouldTrap low) then s.inOneCycle u low high else s.inOneCycle u high low
  | _, _ => .next s

/-- One move. A wave's instruction is no event: it issues from a path. A clause starts where the partition may turn to its wave. -/
def stepMove (m : Move) (s : State) : Out State :=
  match m with
  | .issue u l => stepIssue { s with cur := some (u, l) }
  | .both u a b => stepBoth u a b s
  | .event (.clauseStart u l) =>
    (match s.wave? u with
    | some w =>
      if s.partFree w then (match exec (.clauseStart u l) s with
        | .next t => .next (if (t.wave? u).any (fun x => x.turn != w.turn) then t.turnTo w else t)
        | .fault f => .fault f
        | .refused f => .refused f)
      else .next s
    | none => .next s)
  | .event i => if (encode i).isNone then exec i s else .next s
  | .elapse n => .next (s.elapse n)
  | .boot => .next s.endBoot

/-- The path at `cur` goes on without being picked anew. -/
def State.goesOn (s : State) : Bool :=
  !s.stall && !s.pins.reset && (match s.issue? with
    | some i => s.mayIssue i && !i.p.waiting
    | none => false)

/-- ONE STEP. -/
def step (s : State) : Host.Outcome State Fault Refusal :=
  match s.schedule with
  | m :: rest => stepMove m { s with schedule := rest }
  | [] =>
    if s.goesOn then stepIssue s
    else match s.plan with
      | [] => .next s
      | m :: rest => stepMove m { s with schedule := rest }

/-- The machine with an instruction's word where the next step takes it. -/
def State.withFetchWord (s : State) (nbits w : Nat) : State := s.withWord (BitVec.ofNat 64 (w % 2 ^ (min nbits 64)))

end Sys2Proof.Machine
end

