-- ==== Sys2Proof/Safety.lean ====
section
/-! DEFINITION. What a safe run is, and the terms in which claims about the machine are stated: when the word of a path may
issue, what its issue leaves alone, and what a result changes in a register file. -/

namespace Sys2Proof.Machine

/-! ## Safe runs -/

/-- A step is safe when it answers a next state: the machine has neither stopped nor met an instruction without a meaning. -/
def State.safe (s : State) : Prop := ∃ t, step s = .next t

/-! ## When a word may issue -/

/-- THE WORD OF ISSUE `i` MAY RUN, WHETHER OR NOT ITS CLUSTER IS HITCHED (R44, R58, R164, R211, R218, R222, R372, R379, R391): it is the
word of the path that issues, its wave is on its core, no copy or walk of the wave met uncorrectable data, none of its registers holds
any, no pending mark names one of `regs`, no span operation has still to read one of `held`, the span holds no token of a block of
`regs`, and the wave may run on beyond its checkpoint; a word whose effects reach beyond registers (`mem`) has no checkpoint and no
fence before it. -/
structure MayRun (s : State) (i : Issue) (mem : Bool) (regs held : List RegId) : Prop where
  here : s.issue? = some i
  onCore : s.running i.w = true
  copies : ∀ c ∈ s.copies, c.wave = i.w.uid → c.dead = false
  walks : ∀ k ∈ s.walks, k.wave = i.w.uid → k.dead = false
  marks : ∀ m ∈ i.w.marks, ∀ r ∈ m.regs, r ∉ regs
  reads : ∀ m ∈ i.w.reads, ∀ r ∈ m.regs, r ∉ held
  tokens : ∀ n, RegId.v n ∈ regs → i.w.spanHeld.getLsbD (n / 32) = false
  ahead : i.w.behind = true → mem = false ∧ i.w.beyond < 64
  fences : mem = true → i.w.fencing = false
  sound : i.w.rf.bad = []

/-- THE WORD OF ISSUE `i` RUNS NOW (R19, R157): it may run, and its cluster is not hitched. -/
structure Ready (s : State) (i : Issue) (mem : Bool) (regs held : List RegId) : Prop extends MayRun s i mem regs held where
  unhitched : s.hitchedAt i.w.core = false

/-- A WORD THAT MOVES PATHS RUNS NOW (R290): it needs the tokens of `toks` only, the registers it takes addresses from; no mark names what
it reads besides, `srcs`, or writes, `dests`. -/
structure ReadyPath (s : State) (i : Issue) (g : Guard) (toks srcs dests : List RegId) : Prop extends
    Ready s i false (g.regs ++ toks) dests where
  plain : ∀ m ∈ i.w.marks, ∀ r ∈ m.regs, r ∉ srcs ++ dests

/-! ## What the issue of a word leaves alone -/

/-- A cluster that only noted an issue (R334). -/
def Cluster.noted (a b : Cluster) : Prop := b = { a with issued := b.issued, ballast := b.ballast }

/-- A wave changed only where an issue of a register word may change it: its registers, its paths, the marks and flags of its
results, the count of words beyond its checkpoint, its place in its rotation, and a trap or a stop that waited for it. -/
def Wave.onlyIssue (a b : Wave) : Prop :=
  b = { a with
    rf := b.rf, paths := b.paths, marks := b.marks, bound := b.bound, trap := b.trap, beyond := b.beyond, turn := b.turn
    dbgWant := b.dbgWant }

/-- AFTER AN ISSUE THAT CONCERNS ONE WAVE'S REGISTERS AND PATHS: wave `w'` stands for the wave that issued; no other wave, no
byte of memory and no other part of the machine has changed, but for the notes of an issue. -/
structure Issued (s t : State) (i : Issue) (w' : Wave) : Prop where
  wave : t.wave? i.w.uid = some w'
  others : ∀ u, u ≠ i.w.uid → t.wave? u = s.wave? u
  rest : t = { s with waves := t.waves, clusters := t.clusters, fresh := t.fresh, used := t.used, mail := t.mail }
  memory : ∀ a, t.byteAt a = s.byteAt a
  clusters : ∀ n, Cluster.noted (s.cluster n) (t.cluster n)
  kept : Wave.onlyIssue i.w w'

/-- No trap and no stop waits for the issuing wave, and its path is not stepping. -/
def Issue.quiet (i : Issue) : Prop := i.w.trap.pend = none ∧ i.w.dbgWant = false ∧ i.p.step = false

/-- The path has moved past its word (R56), where no trap and no stop waited. -/
def Advanced (i : Issue) (w' : Wave) : Prop :=
  i.quiet → w'.trap = i.w.trap ∧ w'.dbgWant = false ∧ w'.paths = replacePath i.w.paths i.p.lanes [i.p.advance i.c]

/-- THE INSTRUCTION COMPLETES: `exec` answers a next state in which the issuing wave's registers are as `post` says, its path
stands past its word, and nothing else has changed. -/
def Completes (s : State) (i : Issue) (ins : Instr) (post : RegFile → Prop) : Prop :=
  ∃ t w', exec ins s = .next t ∧ Issued s t i w' ∧ Advanced i w' ∧ post w'.rf

/-! ## What a result changes in a register file (R40, R42, R47, R64, R65) -/

/-- Lane register `r` of lane `l` after a run of `n` registers at `d` is written in the lanes `q` with `f`, by register of the
run and lane. -/
def RegFile.laneAfter (rf : RegFile) (d : Dst) (n : Nat) (q : LaneMask) (f : Nat → Nat → Word) (r l : Nat) : Word :=
  match d with
  | .v m => if m.val ≤ r ∧ r < m.val + n ∧ q.getLsbD l = true then f (r - m.val) l else rf.vreg r l
  | .s _ | .zero => rf.vreg r l

/-- Scalar register `r` after it: a scalar run takes the value of the lowest lane of `q`, and nothing without a lane. -/
def RegFile.scalarAfter (rf : RegFile) (d : Dst) (n : Nat) (q : LaneMask) (f : Nat → Nat → Word) (r : Nat) : Word :=
  match d with
  | .s m => (match lowestLane q with
    | some l => if m.val ≤ r ∧ r < m.val + n then f (r - m.val) l else rf.sreg r
    | none => rf.sreg r)
  | .v _ | .zero => rf.sreg r

/-- A run of `n` registers at `d` is written in the lanes `q` with `f`; the discarding destination takes nothing. `fl` is ORed
into FPSTAT. No other register changes, and none comes to hold an error (R391). -/
structure WritesRun (rf rf' : RegFile) (d : Dst) (n : Nat) (q : LaneMask) (f : Nat → Nat → Word) (fl : BitVec 6) : Prop where
  lanes : ∀ r l, l < 32 → rf'.vreg r l = rf.laneAfter d n q f r l
  scalars : ∀ r, rf'.sreg r = rf.scalarAfter d n q f r
  rest : rf' = { rf with v := rf'.v, s := rf'.s, fpstat := rf.fpstat ||| fl, bad := rf'.bad }
  errors : ∀ x ∈ rf'.bad, x ∈ rf.bad

/-- The low and the high word of a 64-bit result (R65). -/
def halves (x : Word64) (k : Nat) : Word := if k = 0 then x.extractLsb' 0 32 else x.extractLsb' 32 32

/-- A predicate is written in the lanes `q`; a write to p7 is discarded. `fl` is ORed into FPSTAT. -/
structure WritesPred (rf rf' : RegFile) (n : Nat) (q : LaneMask) (f : Nat → Bool) (fl : BitVec 6) : Prop where
  preds : ∀ p l, l < 32 → rf'.pred p l = if p = n ∧ n ≠ 7 ∧ q.getLsbD l = true then f l else rf.pred p l
  rest : rf' = { rf with p := rf'.p, fpstat := rf.fpstat ||| fl }

/-- The lanes in which the guard of the issuing word is true (R63). -/
def Issue.lanes (i : Issue) (g : Guard) : LaneMask := qualify i.w.rf g i.p.lanes

/-- An operand of the issuing word in a lane. -/
def Issue.val (i : Issue) (a : Src) (l : Nat) : Word := a.read i.w.rf i.c.head.lit l
def Issue.val64 (i : Issue) (a : Src) (wd : Widen) (l : Nat) : Word64 := a.read64 i.w.rf i.c.head.lit wd l

/-- A result of one register, the same for every lane of a table row: the value and its flags from the lane's operands. -/
def Completes32 (s : State) (i : Issue) (g : Guard) (ins : Instr) (d : Dst) (v : Nat → Word × BitVec 6) : Prop :=
  Completes s i ins (fun rf => WritesRun i.w.rf rf d 1 (i.lanes g) (fun _ l => (v l).1) (orLanes (i.lanes g) (fun l => (v l).2)))

/-- A result of one register pair. -/
def Completes64 (s : State) (i : Issue) (g : Guard) (ins : Instr) (d : Dst) (v : Nat → Word64 × BitVec 6) : Prop :=
  Completes s i ins (fun rf =>
    WritesRun i.w.rf rf d 2 (i.lanes g) (fun k l => halves (v l).1 k) (orLanes (i.lanes g) (fun l => (v l).2)))

/-- A predicate result. -/
def CompletesPred (s : State) (i : Issue) (g : Guard) (ins : Instr) (d : Nat) (v : Nat → Bool × BitVec 6) : Prop :=
  Completes s i ins (fun rf => WritesPred i.w.rf rf d (i.lanes g) (fun l => (v l).1) (orLanes (i.lanes g) (fun l => (v l).2)))

/-- The flags of no lane of the word meet a trap enable of the wave's launch (R114). -/
def Untrapped (s : State) (i : Issue) (g : Guard) (fl : Nat → BitVec 6) : Prop :=
  ∀ l, (i.lanes g).getLsbD l = true → (fl l).extractLsb' 0 5 &&& (s.descOf i.w).trapEn = 0

/-- An exact integer as the nearest bound of a range, SATC where it lies outside, or as it is (R96, R120). -/
def boundedTo (lo hi t : Int) : Word × BitVec 6 :=
  if t < lo then (BitVec.ofInt 32 lo, 32) else if hi < t then (BitVec.ofInt 32 hi, 32) else (BitVec.ofInt 32 t, 0)

/-- Two's complement or natural reading of the low 24 bits (R121). -/
def mant24 (z : Bool) (x : Word) : Int := if z then (x.toNat % 2 ^ 24 : Nat) else (BitVec.ofNat 24 x.toNat).toInt

/-- S32 or Z32 (R120). -/
def num32 (z : Bool) (x : Word) : Int := if z then (x.toNat : Int) else x.toInt

/-! ## Where lanes go (R278, R282) -/

/-- Lane `l` stands at the clause header `pc`, inside no clause and not waiting. -/
def Wave.laneAt (w : Wave) (l : Nat) (pc : Word64) : Prop :=
  ∃ p ∈ w.paths, p.lanes.getLsbD l = true ∧ p.pc = pc ∧ p.entry = 0 ∧ p.clause = none ∧ p.waiting = false

/-- The other paths of the issuing wave keep their lanes and their place. -/
def OtherPathsStay (i : Issue) (w' : Wave) : Prop :=
  ∀ p ∈ i.w.paths, p.lanes &&& i.p.lanes = 0 → p.lanes ≠ 0 →
    ∃ p' ∈ w'.paths, p.lanes &&& ~~~p'.lanes = 0 ∧ p'.pc = p.pc ∧ p'.clause = p.clause ∧ p'.waiting = p.waiting

/-- THE TRANSFER IS MADE: every qualifying lane is at its target, every other lane of the path at the word after the clause. -/
def Transfers (i : Issue) (g : Guard) (target : Nat → Word64) (w' : Wave) : Prop :=
  (∀ l, l < 32 → i.p.lanes.getLsbD l = true → w'.laneAt l (if (i.lanes g).getLsbD l then target l else i.c.after))
    ∧ OtherPathsStay i w' ∧ w'.trap = i.w.trap

/-! ## Traps (R370, R377) -/

/-- A TRAP IS TAKEN for cause `code`: every unexited lane is on one path at HANDLER, TRAPCODE reads the cause, the lanes of the
issuing path keep trap point `pt`, and no other wave and no byte of memory has changed. -/
structure TrapTaken (s t : State) (i : Issue) (code : Nat) (pt : TrapPoint) (w' : Wave) : Prop where
  wave : t.wave? i.w.uid = some w'
  others : ∀ u, u ≠ i.w.uid → t.wave? u = s.wave? u
  rest : t = { s with waves := t.waves, mail := t.mail }
  memory : ∀ a, t.byteAt a = s.byteAt a
  mode : w'.trap.inHandler = true ∧ w'.trap.code = code ∧ w'.trap.cause = code ∧ w'.trap.returned = 0 ∧ w'.trap.pend = none
  points : ∀ l, l < 32 → i.p.lanes.getLsbD l = true → Map.find w'.trap.pts l = some pt
  path : ∃ p, w'.paths = [p] ∧ p.lanes = i.w.live ∧ p.pc = (s.descOf i.w).handler ∧ p.entry = 0 ∧ p.clause = none
  kept : w' = { i.w with rf := w'.rf, paths := w'.paths, trap := w'.trap }

/-- A user trap of the issuing word is taken at once: its wave has a handler and is not in it, no trap waits, some lane is
unexited, and every other path of the wave stands where a trap may be taken. -/
def Trappable (s : State) (i : Issue) : Prop :=
  i.w.trap.inHandler = false ∧ (s.descOf i.w).handler ≠ 0 ∧ i.w.trap.pend = none ∧ i.w.live ≠ 0
    ∧ ∀ p ∈ i.w.paths, p.lanes &&& i.p.lanes = 0 → p.atStop = true

/-! ## Operations that go on beside their wave (R57, R59, R372) -/

/-- The path moves past its word (R56), or waits at it (R279), for a generation of a barrier where it is known, or for a phase (R305). -/
def Issue.past (i : Issue) : List Path := [i.p.advance i.c]
def Issue.waits (i : Issue) (only : Bool) (gen : Option Nat) : List Path :=
  [{ i.p with waiting := true, waitOnly := only, gen := gen, phase := none }]
def Issue.waitsPhase (i : Issue) (off : Nat) (ph : Word) : List Path :=
  [{ i.p with waiting := true, waitOnly := false, gen := none, phase := some (off, ph) }]

/-- The operations bound to flags once operation `op` of the issuing word is bound to its flag (R57, R59). -/
def Issue.boundTo (i : Issue) (op : Nat) : List Bound :=
  match i.flag with
  | some f => i.w.bound ++ [⟨op, f⟩]
  | none => i.w.bound

/-- AFTER THE ISSUE OF A WORD THAT REACHES BEYOND REGISTERS: the wave that issued is `base` but for its paths, its place in its
rotation and a trap or a stop that waited; its path is replaced by `ps`; no other wave, no byte of memory and no other part of
the machine has changed, but for the notes of an issue. -/
structure Opened (s t : State) (i : Issue) (base : Wave) (ps : List Path) (w' : Wave) : Prop where
  wave : t.wave? i.w.uid = some w'
  others : ∀ u, u ≠ i.w.uid → t.wave? u = s.wave? u
  rest : t = { s with waves := t.waves, clusters := t.clusters, fresh := t.fresh, used := t.used, mail := t.mail }
  memory : ∀ a, t.byteAt a = s.byteAt a
  clusters : ∀ n, Cluster.noted (s.cluster n) (t.cluster n)
  kept : w' = { base with paths := w'.paths, trap := w'.trap, turn := w'.turn, dbgWant := w'.dbgWant }
  moved : i.quiet → w'.trap = i.w.trap ∧ w'.dbgWant = false ∧ w'.paths = replacePath i.w.paths i.p.lanes ps

/-- THE INSTRUCTION ISSUES: `exec` answers a next state in which its wave is `base`, with its path at `ps`. -/
def Opens (s : State) (i : Issue) (ins : Instr) (base : Wave) (ps : List Path) : Prop :=
  ∃ t w', exec ins s = .next t ∧ Opened s t i base ps w'

/-- The operation that the issuing word leaves in flight, with the operands it read. -/
def Issue.opened (i : Issue) (s : State) (ins : Instr) (q : LaneMask) (pieces : List Piece) (aux : List Nat) : Access :=
  { op := s.fresh, instr := ins, word := i.word, addr := i.addr, hdr := i.c.addr, mask := q, pieces := pieces, maps := []
    aux := aux, started := false }

/-- HOW A STORE OR REDUCTION ISSUES (R59, R211, R213, R243, R245, R343, R355, R367, R414), given as the operation `x` that its word makes.
In a scratchpad's space it runs on beside its wave. Elsewhere it is translated whole. Where all of it translates it runs on with its
translations or, behind a waybill that is not empty, enters the waybill, for which there must be room; a frame store does not wait for the
waybill. An atomic that the path cannot carry and a malformed IO access trap first; an address bound to no die traps; one that does not
translate enters the waybill with its fault, or traps on a postilion; one whose page is changing waits or enters the waybill. -/
structure StoreIssues (s : State) (i : Issue) (m : MemOp) (x : Access) : Prop where
  pad : m.space.mapped = false →
    Opens s i x.instr { i.w with ops := i.w.ops ++ [x], bound := i.boundTo s.fresh } i.past
  mapped : m.space.mapped = true →
    let want := m.want x.instr.atomic.isSome false
    let tr (p : Piece) : Tr := s.xlate i.w want p.addr
    let maps : List Mapped := x.pieces.filterMap (fun p => match tr p with | .ok y => some y | _ => none)
    let whole : Prop := maps.length = x.pieces.length
    let unbound : Bool := x.pieces.any (fun p => match tr p with | .unbound => true | _ => false)
    let bad (p : Piece) : Bool := match tr p with | .bad _ _ _ => true | _ => false
    let path : Bool := x.instr.atomic.any (fun o => maps.any (fun y => (s.pathCause m o y).isSome))
    let io : Bool := maps.any s.isIo && x.pieces.any (badIo m)
    let behind : Prop := i.w.waybill ≠ [] ∧ (m.space = .device ∨ m.space = .host)
    let room : Prop := i.w.waybillLoad < 8
    let billed : Wave := { i.w with waybill := i.w.waybill ++ [x] }
    (whole → path = false → io = false → ¬ behind → ∃ t w', exec x.instr s = .next t ∧ Opened { s with tlb := t.tlb } t i { i.w with
        ops := i.w.ops ++ [{ x with maps := maps }], bound := i.boundTo s.fresh } i.past w')
    ∧ (whole → path = false → io = false → behind → (room → Opens s i x.instr billed i.past) ∧ (¬ room → exec x.instr s = .next s))
    ∧ (whole → path = true → ∃ va sub, exec x.instr s = .next (s.atomicPath i.w sub va want i.word i.addr i.c.addr))
    ∧ (whole → path = false → io = true → exec x.instr s = .next (s.illegal i 0x16))
    ∧ (unbound = true → ∃ va, exec x.instr s = .next (s.accessFault i.w s.fresh va want .unbound i.word i.addr i.c.addr none))
    ∧ (unbound = false → x.pieces.any bad = true → i.w.post = none →
        (room → behind → Opens s i x.instr billed i.past)
        ∧ (room → ¬ behind → ∃ u w', ∃ p ∈ x.pieces, bad p = true ∧ Opened s u i billed i.past w'
            ∧ exec x.instr s = .next (u.accessFault w' s.fresh p.addr want (tr p) i.word i.addr i.c.addr none))
        ∧ (¬ room → exec x.instr s = .next s))
    ∧ (unbound = false → x.pieces.any bad = true → i.w.post ≠ none → ∃ p ∈ x.pieces, bad p = true
        ∧ exec x.instr s = .next (s.accessFault i.w s.fresh p.addr want (tr p) i.word i.addr i.c.addr none))
    ∧ (unbound = false → x.pieces.any bad = false → ¬ whole →
        (behind ∧ room → Opens s i x.instr billed i.past) ∧ (¬ (behind ∧ room) → exec x.instr s = .next s))

/-- A 16-bit generation number has moved past a ticket (R301, R307). -/
def movedPast (now ticket : Nat) : Prop := 0 < (BitVec.ofNat 16 now - BitVec.ofNat 16 ticket).toInt

end Sys2Proof.Machine
end

