-- ==== Sys2Proof/Certificates/Slice0/Obligations.lean ====
section
/-! DEFINITION. The statements about the machine, for the provers. Each says which rule of the manual it formalises. Statements
of one family share their quantifiers: `i` is the word that issues, `l` a lane. -/

open Sys2Proof Sys2Proof.Machine

/-- R120, R121, R124: the integer instructions of two sources. Each completes whenever its word may issue, writes its result in
every qualifying lane, and changes nothing else. -/
def Obligations.IntegerTwoSources : Prop :=
  ∀ (s : State) (i : Issue) (g : Guard) (d : Dst) (a b : Src) (z : Bool),
    Ready s i false (g.regs ++ (a.regs ++ b.regs) ++ d.regs) d.regs →
    ∀ row ∈ ([
      (.iadd g d a b .wrap, fun x y => (x + y, 0)),
      (.iadd g d a b .sat, fun x y => boundedTo (-(2 ^ 31)) (2 ^ 31 - 1) (x.toInt + y.toInt)),
      (.iadd g d a b .satZ, fun x y => boundedTo 0 (2 ^ 32 - 1) (x.toNat + y.toNat)),
      (.isub g d a b .wrap, fun x y => (x - y, 0)),
      (.isub g d a b .sat, fun x y => boundedTo (-(2 ^ 31)) (2 ^ 31 - 1) (x.toInt - y.toInt)),
      (.isub g d a b .satZ, fun x y => (BitVec.ofNat 32 (x.toNat - y.toNat), if x.toNat < y.toNat then 32 else 0)),
      (.imul24 g d a b z, fun x y => (BitVec.ofInt 32 (mant24 z x * mant24 z y), 0)),
      (.imul24h g d a b z, fun x y => (BitVec.ofInt 32 (mant24 z x * mant24 z y / 2 ^ 16), 0)),
      (.imul g d a b, fun x y => (BitVec.ofNat 32 (x.toNat * y.toNat), 0)),
      (.imulh g d a b z, fun x y => (BitVec.ofInt 32 (num32 z x * num32 z y / 2 ^ 32), 0)),
      (.imin g d a b z, fun x y => (if num32 z x ≤ num32 z y then x else y, 0)),
      (.imax g d a b z, fun x y => (if num32 z x ≤ num32 z y then y else x, 0)),
      (.shl g d a b, fun x y => (BitVec.ofNat 32 (x.toNat * 2 ^ min y.toNat 32), 0)),
      (.shr g d a b, fun x y => (BitVec.ofNat 32 (x.toNat / 2 ^ min y.toNat 32), 0)),
      (.sha g d a b, fun x y => (BitVec.ofInt 32 (x.toInt / 2 ^ min y.toNat 32), 0))
      ] : List (Instr × (Word → Word → Word × BitVec 6))),
      Completes32 s i g row.1 d (fun l => row.2 (i.val a l) (i.val b l))

/-- R120, R126: the integer instructions of one source. -/
def Obligations.IntegerOneSource : Prop :=
  ∀ (s : State) (i : Issue) (g : Guard) (d : Dst) (a : Src),
    Ready s i false (g.regs ++ a.regs ++ d.regs) d.regs →
    ∀ row ∈ ([
      (.ineg g d a false, fun x => (0 - x, 0)),
      (.ineg g d a true, fun x => if x = 0x80000000 then (0x7FFFFFFF, 32) else (0 - x, 0)),
      (.iabs g d a false, fun x => (if x.toInt < 0 then 0 - x else x, 0)),
      (.iabs g d a true, fun x => if x = 0x80000000 then (0x7FFFFFFF, 32) else (if x.toInt < 0 then 0 - x else x, 0)),
      (.brev g d a, fun x => (x.reverse, 0)),
      (.popc g d a, fun x => (BitVec.ofNat 32 ((List.range 32).countP (fun k => x.getLsbD k)), 0)),
      (.clz g d a, fun x => (BitVec.ofNat 32 ((List.range 32).countP (fun k => decide (x.toNat < 2 ^ k))), 0)),
      (.ctz g d a, fun x => (BitVec.ofNat 32 ((List.range 32).countP (fun k => decide (x.toNat % 2 ^ (k + 1) = 0))), 0))
      ] : List (Instr × (Word → Word × BitVec 6))),
      Completes32 s i g row.1 d (fun l => row.2 (i.val a l))

/-- R120, R121, R123, R124, R125, R126: the integer instructions of three and of four sources. -/
def Obligations.IntegerThreeSources : Prop :=
  (∀ (s : State) (i : Issue) (g : Guard) (d : Dst) (a b c : Src) (z : Bool) (t : BitVec 8),
    Ready s i false (g.regs ++ (a.regs ++ b.regs ++ c.regs) ++ d.regs) d.regs →
    ∀ row ∈ ([
      (.iadd3 g d a b c, fun x y w => x + y + w),
      (.imad24 g d a b c z, fun x y w => BitVec.ofInt 32 (mant24 z x * mant24 z y + w.toInt)),
      (.imad g d a b c, fun x y w => BitVec.ofNat 32 (x.toNat * y.toNat + w.toNat)),
      (.lop3 g d a b c t, fun x y w =>
        maskOf (fun k => t.getLsbD ((x.getLsbD k).toNat + 2 * (y.getLsbD k).toNat + 4 * (w.getLsbD k).toNat))),
      (.shf g d a b c false, fun x y w => BitVec.ofNat 32 ((y.toNat * 2 ^ 32 + x.toNat) / 2 ^ min w.toNat 64)),
      (.shf g d a b c true, fun x y w =>
        BitVec.ofNat 32 ((y.toNat * 2 ^ 32 + x.toNat) * 2 ^ min w.toNat 64 / 2 ^ 32)),
      (.bfe g d a b c false, fun x y w =>
        BitVec.ofNat 32 (x.toNat / 2 ^ min y.toNat 32 % 2 ^ min w.toNat (32 - min y.toNat 32))),
      (.bfe g d a b c true, fun x y w =>
        if min w.toNat (32 - min y.toNat 32) = 0 then 0
        else BitVec.ofInt 32 (BitVec.ofNat (min w.toNat (32 - min y.toNat 32)) (x.toNat / 2 ^ min y.toNat 32)).toInt),
      (.prmt g d a b c, fun x y w =>
        let src (j : Nat) : Nat := (y.toNat * 2 ^ 32 + x.toNat) / 256 ^ (w.toNat / 16 ^ j % 8) % 256
        let byte (j : Nat) : Nat := if w.toNat / 16 ^ j / 8 % 2 = 0 then src j else if src j < 128 then 0 else 255
        BitVec.ofNat 32 (byte 0 + byte 1 * 256 + byte 2 * 65536 + byte 3 * 16777216))
      ] : List (Instr × (Word → Word → Word → Word))),
      Completes32 s i g row.1 d (fun l => (row.2 (i.val a l) (i.val b l) (i.val c l), 0)))
  ∧ (∀ (s : State) (i : Issue) (g : Guard) (d : Dst) (a b c e : Src),
    Ready s i false (g.regs ++ (a.regs ++ b.regs ++ c.regs ++ e.regs) ++ d.regs) d.regs →
    Completes32 s i g (.bfi g d a b c e) d (fun l =>
      let p := min (i.val c l).toNat 32
      let n := min (i.val e l).toNat (32 - p)
      (maskOf (fun k => if p ≤ k ∧ k < p + n then (i.val a l).getLsbD (k - p) else (i.val b l).getLsbD k), 0)))

/-- R122, R123: compares and predicate logic write one predicate; p7 takes nothing. -/
def Obligations.IntegerPredicates : Prop :=
  (∀ (s : State) (i : Issue) (g : Guard) (d : Fin 8) (a b : Src) (c : PComb) (z : Bool),
    Ready s i false (g.regs ++ (a.regs ++ b.regs ++ predReg c.p) ++ predReg d) (predReg d) →
    ∀ k ∈ ([(.and, and), (.or, or), (.xor, xor)] : List (PCombine × (Bool → Bool → Bool))),
    ∀ row ∈ ([
      (.eq, fun x y => x == y), (.ne, fun x y => x != y), (.lt, fun x y => decide (x < y)), (.le, fun x y => decide (x ≤ y)),
      (.gt, fun x y => decide (y < x)), (.ge, fun x y => decide (y ≤ x))] : List (ICmp × (Int → Int → Bool))),
      CompletesPred s i g (.isetp g d a b c row.1 z k.1) d (fun l =>
        (k.2 (row.2 (num32 z (i.val a l)) (num32 z (i.val b l))) (i.w.rf.pred c.p l != c.neg), 0)))
  ∧ (∀ (s : State) (i : Issue) (g : Guard) (d a b c : Fin 8) (t : BitVec 8),
    Ready s i false (g.regs ++ (predReg a ++ predReg b ++ predReg c) ++ predReg d) (predReg d) →
    CompletesPred s i g (.plop3 g d a b c t) d (fun l =>
      (t.getLsbD ((i.w.rf.pred a l).toNat + 2 * (i.w.rf.pred b l).toNat + 4 * (i.w.rf.pred c l).toNat), 0)))

/-- R66, R123, R127, R128: selection, addresses, 64-bit addition and moves. -/
def Obligations.SelectMoveAddress : Prop :=
  ∀ (s : State) (i : Issue) (g : Guard) (d : Dst) (a b : Src) (c : PComb) (n : Fin 32) (z : Bool) (imm : BitVec 8),
    (Ready s i false (g.regs ++ (a.regs ++ b.regs ++ predReg c.p) ++ d.regs) d.regs →
      Completes32 s i g (.sel g d a b c false) d (fun l => (if i.w.rf.pcomb c l then i.val a l else i.val b l, 0)))
    ∧ (Ready s i false (g.regs ++ (a.regsRun 2 ++ b.regsRun 2 ++ predReg c.p) ++ d.regsRun 2) (d.regsRun 2) →
      Completes64 s i g (.sel g d a b c true) d (fun l => (if i.w.rf.pcomb c l then i.val64 a .zext l else i.val64 b .zext l, 0)))
    ∧ (Ready s i false (g.regs ++ (a.regsRun 2 ++ b.regs) ++ d.regsRun 2) (d.regsRun 2) →
      Completes64 s i g (.lea g d a b n z) d (fun l =>
        (i.val64 a .zext l + BitVec.ofInt 64 (num32 z (i.val b l) * 2 ^ n.val), 0)))
    ∧ (Ready s i false (g.regs ++ (a.regsRun 2 ++ b.regsRun 2) ++ d.regsRun 2) (d.regsRun 2) →
      Completes64 s i g (.iadd64 g d a b false) d (fun l => (i.val64 a .sext l + i.val64 b .sext l, 0))
      ∧ Completes64 s i g (.iadd64 g d a b true) d (fun l => (i.val64 a .sext l - i.val64 b .sext l, 0)))
    ∧ (Ready s i false (g.regs ++ a.regs ++ d.regs) d.regs →
      Completes32 s i g (.mov g d a false) d (fun l => (i.val a l, 0)))
    ∧ (Ready s i false (g.regs ++ a.regsRun 2 ++ d.regsRun 2) (d.regsRun 2) →
      Completes64 s i g (.mov g d a true) d (fun l => (i.val64 a .zext l, 0)))
    ∧ (Ready s i false (g.regs ++ [] ++ d.regs) d.regs →
      Completes32 s i g (.movi g d imm true) d (fun _ => (BitVec.ofNat 32 imm.toNat, 0))
      ∧ Completes32 s i g (.movi g d imm false) d (fun _ => (BitVec.ofInt 32 imm.toInt, 0)))

/-- R97, R101, R109: rounding. A value halfway goes to even, or toward 0, up or down, as the mode says, and the result is
inexact where a bit is lost. Every encoding of the seven formats that is no NaN stands for a value that rounds to that encoding
in every mode, exactly and without a flag. -/
def Obligations.Rounding : Prop :=
  (∀ (neg : Bool) (m k : Nat) (e : Int), 0 < k →
    let n (r : Rnd) : Nat := (roundAt r neg m e (e + k)).1
    (∀ r, (roundAt r neg m e (e + k)).2 = decide (m % 2 ^ k ≠ 0))
    ∧ (2 * (n .rne * 2 ^ k) ≤ 2 * m + 2 ^ k ∧ 2 * m ≤ 2 * (n .rne * 2 ^ k) + 2 ^ k)
    ∧ ((2 * (n .rne * 2 ^ k) = 2 * m + 2 ^ k ∨ 2 * m = 2 * (n .rne * 2 ^ k) + 2 ^ k) → n .rne % 2 = 0)
    ∧ n .rz = m / 2 ^ k
    ∧ n .rp = (if neg then m / 2 ^ k else (m + 2 ^ k - 1) / 2 ^ k)
    ∧ n .rm = (if neg then (m + 2 ^ k - 1) / 2 ^ k else m / 2 ^ k))
  ∧ (∀ f ∈ [fp64, fp32, fp16, bf16, e5m2, e4m3, e2m1], ∀ (r : Rnd) (x : Nat), x < 2 ^ (f.eb + f.mb + 1) →
    (f.value x).isNan = false → f.convert r false (f.value x) = { bits := x, fl := 0 })

/-- R114, R119, R131 to R133, R136: the FP32 instructions with one result. Where no flag of a qualifying lane is enabled as a
trap, each writes its result in every qualifying lane and ORs the flags of all of them into FPSTAT. -/
def Obligations.Float32 : Prop :=
  (∀ (s : State) (i : Issue) (g : Guard) (d : Dst) (a b : Src) (sm : Sys2Proof.SMod) (fm : FpMode),
    Ready s i false (g.regs ++ (a.regs ++ b.regs) ++ d.regs) d.regs →
    ∀ row ∈ ([
      (.fadd g d a b sm fm, fun x y => fp32.add fm.rnd fm.sat (fp32.modify sm.aa sm.na x) (fp32.modify sm.ab sm.nb y)),
      (.fmul g d a b sm fm, fun x y => fp32.mul fm.rnd fm.sat (fp32.modify sm.aa sm.na x) (fp32.modify sm.ab sm.nb y)),
      (.fmin g d a b sm, fun x y => fp32.minMax false (fp32.modify sm.aa sm.na x) (fp32.modify sm.ab sm.nb y)),
      (.fmax g d a b sm, fun x y => fp32.minMax true (fp32.modify sm.aa sm.na x) (fp32.modify sm.ab sm.nb y))
      ] : List (Instr × (Nat → Nat → FpRes))),
      Untrapped s i g (fun l => (row.2 (i.val a l).toNat (i.val b l).toNat).fl) →
      Completes32 s i g row.1 d (fun l =>
        (BitVec.ofNat 32 (row.2 (i.val a l).toNat (i.val b l).toNat).bits, (row.2 (i.val a l).toNat (i.val b l).toNat).fl)))
  ∧ (∀ (s : State) (i : Issue) (g : Guard) (d : Dst) (a b c : Src) (sm : Sys2Proof.SMod) (fm : FpMode),
    let r (l : Nat) : FpRes := fp32.fma fm.rnd fm.sat (fp32.modify sm.aa sm.na (i.val a l).toNat)
      (fp32.modify sm.ab sm.nb (i.val b l).toNat) (fp32.modify sm.ac sm.nc (i.val c l).toNat)
    Ready s i false (g.regs ++ (a.regs ++ b.regs ++ c.regs) ++ d.regs) d.regs → Untrapped s i g (fun l => (r l).fl) →
      Completes32 s i g (.ffma g d a b c sm fm) d (fun l => (BitVec.ofNat 32 (r l).bits, (r l).fl)))
  ∧ (∀ (s : State) (i : Issue) (g : Guard) (d : Dst) (a : Src) (rnd : Rnd),
    Ready s i false (g.regs ++ a.regs ++ d.regs) d.regs →
      (Untrapped s i g (fun l => (fp32.roundIntegral rnd (i.val a l).toNat).fl) →
        Completes32 s i g (.frnd g d a rnd false) d (fun l =>
          (BitVec.ofNat 32 (fp32.roundIntegral rnd (i.val a l).toNat).bits, (fp32.roundIntegral rnd (i.val a l).toNat).fl)))
      ∧ Completes32 s i g (.fclass g d a false) d (fun l => (BitVec.ofNat 32 (fp32.classify (i.val a l).toNat), 0)))

/-- R66, R114, R119, R131, R132, R135, R136: the FP64 instructions with one result, over register pairs; a literal is the upper
word. -/
def Obligations.Float64 : Prop :=
  (∀ (s : State) (i : Issue) (g : Guard) (d : Dst) (a b : Src) (sm : Sys2Proof.SMod) (fm : FpMode),
    let x (l : Nat) : Nat := fp64.modify sm.aa sm.na (i.val64 a .fp l).toNat
    let y (l : Nat) : Nat := fp64.modify sm.ab sm.nb (i.val64 b .fp l).toNat
    Ready s i false (g.regs ++ (a.regsRun 2 ++ b.regsRun 2) ++ d.regsRun 2) (d.regsRun 2) →
    ∀ row ∈ ([(.dadd g d a b sm fm, fun l => fp64.add fm.rnd fm.sat (x l) (y l)),
      (.dmul g d a b sm fm, fun l => fp64.mul fm.rnd fm.sat (x l) (y l))] : List (Instr × (Nat → FpRes))),
      Untrapped s i g (fun l => (row.2 l).fl) →
      Completes64 s i g row.1 d (fun l => (BitVec.ofNat 64 (row.2 l).bits, (row.2 l).fl)))
  ∧ (∀ (s : State) (i : Issue) (g : Guard) (d : Dst) (a b c : Src) (sm : Sys2Proof.SMod) (fm : FpMode),
    let r (l : Nat) : FpRes := fp64.fma fm.rnd fm.sat (fp64.modify sm.aa sm.na (i.val64 a .fp l).toNat)
      (fp64.modify sm.ab sm.nb (i.val64 b .fp l).toNat) (fp64.modify sm.ac sm.nc (i.val64 c .fp l).toNat)
    Ready s i false (g.regs ++ (a.regsRun 2 ++ b.regsRun 2 ++ c.regsRun 2) ++ d.regsRun 2) (d.regsRun 2) →
    Untrapped s i g (fun l => (r l).fl) →
      Completes64 s i g (.dfma g d a b c sm fm) d (fun l => (BitVec.ofNat 64 (r l).bits, (r l).fl)))
  ∧ (∀ (s : State) (i : Issue) (g : Guard) (d : Dst) (a : Src) (rnd : Rnd),
    (Ready s i false (g.regs ++ a.regsRun 2 ++ d.regsRun 2) (d.regsRun 2) →
      Untrapped s i g (fun l => (fp64.roundIntegral rnd (i.val64 a .fp l).toNat).fl) →
      Completes64 s i g (.frnd g d a rnd true) d (fun l =>
        (BitVec.ofNat 64 (fp64.roundIntegral rnd (i.val64 a .fp l).toNat).bits,
          (fp64.roundIntegral rnd (i.val64 a .fp l).toNat).fl)))
    ∧ (Ready s i false (g.regs ++ a.regsRun 2 ++ d.regs) d.regs →
      Completes32 s i g (.fclass g d a true) d (fun l => (BitVec.ofNat 32 (fp64.classify (i.val64 a .fp l).toNat), 0))))

/-- R122, R134, R143: the floating-point compares write predicates: FSETP and DSETP one, HSETP2 the pair p(2n), p(2n + 1). -/
def Obligations.FloatCompares : Prop :=
  ∀ (s : State) (i : Issue) (g : Guard) (d : Fin 8) (e : Fin 4) (a b : Src) (c : PComb) (cmp : FCompare),
  ∀ k ∈ ([(.and, and), (.or, or), (.xor, xor)] : List (PCombine × (Bool → Bool → Bool))),
    let test (f : Fmt) (x y : Nat) : Bool × BitVec 6 := f.compare cmp.cmp (f.modify cmp.aa false x) (f.modify cmp.ab false y)
    let q (l : Nat) : Bool := i.w.rf.pcomb c l
    let single (l : Nat) : Bool × BitVec 6 := test fp32 (i.val a l).toNat (i.val b l).toNat
    let double (l : Nat) : Bool × BitVec 6 := test fp64 (i.val64 a .fp l).toNat (i.val64 b .fp l).toNat
    (Ready s i false (g.regs ++ (a.regs ++ b.regs ++ predReg c.p) ++ predReg d) (predReg d) →
      Untrapped s i g (fun l => (single l).2) →
      CompletesPred s i g (.fsetp g d a b c cmp k.1) d (fun l => (k.2 (single l).1 (q l), (single l).2)))
    ∧ (Ready s i false (g.regs ++ (a.regsRun 2 ++ b.regsRun 2 ++ predReg c.p) ++ predReg d) (predReg d) →
      Untrapped s i g (fun l => (double l).2) →
      CompletesPred s i g (.dsetp g d a b c cmp k.1) d (fun l => (k.2 (double l).1 (q l), (double l).2)))
    ∧ (∀ row ∈ ([(.hsetp2F16 g e a b c cmp k.1, fp16), (.hsetp2Bf16 g e a b c cmp k.1, bf16)] : List (Instr × Fmt)),
      let half (l j : Nat) : Bool × BitVec 6 := test row.2 (elem 16 (i.val a l) j) (elem 16 (i.val b l) j)
      Ready s i false (g.regs ++ (a.regs ++ b.regs ++ predReg c.p) ++ (predReg (2 * e) ++ predReg (2 * e + 1)))
        (predReg (2 * e) ++ predReg (2 * e + 1)) →
      Untrapped s i g (fun l => (half l 0).2 ||| (half l 1).2) →
      Completes s i row.1 (fun rf => ∃ mid,
        WritesPred i.w.rf mid (2 * e) (i.lanes g) (fun l => k.2 (half l 0).1 (q l)) 0
        ∧ WritesPred mid rf (2 * e + 1) (i.lanes g) (fun l => k.2 (half l 1).1 (q l))
            (orLanes (i.lanes g) (fun l => (half l 0).2 ||| (half l 1).2))))

/-- R142 to R147: packed halves, integer and scaled dot products, SCALE. -/
def Obligations.PackedAndDotProducts : Prop :=
  (∀ (s : State) (i : Issue) (g : Guard) (d : Dst) (a b : Src) (sm : Sys2Proof.SMod) (fm : FpMode) (e8 : Option (Fin 4)),
    let m1 (f : Fmt) (x : Nat) : Nat := f.modify sm.aa sm.na x
    let m2 (f : Fmt) (x : Nat) : Nat := f.modify sm.ab sm.nb x
    let both (h : Nat → Nat → FpRes) (x y : Word) : Word × BitVec 6 :=
      (BitVec.ofNat 32 ((h (x.toNat % 65536) (y.toNat % 65536)).bits + 65536 * (h (x.toNat / 65536) (y.toNat / 65536)).bits),
        (h (x.toNat % 65536) (y.toNat % 65536)).fl ||| (h (x.toNat / 65536) (y.toNat / 65536)).fl)
    Ready s i false (g.regs ++ (a.regs ++ b.regs) ++ d.regs) d.regs →
    ∀ row ∈ ([
      (.hadd2F16 g d a b sm fm, both (fun x y => fp16.add fm.rnd fm.sat (m1 fp16 x) (m2 fp16 y))),
      (.hadd2Bf16 g d a b sm fm, both (fun x y => bf16.add fm.rnd fm.sat (m1 bf16 x) (m2 bf16 y))),
      (.hmul2F16 g d a b sm fm, both (fun x y => fp16.mul fm.rnd fm.sat (m1 fp16 x) (m2 fp16 y))),
      (.hmul2Bf16 g d a b sm fm, both (fun x y => bf16.mul fm.rnd fm.sat (m1 bf16 x) (m2 bf16 y))),
      (.hmin2F16 g d a b sm, both (fun x y => fp16.minMax false (m1 fp16 x) (m2 fp16 y))),
      (.hmin2Bf16 g d a b sm, both (fun x y => bf16.minMax false (m1 bf16 x) (m2 bf16 y))),
      (.hmax2F16 g d a b sm, both (fun x y => fp16.minMax true (m1 fp16 x) (m2 fp16 y))),
      (.hmax2Bf16 g d a b sm, both (fun x y => bf16.minMax true (m1 bf16 x) (m2 bf16 y))),
      (.scale g d a b e8 fm, fun x y => (scaleV e8 fm x y).w32)
      ] : List (Instr × (Word → Word → Word × BitVec 6))),
      Untrapped s i g (fun l => (row.2 (i.val a l) (i.val b l)).2) →
      Completes32 s i g row.1 d (fun l => row.2 (i.val a l) (i.val b l)))
  ∧ (∀ (s : State) (i : Issue) (g : Guard) (d : Dst) (a b c : Src) (sm : Sys2Proof.SMod) (fm : FpMode) (mix : Bool),
    let m1 (f : Fmt) (x : Nat) : Nat := f.modify sm.aa sm.na x
    let m2 (f : Fmt) (x : Nat) : Nat := f.modify sm.ab sm.nb x
    let m3 (f : Fmt) (x : Nat) : Nat := f.modify sm.ac sm.nc x
    let both (h : Nat → Nat → Nat → FpRes) (x y z : Word) : Word × BitVec 6 :=
      (BitVec.ofNat 32 ((h (x.toNat % 65536) (y.toNat % 65536) (z.toNat % 65536)).bits
          + 65536 * (h (x.toNat / 65536) (y.toNat / 65536) (z.toNat / 65536)).bits),
        (h (x.toNat % 65536) (y.toNat % 65536) (z.toNat % 65536)).fl
          ||| (h (x.toNat / 65536) (y.toNat / 65536) (z.toNat / 65536)).fl)
    let part (w : Nat) (z : Bool) (x : Word) (j : Nat) : Int :=
      if z then (x.toNat / 2 ^ (w * j) % 2 ^ w : Nat) else (BitVec.ofNat w (x.toNat / 2 ^ (w * j))).toInt
    let dot (n w : Nat) (z : Bool) (x y t : Word) : Int :=
      ((List.range n).map (fun j => part w z x j * part w (z != mix) y j)).foldl (fun p q => p + q) t.toInt
    Ready s i false (g.regs ++ (a.regs ++ b.regs ++ c.regs) ++ d.regs) d.regs →
    ∀ row ∈ ([
      (.hfma2F16 g d a b c sm fm, both (fun x y z => fp16.fma fm.rnd fm.sat (m1 fp16 x) (m2 fp16 y) (m3 fp16 z))),
      (.hfma2Bf16 g d a b c sm fm, both (fun x y z => bf16.fma fm.rnd fm.sat (m1 bf16 x) (m2 bf16 y) (m3 bf16 z))),
      (.dot4S8 g d a b c false mix, fun x y z => (BitVec.ofInt 32 (dot 4 8 false x y z), 0)),
      (.dot4Z8 g d a b c false mix, fun x y z => (BitVec.ofInt 32 (dot 4 8 true x y z), 0)),
      (.dot8S4 g d a b c false mix, fun x y z => (BitVec.ofInt 32 (dot 8 4 false x y z), 0)),
      (.dot8Z4 g d a b c false mix, fun x y z => (BitVec.ofInt 32 (dot 8 4 true x y z), 0)),
      (.dot4S8 g d a b c true mix, fun x y z => boundedTo (-(2 ^ 31)) (2 ^ 31 - 1) (dot 4 8 false x y z)),
      (.dot4Z8 g d a b c true mix, fun x y z => boundedTo (-(2 ^ 31)) (2 ^ 31 - 1) (dot 4 8 true x y z)),
      (.dot8S4 g d a b c true mix, fun x y z => boundedTo (-(2 ^ 31)) (2 ^ 31 - 1) (dot 8 4 false x y z)),
      (.dot8Z4 g d a b c true mix, fun x y z => boundedTo (-(2 ^ 31)) (2 ^ 31 - 1) (dot 8 4 true x y z))
      ] : List (Instr × (Word → Word → Word → Word × BitVec 6))),
      Untrapped s i g (fun l => (row.2 (i.val a l) (i.val b l) (i.val c l)).2) →
      Completes32 s i g row.1 d (fun l => row.2 (i.val a l) (i.val b l) (i.val c l)))
  ∧ (∀ (s : State) (i : Issue) (g : Guard) (d : Dst) (a b c : Src) (sa sb : Fin 4) (fm : FpMode),
    let scales (k : Nat) (j : Nat) (l : Nat) : Nat := elem 8 (c.readRun i.w.rf i.c.head.lit none l k) j
    Ready s i false (g.regs ++ (a.regs ++ b.regs ++ c.regsRun 2 ++ d.regs) ++ d.regs) d.regs →
    ∀ row ∈ ([
      (.dot4fE4m3 g d a b c sa sb fm, dotFV e4m3 4 8 fm), (.dot4fE5m2 g d a b c sa sb fm, dotFV e5m2 4 8 fm),
      (.dot8fE2m1 g d a b c sa sb fm, dotFV e2m1 8 4 fm)] : List (Instr × (Nat → Nat → Word → Word → Word → FpRes))),
      let r (l : Nat) : FpRes := row.2 (scales 0 sa l) (scales 1 sb l) (i.val a l) (i.val b l) (i.val (Dst.asSrc d) l)
      Untrapped s i g (fun l => (r l).fl) → Completes32 s i g row.1 d (fun l => (BitVec.ofNat 32 (r l).bits, (r l).fl)))

/-- R148 to R152: CVT writes its run of converted elements and, under .SR, each lane's next seed; PACK and UNPACK. -/
def Obligations.ConvertAndPack : Prop :=
  (∀ (s : State) (i : Issue) (g : Guard) (d : Dst) (a : Src) (dt st : CvtTy) (rnd : Rnd) (sat sr : Bool),
    let n := cvtCount dt st
    let v (l : Nat) : Nat × BitVec 6 × Word := cvtLane dt st rnd sat sr
      (runBits a (cvtRun n st.width) i.w.rf i.c.head.lit (cvtWiden st) l) (Map.get 1 i.w.rf.seed l)
    let seed : List RegId := if sr then [.seed] else []
    Ready s i false (g.regs ++ (a.regsRun (cvtRun n st.width) ++ seed) ++ (d.regsRun (cvtRun n dt.width) ++ seed))
      (d.regsRun (cvtRun n dt.width) ++ seed) →
    Untrapped s i g (fun l => (v l).2.1) →
      Completes s i (.cvt g d a dt st rnd sat sr) (fun rf =>
        WritesRun i.w.rf { rf with seed := i.w.rf.seed } d (cvtRun n dt.width) (i.lanes g)
          (fun k l => BitVec.ofNat 32 ((v l).1 / 2 ^ (32 * k))) (orLanes (i.lanes g) (fun l => (v l).2.1))
        ∧ ∀ l, l < 32 → Map.get 1 rf.seed l
            = if sr = true ∧ (i.lanes g).getLsbD l = true then (v l).2.2 else Map.get 1 i.w.rf.seed l))
  ∧ (∀ (s : State) (i : Issue) (g : Guard) (d : Dst) (a b c e : Src),
    (Ready s i false (g.regs ++ (a.regs ++ b.regs) ++ d.regs) d.regs →
      Completes32 s i g (.pack g d (.h16 a b)) d (fun l =>
        (BitVec.ofNat 32 ((i.val a l).toNat % 65536 + 65536 * ((i.val b l).toNat % 65536)), 0)))
    ∧ (Ready s i false (g.regs ++ (a.regs ++ b.regs ++ c.regs ++ e.regs) ++ d.regs) d.regs →
      Completes32 s i g (.pack g d (.b8 a b c e)) d (fun l =>
        (BitVec.ofNat 32 ((i.val a l).toNat % 256 + 256 * ((i.val b l).toNat % 256 + 256 * ((i.val c l).toNat % 256
          + 256 * ((i.val e l).toNat % 256)))), 0)))
    ∧ (Ready s i false (g.regs ++ a.regsRun 8 ++ d.regs) d.regs →
      let x (l k : Nat) : Word := a.readRun i.w.rf i.c.head.lit none l k
      let nib (f : Nat → Nat) : Word := BitVec.ofNat 32 ((List.range 8).foldl (fun t k => t + f k % 16 * 16 ^ k) 0)
      Completes32 s i g (.pack g d (.n4 a)) d (fun l => (nib (fun k => (x l k).toNat), 0))
      ∧ Completes32 s i g (.pack g d (.s4sat a)) d (fun l =>
          (nib (fun k => (max (-8) (min 7 (x l k).toInt) + 16).toNat),
            if (List.range 8).any (fun k => decide ((x l k).toInt < -8 ∨ 7 < (x l k).toInt)) then 32 else 0))
      ∧ Completes32 s i g (.pack g d (.z4sat a)) d (fun l =>
          (nib (fun k => min 15 (x l k).toNat), if (List.range 8).any (fun k => decide (15 < (x l k).toNat)) then 32 else 0))))
  ∧ (∀ (s : State) (i : Issue) (g : Guard) (d : Dst) (a : Src),
    ∀ row ∈ ([(.z16, 16, false), (.s16, 16, true), (.z8, 8, false), (.s8, 8, true), (.z4, 4, false), (.s4, 4, true)]
      : List (UnpackForm × Nat × Bool)),
      Ready s i false (g.regs ++ a.regs ++ d.regsRun (32 / row.2.1)) (d.regsRun (32 / row.2.1)) →
      Completes s i (.unpack g d a row.1) (fun rf => WritesRun i.w.rf rf d (32 / row.2.1) (i.lanes g) (fun k l =>
        let x : BitVec row.2.1 := BitVec.ofNat row.2.1 ((i.val a l).toNat / 2 ^ (row.2.1 * k))
        if row.2.2 then BitVec.ofInt 32 x.toInt else BitVec.ofNat 32 x.toNat) 0))

/-- R57, R153 to R156: the special functions write their result, the function's exact value rounded once, as every register
instruction does. Each completes in every state in which its word may issue and no trap is enabled, with one function of the
operand as its result, which has the special values and flags of the manual's table. That the fixed-point computation decides
every rounding is the model's reading (assumption log 10). -/
def Obligations.SpecialFunctions : Prop :=
  ∀ (s : State) (i : Issue) (g : Guard) (d : Dst) (a : Src),
    Ready s i false (g.regs ++ a.regs ++ d.regs) d.regs →
    (∀ row ∈ ([
      (.rcp g d a, rcpF), (.rsq g d a, rsqF), (.sqrt g d a, sqrtF), (.ex2 g d a, ex2F), (.lg2 g d a, lg2F), (.sin g d a, sinF),
      (.cos g d a, cosF), (.tanh g d a, tanhF)] : List (Instr × (Nat → FpRes))),
      Untrapped s i g (fun l => (row.2 (i.val a l).toNat).fl) →
      Completes32 s i g row.1 d (fun l =>
        (BitVec.ofNat 32 (row.2 (i.val a l).toNat).bits, (row.2 (i.val a l).toNat).fl)))
    ∧ ((s.descOf i.w).trapEn = 0 → ∀ row ∈ ([
      (.rcp g d a, [(0, 0x7F800000, 2), (0x80000000, 0xFF800000, 2), (0x7F800000, 0, 0), (0xFF800000, 0x80000000, 0),
        (1, 0x7F800000, 20), (0x7E800001, 0x007FFFFF, 24), (0x40000000, 0x3F000000, 0)]),
      (.rsq g d a, [(0, 0x7F800000, 2), (0x80000000, 0xFF800000, 2), (0x7F800000, 0, 0), (0xFF800000, 0x7FC00000, 1),
        (0xBF800000, 0x7FC00000, 1), (0x40800000, 0x3F000000, 0)]),
      (.sqrt g d a, [(0, 0, 0), (0x80000000, 0x80000000, 0), (0x7F800000, 0x7F800000, 0), (0xFF800000, 0x7FC00000, 1),
        (0xBF800000, 0x7FC00000, 1), (0x40800000, 0x40000000, 0)]),
      (.ex2 g d a, [(0, 0x3F800000, 0), (0x80000000, 0x3F800000, 0), (0x7F800000, 0x7F800000, 0), (0xFF800000, 0, 0),
        (0x43000000, 0x7F800000, 20), (0xC3480000, 0, 24), (0x40000000, 0x40800000, 0)]),
      (.lg2 g d a, [(0, 0xFF800000, 2), (0x80000000, 0xFF800000, 2), (0x7F800000, 0x7F800000, 0), (0xFF800000, 0x7FC00000, 1),
        (0xBF800000, 0x7FC00000, 1), (0x41000000, 0x40400000, 0)]),
      (.sin g d a, [(0, 0, 0), (0x80000000, 0x80000000, 0), (0x7F800000, 0x7FC00000, 1), (0xFF800000, 0x7FC00000, 1), (1, 1, 24)]),
      (.cos g d a, [(0, 0x3F800000, 0), (0x80000000, 0x3F800000, 0), (0x7F800000, 0x7FC00000, 1), (0xFF800000, 0x7FC00000, 1)]),
      (.tanh g d a, [(0, 0, 0), (0x80000000, 0x80000000, 0), (0x7F800000, 0x3F800000, 0), (0xFF800000, 0xBF800000, 0), (1, 1, 24)])]
      : List (Instr × List (Word × Word × BitVec 6))),
      ∃ f : Word → Word × BitVec 6, (∀ e ∈ row.2, f e.1 = e.2) ∧ f 0x7F800001 = (0x7FC00000, 1) ∧ f 0x7FC12345 = (0x7FC00000, 0)
        ∧ Completes32 s i g row.1 d (fun l => f (i.val a l)))

/-- R67, R68, R93: a pair word does in each half what the full instruction of its operation does, both halves reading their
operands before either writes. -/
def Obligations.PairWord : Prop :=
  (∀ (s : State) (i : Issue) (h1 h2 : PairHalf),
    let dst (h : PairHalf) : Dst := match h with | .empty => .zero | .op _ d _ _ => d
    let v (h : PairHalf) (l : Nat) : Word × BitVec 6 := halfVal h i.w.rf i.c.head.lit l
    Ready s i false ([] ++ (halfReads h1 ++ halfReads h2) ++ (halfWrites h1 ++ halfWrites h2)) (halfWrites h1 ++ halfWrites h2) →
    Untrapped s i .always (fun l => (v h1 l).2 ||| (v h2 l).2) →
      Completes s i (.pair h1 h2) (fun rf => ∃ mid,
        WritesRun i.w.rf mid (dst h1) 1 (i.lanes .always) (fun _ l => (v h1 l).1) 0
        ∧ WritesRun mid rf (dst h2) 1 (i.lanes .always) (fun _ l => (v h2 l).1)
            (orLanes (i.lanes .always) (fun l => (v h1 l).2 ||| (v h2 l).2))))
  ∧ (∀ (s : State) (i : Issue) (g : Guard) (d : Dst) (a b : Src),
    let plain : Sys2Proof.SMod := { na := false, nb := false, nc := false, aa := false, ab := false, ac := false }
    let rne : FpMode := { rnd := .rne, sat := false }
    let two : List (PairOp × Instr) := [
      (.iadd, .iadd g d a b .wrap), (.isub, .isub g d a b .wrap), (.imul24, .imul24 g d a b false),
      (.imul24h, .imul24h g d a b false), (.imin, .imin g d a b false), (.imax, .imax g d a b false), (.shl, .shl g d a b),
      (.shr, .shr g d a b), (.sha, .sha g d a b), (.fadd, .fadd g d a b plain rne), (.fmul, .fmul g d a b plain rne),
      (.fmin, .fmin g d a b plain), (.fmax, .fmax g d a b plain), (.hadd2F16, .hadd2F16 g d a b plain rne),
      (.hadd2Bf16, .hadd2Bf16 g d a b plain rne), (.hmul2F16, .hmul2F16 g d a b plain rne),
      (.hmul2Bf16, .hmul2Bf16 g d a b plain rne), (.hmin2F16, .hmin2F16 g d a b plain), (.hmin2Bf16, .hmin2Bf16 g d a b plain),
      (.hmax2F16, .hmax2F16 g d a b plain), (.hmax2Bf16, .hmax2Bf16 g d a b plain)]
    let one : List (PairOp × Instr) := [
      (.mov, .mov g d a false), (.ineg, .ineg g d a false), (.iabs, .iabs g d a false), (.brev, .brev g d a), (.popc, .popc g d a),
      (.clz, .clz g d a), (.ctz, .ctz g d a)]
    (Ready s i false (g.regs ++ (a.regs ++ b.regs) ++ d.regs) d.regs → ∀ row ∈ two,
      Untrapped s i g (fun l => (pairV row.1 (i.val a l) (i.val b l)).2) →
      Completes32 s i g row.2 d (fun l => pairV row.1 (i.val a l) (i.val b l)))
    ∧ (Ready s i false (g.regs ++ a.regs ++ d.regs) d.regs → ∀ row ∈ one,
      Completes32 s i g row.2 d (fun l => pairV row.1 (i.val a l) 0)))

/-- R292, R294: the shuffles. Lane `l` takes operand a of its source lane where that lane is in its segment and qualifies, and
its own otherwise; the predicate, where one is named, tells which. -/
def Obligations.Shuffles : Prop :=
  ∀ (s : State) (i : Issue) (g : Guard) (d : Dst) (a b : Src) (c : Option (Fin 8)) (wd : ShflWidth),
  ∀ w ∈ ([(.w32, 32), (.w16, 16), (.w8, 8), (.w4, 4), (.w2, 2), (.w1, 1)] : List (ShflWidth × Nat)), w.1 = wd →
  ∀ row ∈ ([
    (.shflIdx g d a b c wd, fun l n => (l - l % w.2 + n % w.2, true)),
    (.shflUp g d a b c wd, fun l n => (l - n, decide (n ≤ l % w.2))),
    (.shflDn g d a b c wd, fun l n => (l + n, decide (l % w.2 + n < w.2))),
    (.shflXor g d a b c wd, fun l n => (l ^^^ (n % 32), decide ((l ^^^ (n % 32)) / w.2 = l / w.2)))
    ] : List (Instr × (Nat → Nat → Nat × Bool))),
    let from_ (l : Nat) : Nat := (row.2 l (i.val b l).toNat).1
    let ok (l : Nat) : Bool := (row.2 l (i.val b l).toNat).2 && (i.lanes g).getLsbD (from_ l)
    let pred : List RegId := match c with | some p => predReg p | none => []
    Ready s i false (g.regs ++ (a.regs ++ b.regs) ++ (d.regs ++ pred)) (d.regs ++ pred) →
    Completes s i row.1 (fun rf => ∃ mid,
      WritesRun i.w.rf mid d 1 (i.lanes g) (fun _ l => if ok l then i.val a (from_ l) else i.val a l) 0
      ∧ WritesPred mid rf (match c with | some p => p.val | none => 7) (i.lanes g) ok 0)

/-- R295: votes and MATCH over the qualifying lanes. -/
def Obligations.Votes : Prop :=
  ∀ (s : State) (i : Issue) (g : Guard) (p : Fin 8) (d : Dst) (a : PComb) (x : Src),
    let q (l : Nat) : Bool := (i.lanes g).getLsbD l
    let t (l : Nat) : Bool := i.w.rf.pcomb a l
    let every (f : Nat → Bool) : Bool := (List.range 32).all f
    let some_ (f : Nat → Bool) : Bool := (List.range 32).any f
    (Ready s i false (g.regs ++ predReg a.p ++ predReg p) (predReg p) →
      CompletesPred s i g (.voteAny g p a) p (fun _ => (some_ (fun k => q k && t k), 0))
      ∧ CompletesPred s i g (.voteAll g p a) p (fun _ => (every (fun k => !q k || t k), 0))
      ∧ CompletesPred s i g (.voteEq g p a) p (fun _ => (every (fun k => !q k || t k) || every (fun k => !q k || !t k), 0)))
    ∧ (Ready s i false (g.regs ++ predReg a.p ++ d.regs) d.regs →
      Completes32 s i g (.voteBal g d a) d (fun _ => (maskOf (fun k => q k && t k), 0)))
    ∧ (Ready s i false (g.regs ++ x.regs ++ d.regs) d.regs →
      Completes32 s i g (.matchLanes g d x false) d (fun l => (maskOf (fun k => q k && i.val x k == i.val x l), 0)))
    ∧ (Ready s i false (g.regs ++ x.regsRun 2 ++ d.regs) d.regs →
      Completes32 s i g (.matchLanes g d x true) d (fun l =>
        (maskOf (fun k => q k && i.val64 x .zext k == i.val64 x .zext l), 0)))

/-- R296, R297: REDUX and SCAN fold the lanes in ascending order from the identity of the operation; the exclusive scan makes
no step for the highest lane. -/
def Obligations.ReductionsAndScans : Prop :=
  ∀ (s : State) (i : Issue) (g : Guard) (d : Dst) (a : Src),
    Ready s i false (g.regs ++ a.regs ++ d.regs) d.regs →
  ∀ row ∈ ([
    (.add, 0, fun x y => (x + y, 0)),
    (.min, 0x7FFFFFFF, fun x y => (if x.toInt ≤ y.toInt then x else y, 0)),
    (.minZ, 0xFFFFFFFF, fun x y => (if x.toNat ≤ y.toNat then x else y, 0)),
    (.max, 0x80000000, fun x y => (if x.toInt ≤ y.toInt then y else x, 0)),
    (.maxZ, 0, fun x y => (if x.toNat ≤ y.toNat then y else x, 0)),
    (.and, 0xFFFFFFFF, fun x y => (x &&& y, 0)), (.or, 0, fun x y => (x ||| y, 0)), (.xor, 0, fun x y => (x ^^^ y, 0)),
    (.fadd, 0x80000000, fun x y => (fp32.add .rne false x.toNat y.toNat).w32),
    (.fmin, 0x7F800000, fun x y => (fp32.minMax false x.toNat y.toNat).w32),
    (.fmax, 0xFF800000, fun x y => (fp32.minMax true x.toNat y.toNat).w32)
    ] : List (ReduxOp × Word × (Word → Word → Word × BitVec 6))),
    let fold (ls : List Nat) : Word := ls.foldl (fun x l => (row.2.2 x (i.val a l)).1) row.2.1
    let below (l : Nat) : List Nat := (lanesOf (i.lanes g)).filter (fun k => decide (k < l))
    let flagsOf (ls : List Nat) : BitVec 6 := ls.foldl (fun x l => x ||| (row.2.2 (fold (below l)) (i.val a l)).2) 0
    let all := lanesOf (i.lanes g)
    let trapFree (fl : BitVec 6) : Prop := fl.extractLsb' 0 5 &&& (s.descOf i.w).trapEn = 0
    (trapFree (flagsOf all) →
      Completes s i (.redux g d a row.1) (fun rf => WritesRun i.w.rf rf d 1 (i.lanes g) (fun _ _ => fold all) (flagsOf all))
      ∧ Completes s i (.scan g d a false row.1) (fun rf =>
          WritesRun i.w.rf rf d 1 (i.lanes g) (fun _ l => fold (below (l + 1))) (flagsOf all)))
    ∧ (trapFree (flagsOf all.dropLast) →
      Completes s i (.scan g d a true row.1) (fun rf =>
        WritesRun i.w.rf rf d 1 (i.lanes g) (fun _ l => fold (below l)) (flagsOf all.dropLast)))

/-- R45, R46, R47, R129: MOVS reads the special register its number names. What PASSC and FREQSTEP read on a postilion, outside
every cluster, is free within their widths; that its CTXID is the context which POST_CTX names and that its WAVEIDX, ROLE and
BUDGET are those of one wave of 192 registers is the model's choice (assumption log 87). -/
def Obligations.SpecialRegisterReads : Prop :=
  ∀ (s : State) (i : Issue) (g : Guard) (d : Dst) (num : Fin 256),
    let placed (n v bits : Nat) : Word := match i.w.post with
      | some site => Config.postSpecial site n &&& BitVec.ofNat 32 (2 ^ bits - 1)
      | none => BitVec.ofNat 32 v
    (Ready s i false (g.regs ++ specialRegs num ++ d.regs) d.regs →
      Completes s i (.movs g d num) (fun rf =>
        WritesRun i.w.rf { rf with timeHi := i.w.rf.timeHi } d 1 (i.lanes g) (fun _ l => s.special i.w i.p.lanes num l) 0
        ∧ rf.timeHi = if num = 0x30 ∧ i.lanes g ≠ 0 then BitVec.ofNat 32 (s.tick / 2 ^ 32) else i.w.rf.timeHi))
    ∧ (∀ l, l < 32 → ∀ row ∈ ([
      (0x00, BitVec.ofNat 32 l), (0x01, BitVec.ofNat 32 i.w.idx), (0x06, BitVec.ofNat 32 i.w.role),
      (0x07, BitVec.ofNat 32 i.w.budget), (0x08, i.p.lanes), (0x10, i.w.rf.fpstat.zeroExtend 32),
      (0x12, Map.get 1 i.w.rf.seed l), (0x18, placed 0x18 (s.cluster (i.w.core / 4)).passc 3),
      (0x1A, placed 0x1A (s.cluster (i.w.core / 4)).freq 5), (0x28, BitVec.ofNat 32 i.w.ctx),
      (0x30, BitVec.ofNat 32 (s.tick % 2 ^ 32)), (0x31, i.w.rf.timeHi),
      (0x38, BitVec.ofNat 32 (if i.w.trap.inHandler then i.w.trap.code else 0))
      ] : List (Nat × Word)), s.special i.w i.p.lanes row.1 l = row.2)

/-- R47, R111, R130, R365: MTS writes FPSTAT from the lowest qualifying lane and RNDSEED in every qualifying lane, a written 0
as 1; by a postilion, the registers of its site, whose reserved bits stay 0. -/
def Obligations.SpecialRegisterWrites : Prop :=
  ∀ (s : State) (i : Issue) (g : Guard) (a : Src) (num : Fin 256),
    Ready s i false (g.regs ++ a.regs ++ specialRegs num) (specialRegs num) →
    (num = 0x10 → Completes s i (.mts g a num) (fun rf =>
      rf = { i.w.rf with fpstat := match lowestLane (i.lanes g) with
        | some l => (i.val a l).extractLsb' 0 6
        | none => i.w.rf.fpstat }))
    ∧ (num = 0x12 → Completes s i (.mts g a num) (fun rf =>
      rf = { i.w.rf with seed := rf.seed }
      ∧ ∀ l, l < 32 → Map.get 1 rf.seed l = if (i.lanes g).getLsbD l = true then (if i.val a l = 0 then 1 else i.val a l)
          else Map.get 1 i.w.rf.seed l))
    ∧ (∀ site l v p, i.w.post = some site → lowestLane (i.lanes g) = some l → i.val a l = v → s.posts[site]? = some p →
      ∀ row ∈ ([
        (0x80, { p with siteReg := v.setWidth 4 }), (0x81, { p with ctx := v.toNat % 65536 }), (0x82, { p with event := v }),
          (0x83, { p with event := p.event &&& ~~~v }),
        (0x84, { p with fvaLo := v }), (0x85, { p with fvaHi := v }),
          (0x86, { p with finfo := v &&& ~~~0x7F001F00 })] : List (Nat × Post)),
        num.val = row.1 →
        ∃ t u w', exec (.mts g a num) s = .next t ∧ Issued s u i w' ∧ w'.rf = i.w.rf
          ∧ t = { u with posts := t.posts, waves := t.waves }
          ∧ t.wave? i.w.uid = some (if num.val = 0x81 then { w' with ctx := v.toNat % 65536 } else w')
          ∧ (∀ k, k ≠ i.w.uid → t.wave? k = s.wave? k)
          ∧ t.posts[site]? = some row.2 ∧ (∀ n, n ≠ site → t.posts[n]? = s.posts[n]?))

/-- R63: a word of an instruction that moves paths or reaches beyond registers, in which no lane qualifies, does nothing but let
its path move on. The words of register instructions have their statements for every set of lanes; those of the span, whose
checks are made whatever the guards, are in SpanWords. -/
def Obligations.NoLaneQualifies : Prop :=
  ∀ (s : State) (i : Issue) (g : Guard) (a b c : Src) (d : Dst) (oc : Option Src) (od : Option Dst) (at_ : Attr) (ls : LoadSize)
    (ss : StoreSize) (name : Fin 64) (j : Fin 16) (r r2 : Fin 192) (n : Fin 256) (o : AtomOp) (z : Fin 48) (l2 clu : Bool)
    (die : EnqDie) (e : PComb) (op : BlendOp) (rows : Fin 9), i.lanes g = 0 →
    let third (k : Nat) : List RegId := match oc with | some x => x.regsRun k | none => []
    let result : List RegId := match od with | some x => x.regs | none => []
    let k := if at_.bit2 then 2 else 1
    (∀ row ∈ ([
      (.bra g, [], [], []), (.brx g a, a.regsRun 2, [], []), (.ret g a, a.regsRun 2, [], []), (.join g j (some a), [], a.regs, []),
      (.waitj g j, [], [], []), (.dropj g j (some a), [], a.regs, []), (.yield g, [], [], []), (.nop g, [], [], []),
      (.call g r, [], [], vRun r 2), (.calli g r a, a.regsRun 2, [], vRun r 2)]
      : List (Instr × List RegId × List RegId × List RegId)),
      ReadyPath s i g row.2.1 row.2.2.1 row.2.2.2 → Completes s i row.1 (fun rf => rf = i.w.rf))
    ∧ (∀ row ∈ ([
      (.exit g, []), (.trap g n, []), (.bpt g n, []), (.rftResume g, []), (.rftTo g a, a.regsRun 2), (.gbarGrid g, []),
      (.gbarGang g, []), (.barArr g name a, a.regs), (.barWait g name, []), (.barSync g name a, a.regs),
      (.pbarArr g a b clu, a.regs ++ b.regs), (.pbarWait g od a b clu, a.regs ++ b.regs ++ result),
      (.ldf g d a b at_ ls, a.regs ++ b.regs ++ d.regsRun ls.regs), (.lds g d a b at_ ls, a.regs ++ b.regs ++ d.regsRun ls.regs),
      (.ldc g d a b at_ ls, a.regs ++ b.regs ++ d.regsRun ls.regs),
      (.ldg g d a b at_ ls, a.regsRun 2 ++ b.regs ++ d.regsRun ls.regs),
      (.ldt g d a b at_ ls, a.regsRun 2 ++ b.regs ++ d.regsRun ls.regs),
      (.ldh g d a b at_ ls, a.regsRun 2 ++ b.regs ++ d.regsRun ls.regs),
      (.stf g a b c at_ ss, a.regs ++ b.regs ++ c.regsRun ss.regs), (.sts g a b c at_ ss, a.regs ++ b.regs ++ c.regsRun ss.regs),
      (.stc g a b c at_ ss, a.regs ++ b.regs ++ c.regsRun ss.regs),
      (.stg g a b c at_ ss, a.regsRun 2 ++ b.regs ++ c.regsRun ss.regs),
      (.sth g a b c at_ ss, a.regsRun 2 ++ b.regs ++ c.regsRun ss.regs),
      (.ats g d a b oc at_ o, a.regs ++ b.regsRun k ++ third k ++ d.regsRun k),
      (.atc g d a b oc at_ o, a.regs ++ b.regsRun k ++ third k ++ d.regsRun k),
      (.atg g d a b oc at_ o, a.regsRun 2 ++ b.regsRun k ++ third k ++ d.regsRun k),
      (.ath g d a b oc at_ o, a.regsRun 2 ++ b.regsRun k ++ third k ++ d.regsRun k),
      (.redg g a b at_ o, a.regsRun 2 ++ b.regsRun k), (.redh g a b at_ o, a.regsRun 2 ++ b.regsRun k),
      (.pf g a b l2, a.regsRun 2 ++ b.regs),
      (.cpy g a b oc z .d2s clu, a.regsRun 2 ++ b.regs ++ Src.regsOpt oc ++ (Src.s z).regsRun 2),
      (.cpy g a b oc z .d2c clu, a.regsRun 2 ++ b.regs ++ Src.regsOpt oc ++ (Src.s z).regsRun 2),
      (.cpy g a b oc z .s2d clu, a.regs ++ b.regsRun 2 ++ Src.regsOpt oc ++ (Src.s z).regsRun 2),
      (.cpy g a b oc z .c2d clu, a.regs ++ b.regsRun 2 ++ Src.regsOpt oc ++ (Src.s z).regsRun 2),
      (.cpy g a b oc z .d2d clu, a.regsRun 2 ++ b.regsRun 2 ++ Src.regsOpt oc ++ (Src.s z).regsRun 2),
      (.cpyx g r b oc clu rows, vRun r 2 ++ b.regs ++ Src.regsOpt oc), (.synci g a b oc clu, a.regs ++ b.regs ++ Src.regsOpt oc),
      (.syncw g od a b clu, a.regs ++ b.regs ++ result), (.fence g at_, []), (.fenceXp g at_, []), (.fencePt g, []),
      (.publish g d a b c, a.regsRun 2 ++ b.regsRun 2 ++ c.regsRun 2 ++ d.regsRun 2),
      (.rastEmit g r z r2 e, vRun r 8 ++ (Src.s z).regsRun 2 ++ vRun r2 2 ++ predReg e.p), (.pixOrd g, []),
      (.pixLd g r, vRun r 2), (.pixBlend g r op, vRun r 4),
      (.enq g d a b c die clu, a.regsRun 2 ++ b.regs ++ c.regsRun 2 ++ d.regsRun 2), (.enqg g d a, a.regs ++ d.regs),
      (.savewC g, ctlRegs), (.restwC g, ctlRegs), (.savewV g r n, vRun r (8 * n)), (.restwV g r n, vRun r (8 * n)),
      (.savewS g a b, a.regs ++ b.regs), (.restwS g a b, a.regs ++ b.regs), (.yieldSaved g, [])] : List (Instr × List RegId)),
      Ready s i true (g.regs ++ row.2) row.2 → Completes s i row.1 (fun rf => rf = i.w.rf))

/-- R278, R281, R282: BRA goes to the header at its word offset, BRX and RET to the address in each lane; qualifying lanes go
there, the others to the word after the clause. A computed target that is not aligned is ILLEGAL 0x11 and no lane moves. -/
def Obligations.Branches : Prop :=
  ∀ (s : State) (i : Issue) (g : Guard) (a : Src), i.lanes g ≠ 0 →
  ∀ row ∈ ([
    (.bra g, [], fun _ => i.c.addr + 8 * i.c.head.lit.signExtend 64), (.brx g a, a.regsRun 2, fun l => i.val64 a .zext l),
    (.ret g a, a.regsRun 2, fun l => i.val64 a .zext l)] : List (Instr × List RegId × (Nat → Word64))),
    ReadyPath s i g row.2.1 [] [] →
    ((∀ l, l < 32 → (i.lanes g).getLsbD l = true → (row.2.2 l).toNat % 8 = 0) →
      ∃ t w', exec row.1 s = .next t ∧ Issued s t i w' ∧ w'.rf = i.w.rf ∧ (i.quiet → Transfers i g row.2.2 w'))
    ∧ ((∃ l, l < 32 ∧ (i.lanes g).getLsbD l = true ∧ (row.2.2 l).toNat % 8 ≠ 0) →
      ∃ w, exec row.1 s = .next (s.illegal { i with w := w } 0x11) ∧ w = { i.w with beyond := w.beyond })

/-- R87, R283: CALL and CALLI transfer like BRA and BRX and leave the address after the clause in their link pair, where the
budget word before each target is readable and fits the caller's budget; where one does not fit, the call traps with BUDGET at
its own word (assumption log 94 says what uncorrectable data in one does). A target that is not aligned is ILLEGAL 0x11. -/
def Obligations.Calls : Prop :=
  ∀ (s : State) (i : Issue) (g : Guard) (d : Fin 192) (a : Src), i.lanes g ≠ 0 →
  ∀ row ∈ ([
    (.call g d, [], fun _ => i.c.addr + 8 * i.c.head.lit.signExtend 64),
    (.calli g d a, a.regsRun 2, fun l => i.val64 a .zext l)] : List (Instr × List RegId × (Nat → Word64))),
    ReadyPath s i g row.2.1 [] (vRun d 2) →
    let aligned : Prop := ∀ l, l < 32 → (i.lanes g).getLsbD l = true → (row.2.2 l).toNat % 8 = 0
    let readable (l : Nat) (x : Word64) : Prop := ∃ pa, s.codeWord i.w (row.2.2 l - 8).toNat = .ok (x, pa)
      ∧ s.bad.contains (pa / 64) = false
    let fits (x : Word64) : Prop := 8 ≤ x.toNat ∧ x.toNat ≤ min 192 i.w.budget ∧ x.toNat % 8 = 0
    (aligned → (∀ l, l < 32 → (i.lanes g).getLsbD l = true → ∃ x, readable l x ∧ fits x) →
      ∃ t w', exec row.1 s = .next t ∧ Issued { s with filters := t.filters, tlb := t.tlb } t i w'
        ∧ WritesRun i.w.rf w'.rf (.v d) 2 (i.lanes g) (fun k _ => halves i.c.after k) 0 ∧ (i.quiet → Transfers i g row.2.2 w'))
    ∧ (aligned → (∀ l, l < 32 → (i.lanes g).getLsbD l = true → ∃ x, readable l x) →
      (∃ l x, l < 32 ∧ (i.lanes g).getLsbD l = true ∧ readable l x ∧ ¬ fits x) → Trappable s i → i.w.behind = false →
      ∃ t w', exec row.1 s = .next t ∧ w'.rf = i.w.rf
        ∧ TrapTaken { s with filters := t.filters, tlb := t.tlb } t i 5 { hdr := i.c.addr, idx := i.c.idx + 1, waitOnly := i.p.waitOnly } w')
    ∧ (¬ aligned → ∃ w, exec row.1 s = .next (s.illegal { i with w := w } 0x11) ∧ w = { i.w with beyond := w.beyond })

/-- R284, R285: JOIN adds lanes to a rejoin mask, DROPJ takes them from it and from those that have come, WAITJ counts the
named qualifying lanes as come. When every named lane has come or gone both masks are 0 and the lanes that wait for it go on. -/
def Obligations.RejoinMasks : Prop :=
  ∀ (s : State) (i : Issue) (g : Guard) (j : Fin 16) (a : Option Src), i.lanes g ≠ 0 →
    let m : LaneMask := match a with | none => i.lanes g | some x => i.val x ((lowestLane (i.lanes g)).getD 0)
    let named := i.w.rf.join j
    let came := i.w.rf.came j
    let gone := i.w.exited ||| ~~~i.w.exist
  ∀ row ∈ ([
    (.join g j a, Src.regsOpt a, (named ||| m) &&& ~~~gone, came), (.dropj g j a, Src.regsOpt a, named &&& ~~~m, came &&& ~~~m),
    (.waitj g j, [], named, came ||| (i.lanes g &&& named))] : List (Instr × List RegId × LaneMask × LaneMask)),
    ReadyPath s i g [] row.2.1 [] →
    let full : Bool := (row.2.2.1 &&& ~~~(row.2.2.2 ||| gone)) == 0
    ∃ t w', exec row.1 s = .next t ∧ Issued s t i w'
      ∧ w'.rf.join j = (if full then 0 else row.2.2.1) ∧ w'.rf.came j = (if full then 0 else row.2.2.2)
      ∧ (∀ k, k ≠ j.val → w'.rf.join k = i.w.rf.join k ∧ w'.rf.came k = i.w.rf.came k)
      ∧ w'.rf = { i.w.rf with j := w'.rf.j, a := w'.rf.a }
      ∧ (i.quiet → full = true → ∀ p ∈ i.w.paths, p.lanes &&& i.p.lanes = 0 → p.lanes ≠ 0 → p.waitsAt j = true →
          ∃ p' ∈ w'.paths, p.lanes &&& ~~~p'.lanes = 0 ∧ p'.waiting = false)

/-- R286, R287: EXIT ends its qualifying lanes, which leave every path and every rejoin mask; NOP only moves on, and YIELD
sends its wave to the back of its rotation when its clause has issued. -/
def Obligations.ExitYieldNop : Prop :=
  ∀ (s : State) (i : Issue) (g : Guard), i.lanes g ≠ 0 →
    (Ready s i true (g.regs ++ []) [] →
      ∃ t w', exec (.exit g) s = .next t ∧ t.wave? i.w.uid = some w' ∧ w'.exited = i.w.exited ||| i.lanes g
        ∧ (∀ p ∈ w'.paths, p.lanes &&& i.lanes g = 0) ∧ (∀ k, w'.rf.join k &&& i.lanes g = 0)
        ∧ w'.rf = { i.w.rf with j := w'.rf.j, a := w'.rf.a }
        ∧ (∀ u, u ≠ i.w.uid → t.wave? u = s.wave? u) ∧ (∀ x, t.byteAt x = s.byteAt x))
    ∧ (Ready s i false (g.regs ++ []) [] →
      Completes s i (.nop g) (fun rf => rf = i.w.rf)
      ∧ ∃ t w', exec (.yield g) s = .next t ∧ Issued s t i w' ∧ w'.rf = i.w.rf
        ∧ (i.c.idx + 1 = i.c.words.length → w'.turn = s.fresh ∧ t.fresh = s.fresh + 1))

/-- R73, R114, R115, R280, R288, R370, R377, R378: taking a user trap. TRAP and, where no debugger is attached, BPT trap at the
word after them: at once where every lane of the path qualifies or the clause ends there, and else when the other lanes, which
go on as a path of their own, have stopped; an FADD whose flags meet an enable traps at its own word with the flags in FPSTAT
and no result; a word that names a register of a block whose token the span holds traps at its own word. Inside its handler a
wave takes no user trap but is ILLEGAL 0x1F; without a handler the trap is an uncontained fault. That a trap waits for the
wave's other paths to stop is the model's reading (assumption log 32). -/
def Obligations.UserTraps : Prop :=
  (∀ (s : State) (i : Issue) (g : Guard) (n : Fin 256) (d : Dst) (a b : Src) (sm : Sys2Proof.SMod) (fm : FpMode), Trappable s i →
    let here : TrapPoint := { hdr := i.c.addr, idx := i.c.idx + 1, waitOnly := i.p.waitOnly }
    let fl : BitVec 6 := orLanes (i.lanes g) (fun l => (fp32.add fm.rnd fm.sat (fp32.modify sm.aa sm.na (i.val a l).toNat)
      (fp32.modify sm.ab sm.nb (i.val b l).toNat)).fl)
    (Ready s i true (g.regs ++ []) [] → i.lanes g ≠ 0 →
      ∀ row ∈ ([(.trap g n, 3), (.bpt g n, 2)] : List (Instr × Nat)), (row.1 = .bpt g n → (s.descOf i.w).dbgAttach = false) →
      (i.lanes g = i.p.lanes ∨ i.c.idx + 1 = i.c.words.length →
        ∃ t w', exec row.1 s = .next t ∧ TrapTaken s t i row.2 (i.p.advance i.c).trapPoint w' ∧ w'.rf = i.w.rf)
      ∧ (i.lanes g ≠ i.p.lanes → i.c.idx + 1 < i.c.words.length → i.p.halted = false →
        ∃ t w', exec row.1 s = .next t ∧ t.wave? i.w.uid = some w' ∧ t = { s with waves := t.waves }
          ∧ (∀ u, u ≠ i.w.uid → t.wave? u = s.wave? u)
          ∧ w' = { i.w with paths := w'.paths, trap := { i.w.trap with pend := some row.2 } }
          ∧ (∃ p ∈ w'.paths, p.lanes = i.lanes g ∧ p.halted = true ∧ p.trapPoint = (i.p.advance i.c).trapPoint)
          ∧ ∃ p ∈ w'.paths, p.lanes = i.p.lanes &&& ~~~(i.lanes g) ∧ p.halted = false
              ∧ p.trapPoint = (i.p.advance i.c).trapPoint))
    ∧ (Ready s i false (g.regs ++ (a.regs ++ b.regs) ++ d.regs) d.regs → i.w.behind = false →
      fl.extractLsb' 0 5 &&& (s.descOf i.w).trapEn ≠ 0 →
      ∃ t w', exec (.fadd g d a b sm fm) s = .next t ∧ TrapTaken s t i 4 here w'
        ∧ w'.rf = { i.w.rf with fpstat := i.w.rf.fpstat ||| fl })
    ∧ (∀ r, RegId.v r ∈ g.regs ++ (a.regs ++ b.regs) ++ d.regs → i.w.spanHeld.getLsbD (r / 32) = true → i.w.behind = false →
      Ready { s with waves := s.waves.map (fun w => if w.uid = i.w.uid then { w with spanHeld := 0 } else w) }
        { i with w := { i.w with spanHeld := 0 } } false (g.regs ++ (a.regs ++ b.regs) ++ d.regs) d.regs → s.issue? = some i →
      ∃ t w', exec (.iadd g d a b .wrap) s = .next t ∧ TrapTaken s t i 6 here w' ∧ w'.rf = i.w.rf))
  ∧ (∀ (s : State) (i : Issue) (g : Guard) (n : Fin 256), Ready s i true (g.regs ++ []) [] → i.lanes g ≠ 0 →
    (i.w.trap.inHandler = true → exec (.trap g n) s = .next ((s.putWave i.w).illegal i 0x1F))
    ∧ (i.w.trap.inHandler = false → (s.descOf i.w).handler = 0 →
      exec (.trap g n) s = .next ((s.putWave i.w).uncontained i.w (s.reportAt i 3 0))))

/-- R289, R378: RFT returns qualifying lanes from the handler, RESUME each to its own trap point, TO each to an address; when
every unexited lane has returned the handler ends and TRAPCODE reads 0. A target that is not aligned is ILLEGAL 0x11, and else a
lane that is not in the handler ILLEGAL 0x1B. -/
def Obligations.ReturnFromTrap : Prop :=
  ∀ (s : State) (i : Issue) (g : Guard) (a : Src), i.lanes g ≠ 0 →
    let point (l : Nat) : TrapPoint := (Map.find i.w.trap.pts l).getD { hdr := 0, idx := 0, waitOnly := false }
    let inside : Prop := i.w.trap.inHandler = true ∧ i.lanes g &&& i.w.trap.returned = 0
    let ends (w' : Wave) : Prop := if i.w.live &&& ~~~(i.w.trap.returned ||| i.lanes g) = 0
      then w'.trap.inHandler = false ∧ w'.trap.code = 0
      else w'.trap.inHandler = true ∧ w'.trap.returned = i.w.trap.returned ||| i.lanes g
    let aligned (t : Nat → Word64) : Prop := ∀ l, l < 32 → (i.lanes g).getLsbD l = true → (t l).toNat % 8 = 0
    (Ready s i true (g.regs ++ []) [] →
      (inside → i.quiet → i.w.trap.preempt = false → aligned (fun l => (point l).hdr) →
        ∃ t w', exec (.rftResume g) s = .next t ∧ Issued s t i w' ∧ w'.rf = i.w.rf ∧ ends w'
          ∧ ∀ l, l < 32 → (i.lanes g).getLsbD l = true → ∃ p ∈ w'.paths, p.lanes.getLsbD l = true ∧ p.pc = (point l).hdr
            ∧ p.entry = (point l).idx ∧ p.waitOnly = (point l).waitOnly ∧ p.clause = none)
      ∧ (¬ aligned (fun l => (point l).hdr) → exec (.rftResume g) s = .next (s.illegal i 0x11))
      ∧ (¬ inside → aligned (fun l => (point l).hdr) → exec (.rftResume g) s = .next (s.illegal i 0x1B)))
    ∧ (Ready s i true (g.regs ++ a.regsRun 2) (a.regsRun 2) →
      (inside → i.quiet → i.w.trap.preempt = false → aligned (i.val64 a .zext) →
        ∃ t w', exec (.rftTo g a) s = .next t ∧ Issued s t i w' ∧ w'.rf = i.w.rf ∧ ends w'
          ∧ ∀ l, l < 32 → (i.lanes g).getLsbD l = true → w'.laneAt l (i.val64 a .zext l))
      ∧ (¬ aligned (i.val64 a .zext) → exec (.rftTo g a) s = .next (s.illegal i 0x11))
      ∧ (¬ inside → aligned (i.val64 a .zext) → exec (.rftTo g a) s = .next (s.illegal i 0x1B)))

/-- R288, R390, R421: BPT with a debugger attached stops its qualifying lanes at the word after it and reports an event of KIND
1. -/
def Obligations.Breakpoints : Prop :=
  ∀ (s : State) (i : Issue) (g : Guard) (n : Fin 256), Ready s i true (g.regs ++ []) [] → i.lanes g ≠ 0 → i.quiet →
    (s.descOf i.w).dbgAttach = true → (s.descOf i.w).stopScope = 0 →
    ∃ t w', exec (.bpt g n) s = .next t ∧ Issued s t i w' ∧ w'.rf = i.w.rf
      ∧ (∃ p ∈ w'.paths, p.lanes = i.lanes g ∧ p.dbg = true ∧ p.trapPoint = (i.p.advance i.c).trapPoint)
      ∧ t.mail.due = s.mail.due ++ [s.dbgEvent i.w 1 n (i.lanes g) (i.p.advance i.c).trapPoint.pc]

/-- R298, R299, R301: named barriers. The lanes of BAR.ARR and BAR.SYNC join the wave's arrival at the name; once they and the
lanes that are gone are all lanes, the arrival goes out to be counted. The path of BAR.ARR goes on, that of BAR.SYNC waits.
Lanes that have arrived already are held at the word until the generation completes. A count above the workgroup's waves, or
another than the wave's first at that name in the generation, is ILLEGAL 0x1C. A wait is for the generation of the wave's last
counted arrival, or the current one where it has none; while an arrival of the wave is not counted, or at BAR.SYNC its lanes'
arrival is not whole, the generation is not known and the path waits; once known to a waiting path it stays the same. That a
ticket half of all generations back counts as not passed is the model's choice (assumption log 99). -/
def Obligations.NamedBarriers : Prop :=
  (∀ (s : State) (i : Issue) (g : Guard) (n : Fin 64) (a : Src) (wg : Workgroup), i.lanes g ≠ 0 → s.wg? i.w.wg = some wg →
    Ready s i true (g.regs ++ a.regs) a.regs →
    let count := (i.val a ((lowestLane (i.lanes g)).getD 0)).toNat
    let before := Map.get 0 i.w.bar.mask n
    let freed := Map.get 0 i.w.bar.freed n
    let twice := before &&& ~~~freed
    let mask := before ||| i.lanes g
    let whole : Prop := mask ||| i.w.exited ||| ~~~i.w.exist = allLanes
    let gen := (Map.get Bar.zero wg.bars n).gen
    let first : FirstArrival := ((Map.find i.w.bar.first n).filter (fun f => f.gen == gen)).getD
      { gen := gen, count := count, addr := i.addr, hdr := i.c.addr, word := i.word }
    let joined : WaveBar := { i.w.bar with
      mask := Map.put 0 i.w.bar.mask n mask, first := Map.ins i.w.bar.first n first
      freed := Map.put 0 i.w.bar.freed n (freed &&& ~~~(i.lanes g)) }
    let again := Map.get 0 i.w.bar.again n
    ∀ row ∈ ([(.barArr g n a, i.past), (.barSync g n a, i.waits true none)] : List (Instr × List Path)),
      (row.1 = .barSync g n a → i.p.waitOnly = false) →
      (i.lanes g &&& twice ≠ 0 → exec row.1 s = .next (s.putWave { i.w with
        bar := { i.w.bar with again := Map.put 0 i.w.bar.again n (again ||| (i.lanes g &&& twice)) } }))
      ∧ (i.lanes g &&& twice = 0 → again &&& i.lanes g ≠ 0 → exec row.1 s = .next (s.putWave i.w))
      ∧ (i.lanes g &&& twice = 0 → again &&& i.lanes g = 0 → (∀ o ∈ i.w.ops, o.arrives ≠ some n.val) →
      (whole → (Map.get Bar.zero wg.bars n).held = true ∨ s.barEntries wg.core < 64) →
      (count ≤ wg.waves → first.count = count → ¬ whole → Opens s i row.1 { i.w with bar := joined } row.2)
      ∧ (count ≤ wg.waves → first.count = count → whole →
        Opens s i row.1 { i.w with
          bar := { joined with mask := Map.put 0 joined.mask n 0 }
          ops := i.w.ops ++ [{ op := s.fresh, instr := row.1, word := first.word, addr := first.addr, hdr := first.hdr, mask := mask
                               pieces := [], maps := [], aux := [first.count], started := false }] } row.2)
      ∧ (wg.waves < count ∨ first.count ≠ count → exec row.1 s = .next (s.illegal i 0x1C))))
  ∧ (∀ (s : State) (i : Issue) (g : Guard) (n : Fin 64) (a : Src) (wg : Workgroup), i.lanes g ≠ 0 → s.wg? i.w.wg = some wg →
    let gen := (Map.get Bar.zero wg.bars n).gen
    let uncounted : Bool := i.w.ops.any (fun o => o.arrives == some n.val)
    let last : Nat := if i.w.bar.arrived.getLsbD n then Map.get 0 i.w.bar.ticket n else gen
    let ticket (half : Bool) : Option Nat := match (if i.p.waiting then i.p.gen else none) with
      | some k => some k
      | none => if uncounted || half then none else some last
    let ended (half : Bool) : Prop := match ticket half with | some k => movedPast gen k | none => False
    (Ready s i true (g.regs ++ []) [] →
      (ended false → Opens s i (.barWait g n) i.w i.past)
      ∧ (¬ ended false → Opens s i (.barWait g n) i.w (i.waits false (ticket false))))
    ∧ (Ready s i true (g.regs ++ a.regs) a.regs → i.p.waitOnly = true →
      let half : Bool := (Map.get 0 i.w.bar.mask n &&& i.p.lanes) != 0
      (ended half → Opens s i (.barSync g n a) i.w i.past)
        ∧ (¬ ended half → Opens s i (.barSync g n a) i.w (i.waits true (ticket half)))))

/-- R299, R300, R301: an arrival whose release is performed is counted. It joins the generation in progress, which is the wave's
ticket, and for which the wave's paths wait that waited at the name; with a count it completes the generation where the count is
reached: the next generation begins at 0, the entry is free, and lanes of the workgroup that came twice at the name are held no
more. Another count than the generation's is ILLEGAL 0x1C. That an arrival is moved by a step that names its number is the
model's choice (assumption log 11). -/
def Obligations.BarrierGenerations : Prop :=
  ∀ (s : State) (w : Wave) (x : Access) (wg : Workgroup) (g : Guard) (n : Fin 64) (a : Src) (c : Nat),
    s.accessOf x.op = none → s.opOf x.op = some (w, x) → s.wave? w.uid = some w → s.wg? w.wg = some wg → wg.uid = w.wg →
    x.instr = .barArr g n a ∨ x.instr = .barSync g n a → x.aux = [c] → s.released w x.op 1 = true →
    w.mayPerform x.op x.mask true = true → s.powered w = true → w.live ≠ 0 → 0 < c →
    let b := Map.get Bar.zero wg.bars n
    (w.bar.arrived.getLsbD n = true → Map.get 0 w.bar.ticket n ≠ b.gen) → b.held = true ∨ s.barEntries wg.core < 64 →
    (b.count = 0 ∨ c = b.expect →
      ∃ t w' wg', exec (.accessPerformed (256 * x.op + 255)) s = .next t ∧ t.wave? w.uid = some w' ∧ t.wg? w.wg = some wg'
        ∧ Map.get 0 w'.bar.ticket n = b.gen ∧ w'.bar.arrived.getLsbD n = true ∧ w'.ops = w.ops.filter (fun o => o.op != x.op)
        ∧ w'.paths = w.paths.map (fun p => if p.gen = none ∧ p.barName = some n.val then { p with gen := some b.gen } else p)
        ∧ w'.rf = w.rf ∧ (∀ m, m ≠ n.val → Map.get Bar.zero wg'.bars m = Map.get Bar.zero wg.bars m)
        ∧ Map.get Bar.zero wg'.bars n = (if c ≤ b.count + 1 then { expect := c, count := 0, gen := (b.gen + 1) % 2 ^ 16, held := false }
            else { expect := c, count := b.count + 1, gen := b.gen, held := true })
        ∧ (∀ u, u ≠ w.uid → t.wave? u = if c ≤ b.count + 1 then (s.wave? u).map (fun v =>
              if v.wg = w.wg then { v with bar := { v.bar with
                again := Map.del v.bar.again n
                freed := Map.put 0 v.bar.freed n (Map.get 0 v.bar.freed n ||| Map.get 0 v.bar.again n) } } else v) else s.wave? u)
        ∧ w'.bar.again = (if c ≤ b.count + 1 then Map.del w.bar.again n else w.bar.again)
        ∧ Map.get 0 w'.bar.freed n = (if c ≤ b.count + 1 then Map.get 0 w.bar.freed n ||| Map.get 0 w.bar.again n
            else Map.get 0 w.bar.freed n)
        ∧ ∀ y, t.byteAt y = s.byteAt y)
    ∧ (b.count ≠ 0 → c ≠ b.expect → w.post = none →
      ∃ t, exec (.accessPerformed (256 * x.op + 255)) s = .next t
        ∧ s.reportOf w 0x22 0x1C x.word x.addr x.hdr ∈ t.reports)

/-- R303 to R305: phase words. PBAR.ARR goes out with its count, and when it is performed adds it to PB_COUNT, each time the
expected count is reached turning the phase; PBAR.WAIT waits while the phase is bit 0 of its operand, which a waiting path has
kept with the offset, and then writes the phase.
A word beyond the space is ILLEGAL 0x15, one that is not aligned 0x16, a count of 0 or above 65,535 0x1C. -/
def Obligations.PhaseBarriers : Prop :=
  (∀ (s : State) (i : Issue) (g : Guard) (d : Option Dst) (a b : Src) (clu : Bool), i.lanes g ≠ 0 →
    let l := (lowestLane (i.lanes g)).getD 0
    let off := (i.val a l).toNat
    let pad := (s.descOf i.w).scratch * 32768
    let size := if clu then 2 ^ (s.descOf i.w).gang * pad else pad
    let count := (i.val b l).toNat
    let counted : Prop := 1 ≤ count ∧ count ≤ 65535
    let args : Nat × Word := match (if i.p.waiting then i.p.phase else none) with
      | some x => x
      | none => (off, i.val b l)
    let phase := (s.padByte i.w clu (args.1 + 4)).getLsbD 0
    let regs : List RegId := match d with | some x => x.regs | none => []
    (Ready s i true (g.regs ++ (a.regs ++ b.regs)) (a.regs ++ b.regs) →
      (off + 8 ≤ size → off % 8 = 0 → counted → Opens s i (.pbarArr g a b clu) { i.w with ops := i.w.ops ++
        [i.opened s (.pbarArr g a b clu) (i.lanes g)
          [{ lane := l, addr := off, len := 8, x := [], y := [], got := [], done := false }] [count]] } i.past)
      ∧ (size < off + 8 → exec (.pbarArr g a b clu) s = .next (s.illegal i 0x15))
      ∧ (off + 8 ≤ size → off % 8 ≠ 0 → exec (.pbarArr g a b clu) s = .next (s.illegal i 0x16))
      ∧ (off + 8 ≤ size → off % 8 = 0 → ¬ counted → exec (.pbarArr g a b clu) s = .next (s.illegal i 0x1C)))
    ∧ (Ready s i true (g.regs ++ (a.regs ++ b.regs ++ regs)) (a.regs ++ b.regs ++ regs) →
      (args.1 + 8 ≤ size → args.1 % 8 = 0 → i.w.ops = [] →
        (phase = args.2.getLsbD 0 → Opens s i (.pbarWait g d a b clu) i.w (i.waitsPhase args.1 args.2))
        ∧ (phase ≠ args.2.getLsbD 0 → clu = false ∨ s.fusedAt i.w.core = true → ∃ rf,
          Opens s i (.pbarWait g d a b clu) { i.w with rf := rf } i.past
          ∧ WritesRun i.w.rf rf (d.getD .zero) 1 (i.lanes g) (fun _ _ => if phase then 1 else 0) 0))
      ∧ (size < args.1 + 8 → exec (.pbarWait g d a b clu) s = .next (s.illegal i 0x15))
      ∧ (args.1 + 8 ≤ size → args.1 % 8 ≠ 0 → exec (.pbarWait g d a b clu) s = .next (s.illegal i 0x16))))
  ∧ (∀ (bs : List Byte) (n : Nat), bs.length = 8 → 1 ≤ n →
    let expect := ofBytes (bs.take 2)
    let total := ofBytes ((bs.drop 2).take 2) + n
    let new := phaseArrive bs n
    new.take 2 = bs.take 2 ∧ new.drop 5 = bs.drop 5
      ∧ (expect = 0 → ofBytes ((new.drop 2).take 2) = total % 2 ^ 16 ∧ new.getD 4 0 = bs.getD 4 0)
      ∧ (expect ≠ 0 → ofBytes ((new.drop 2).take 2) = total % expect
          ∧ new.getD 4 0 = (if total / expect % 2 = 1 then bs.getD 4 0 ^^^ 1 else bs.getD 4 0)))

/-- R307, R308, R333: GBAR.GRID and GBAR.GANG. The lanes join the wave's arrival and its path waits; once they and the lanes
that are gone are all lanes, the arrival goes out to be counted. The path goes on, having acquired at device scope, once the
generation the wave joined has ended and, for the grid form, its cluster has been admitted; a wave whose gang was away from its
cores at the completion, or whose cluster took no part in it, goes on with the last cluster, which is the model's choice
(assumption log 46). -/
def Obligations.GridBarriers : Prop :=
  ∀ (s : State) (i : Issue) (g : Guard), i.lanes g ≠ 0 → Ready s i true (g.regs ++ []) [] →
    i.w.gbarPending = false →
    let mask := i.w.bar.gmask ||| i.lanes g
    let open_ (form : Bool) : Prop := ¬ (if form then i.w.bar.kcounted = true ∧ i.w.bar.kticket = s.gbarGen i.w true
      else i.w.bar.gcounted = true ∧ i.w.bar.gticket = s.gbarGen i.w false)
    let whole : Prop := mask ||| i.w.exited ||| ~~~i.w.exist = allLanes
    (∀ row ∈ ([(.gbarGrid g, false), (.gbarGang g, true)] : List (Instr × Bool)),
      i.p.waitOnly = false → i.w.bar.gmask &&& i.lanes g = 0 → (i.w.bar.gmask ≠ 0 → i.w.bar.gform = row.2) → open_ row.2 →
      (¬ whole → Opens s i row.1 { i.w with bar := { i.w.bar with gmask := mask, gform := row.2 } } (i.waits true none))
      ∧ (whole → Opens s i row.1 { i.w with
          bar := { i.w.bar with gmask := 0, gform := row.2 },
            ops := i.w.ops ++ [i.opened s row.1 mask [] []] } (i.waits true none)))
    ∧ (i.p.waitOnly = true → i.w.bar.gmask &&& i.p.lanes = 0 →
      let past (ins : Instr) : Prop := Opens s i ins { i.w with floor := s.fresh } i.past
      let stays (ins : Instr) : Prop := Opens s i ins i.w (i.waits true none)
      (i.w.bar.kcounted = false → stays (.gbarGang g))
      ∧ (i.w.bar.gcounted = false → stays (.gbarGrid g))
      ∧ (∀ x, s.gang? i.w.gang = some x → i.w.bar.kcounted = true →
        (movedPast x.gbarGen i.w.bar.kticket → past (.gbarGang g)) ∧ (¬ movedPast x.gbarGen i.w.bar.kticket → stays (.gbarGang g)))
      ∧ (∀ b, s.batch? i.w.batch = some b → i.w.bar.gcounted = true →
        (¬ movedPast b.gbarGen i.w.bar.gticket → stays (.gbarGrid g))
        ∧ (movedPast b.gbarGen i.w.bar.gticket → (∀ r, b.release = some r → r.gen ≠ (i.w.bar.gticket + 1) % 2 ^ 16) →
          past (.gbarGrid g))
        ∧ (movedPast b.gbarGen i.w.bar.gticket → ∀ r, b.release = some r → r.gen = (i.w.bar.gticket + 1) % 2 ^ 16 →
          let cluster := i.w.core / 4
          let admitted : Prop := if i.w.gang ∈ r.away ∨ cluster ∉ r.part then r.left = [] else cluster ∉ r.left
          (admitted → past (.gbarGrid g)) ∧ (¬ admitted → stays (.gbarGrid g)))))

/-- R307, R308, R309, R331, R333: a grid generation completes when every wave of the batch has arrived, which the command
processor counts, or exited, those of its retired and its saved gangs too, and 32 ticks have passed since the last counted
arrival; the clusters of a die are late against that die's earliest. It is then given out in steps of 5 ticks from the
completion, those that arrived latest first, to at most 8 clusters device-wide in a tick, batches of nodes that started earlier
first. A gang generation completes when every wave of the gang has arrived or exited. The tick of a completion within its bounds
is the model's choice (assumption log 46). -/
def Obligations.GridCompletions : Prop :=
  (∀ (s : State) (node seq : Nat) (b : Batch), s.batches.find? (fun x => x.node == node && x.seq == seq) = some b →
    let waves := b.desc.waveCount
    let there := (s.gangs.filter (fun g => g.batch == b.uid)).flatMap s.wavesOf
    let came := there.countP (fun w => s.over w || b.gbarCame.contains w.uid)
    let earliest (die : Nat) : Nat := (b.gbarArr.filter (fun x => x.1 / 8 == die)).foldl (fun m x => min m x.2) b.gbarLast
    let ready : Prop := b.gbarCame ≠ [] ∧ b.count * waves ≤ b.retired * b.desc.gangSize * waves + came ∧ b.gbarLast + 32 ≤ s.tick
      ∧ (∀ x ∈ b.gbarArr, 400 * (s.spokes.getD (x.1 / 8) .reset).intervals ≠ s.tick + 1)
      ∧ ∀ x ∈ s.batches, ∀ r, x.release = some r → r.tick ≠ s.tick ∨ r.step = 0
    (ready → ∃ (t : State) (b' : Batch) (r : Release) (order : List (Nat × Nat)), exec (.gbarGridComplete node seq) s = .next t
        ∧ t.batches.find? (fun x => x.node == node && x.seq == seq) = some b' ∧ b'.gbarGen = (b.gbarGen + 1) % 2 ^ 16
        ∧ b'.gbarCame = [] ∧ b'.release = some r ∧ r.tick = s.tick ∧ r.gen = b'.gbarGen ∧ r.step = 0 ∧ r.left = r.part
        ∧ order.Perm b.gbarArr ∧ r.part = order.map (fun x => x.1)
        ∧ order.Pairwise (fun x y => y.2 < x.2 ∨ (x.2 = y.2 ∧ x.1 ≤ y.1))
        ∧ (s.clusters.length = 64 → ∀ x ∈ b.gbarArr, ∀ c, c < 64 → c / 8 = x.1 / 8 → (t.cluster c).late =
            ((match Map.find b.gbarArr c with | some y => y - earliest (c / 8) | none => 0) :: (s.cluster c).late).take 4)
        ∧ t = { s with batches := t.batches, clusters := t.clusters, spokes := t.spokes })
    ∧ (¬ ready → exec (.gbarGridComplete node seq) s = .next s)
    ∧ (∀ r, b.release = some r → r.left ≠ [] → r.tick + 5 * r.step ≤ s.tick → s.batches.any s.gridDue = false →
      (∀ x ∈ s.batches, ∀ q, x.release = some q → q.left ≠ [] → q.tick + 5 * q.step ≤ s.tick →
        (s.releaseKey b).1 < (s.releaseKey x).1
          ∨ ((s.releaseKey b).1 = (s.releaseKey x).1 ∧ (s.releaseKey b).2 ≤ (s.releaseKey x).2)) →
      let used := if s.admitTick = s.tick then s.admitCount else 0
      let n := min r.left.length (8 - used)
      ∃ t b', exec (.gbarReleaseStep node seq) s = .next t
        ∧ t.batches.find? (fun x => x.node == node && x.seq == seq) = some b'
        ∧ b'.release = some { r with left := r.left.drop n, step := r.step + 1 } ∧ t.admitTick = s.tick ∧ t.admitCount = used + n
        ∧ t = { s with batches := t.batches, admitTick := t.admitTick, admitCount := t.admitCount })
    ∧ (∀ r, b.release = some r → r.left = [] ∨ s.tick < r.tick + 5 * r.step → exec (.gbarReleaseStep node seq) s = .next s))
  ∧ (∀ (s : State) (n : Nat) (x : Gang), s.gang? n = some x →
    let all := x.size * (match s.batch? x.batch with | some b => b.desc.waveCount | none => 0)
    let came := (s.wavesOf x).countP (fun w => s.over w || x.gbarCame.contains w.uid)
    let ready : Prop := x.gbarCame ≠ [] ∧ all ≤ came ∧ 400 * (s.spokes.getD (spokeOfCore x.core) .reset).intervals ≠ s.tick + 1
    (ready → ∃ t x', exec (.gbarGangComplete n) s = .next t ∧ t.gang? n = some x'
        ∧ x' = { x with gbarGen := (x.gbarGen + 1) % 2 ^ 16, gbarCame := [] }
        ∧ t = { s with gangs := t.gangs, clusters := t.clusters, spokes := t.spokes })
    ∧ (¬ ready → exec (.gbarGangComplete n) s = .next s))

/-- R48, R309: a completion enters one term for each cluster of a die: LATE_SUM is the saturating sum of the last four, and
RANK orders the die's clusters by it, 0 the greatest, ties to the lower cluster, so that no two have one rank. Other dies are
not touched. That RANK orders the saturated sums is the model's reading (assumption log 27). -/
def Obligations.LatenessRanks : Prop :=
  ∀ (s : State) (die : Nat) (term : Nat → Nat), die < 8 → s.clusters.length = 64 →
    let t := s.noteLate die term
    (∀ c, c < 8 →
      let x := t.cluster (8 * die + c)
      let y := s.cluster (8 * die + c)
      x.late = (term (8 * die + c) :: y.late).take 4 ∧ x.lateSum = min 0xFFFF x.late.sum
        ∧ x.rank = (List.range 8).countP (fun d => decide (x.lateSum < (t.cluster (8 * die + d)).lateSum
            ∨ (x.lateSum = (t.cluster (8 * die + d)).lateSum ∧ d < c)))
        ∧ x = { y with late := x.late, lateSum := x.lateSum, rank := x.rank })
    ∧ (∀ c d, c < 8 → d < 8 → c ≠ d → (t.cluster (8 * die + c)).rank ≠ (t.cluster (8 * die + d)).rank)
    ∧ (∀ n, n / 8 ≠ die → t.cluster n = s.cluster n)

/-- R182 to R184, R204, R205, R209, R210: the issue of the six loads. The load becomes its wave's outstanding access with the
pieces of its lanes' addresses, marks its destination, binds its flag, and the wave's checkpoint stands at it. An address
beyond the space is ILLEGAL 0x15; LDT takes aligned addresses only. -/
def Obligations.Loads : Prop :=
  ∀ (s : State) (i : Issue) (g : Guard) (d : Dst) (a b : Src) (at_ : Attr) (sz : LoadSize), i.lanes g ≠ 0 →
    let desc := s.descOf i.w
    let pad := desc.scratch * 32768
    let offset (l : Nat) : Nat := (i.val a l + i.val b l).toNat
    let address (l : Nat) : Nat := (i.val64 a .zext l + (i.val b l).signExtend 64).toNat
  ∀ row ∈ ([
    (.ldf g d a b at_ sz, .frame, a.regs, offset, some desc.framePerLane),
      (.lds g d a b at_ sz, .scratch, a.regs, offset, some pad),
    (.ldc g d a b at_ sz, .cluster, a.regs, offset, some (2 ^ desc.gang * pad)),
    (.ldg g d a b at_ sz, .device, a.regsRun 2, address, none), (.ldt g d a b at_ sz, .sampler, a.regsRun 2, address, none),
    (.ldh g d a b at_ sz, .host, a.regsRun 2, address, none)] : List (Instr × Space × List RegId × (Nat → Nat) × Option Nat)),
    let regs := row.2.2.1 ++ b.regs ++ d.regsRun sz.regs
    let addr := row.2.2.2.1
    let inside : Prop := ∀ n, row.2.2.2.2 = some n → ∀ l, l < 32 → (i.lanes g).getLsbD l = true → addr l + sz.bytes ≤ n
    let aligned : Prop := row.2.1 = .sampler → ∀ l, l < 32 → (i.lanes g).getLsbD l = true → addr l % sz.bytes = 0
    Ready s i true (g.regs ++ regs) regs →
      (inside → aligned → Opens s i row.1 { i.w with
        access := some (i.opened s row.1 (i.lanes g)
          (s.piecesOf i.w ⟨row.2.1, at_, sz.bytes⟩ (i.lanes g) addr (fun _ => []) (fun _ => [])) [])
        ckpt := some { rf := i.w.rf, paths := i.w.paths, op := s.fresh, bar := i.w.bar }
        marks := i.w.marks ++ [⟨s.fresh, d.regsRun sz.regs⟩], bound := i.boundTo s.fresh } i.past)
      ∧ (¬ inside → exec row.1 s = .next (s.illegal i 0x15))
      ∧ (¬ aligned → exec row.1 s = .next (s.illegal i 0x16))

/-- R182 to R184, R206, R209, R211, R243: the issue of the five stores: a store reads its operand's bytes in every lane and,
inside its space, issues as a store does; outside it is ILLEGAL 0x15. How a literal is widened for a 64-bit store is the model's
reading (assumption log 17). -/
def Obligations.Stores : Prop :=
  ∀ (s : State) (i : Issue) (g : Guard) (a b c : Src) (at_ : Attr) (sz : StoreSize), i.lanes g ≠ 0 →
    let desc := s.descOf i.w
    let pad := desc.scratch * 32768
    let offset (l : Nat) : Nat := (i.val a l + i.val b l).toNat
    let address (l : Nat) : Nat := (i.val64 a .zext l + (i.val b l).signExtend 64).toNat
    let data (l : Nat) : List Byte := match sz with
      | .b8 => toBytes 1 (i.val c l).toNat
      | .b16 => toBytes 2 (i.val c l).toNat
      | .b32 => toBytes 4 (i.val c l).toNat
      | .b64 => toBytes 8 (i.val64 c .zext l).toNat
      | .b128 => (List.range 4).flatMap (fun k => toBytes 4 (c.readRun i.w.rf i.c.head.lit none l k).toNat)
  ∀ row ∈ ([
    (.stf g a b c at_ sz, .frame, a.regs, offset, some desc.framePerLane),
      (.sts g a b c at_ sz, .scratch, a.regs, offset, some pad),
    (.stc g a b c at_ sz, .cluster, a.regs, offset, some (2 ^ desc.gang * pad)),
    (.stg g a b c at_ sz, .device, a.regsRun 2, address, none),
    (.sth g a b c at_ sz, .host, a.regsRun 2, address, none)] : List (Instr × Space × List RegId × (Nat → Nat) × Option Nat)),
    let regs := row.2.2.1 ++ b.regs ++ c.regsRun sz.regs
    let addr := row.2.2.2.1
    let inside : Prop := ∀ n, row.2.2.2.2 = some n → ∀ l, l < 32 → (i.lanes g).getLsbD l = true → addr l + sz.bytes ≤ n
    let x : Access := i.opened s row.1 (i.lanes g)
      (s.piecesOf i.w ⟨row.2.1, at_, sz.bytes⟩ (i.lanes g) addr data (fun _ => [])) []
    Ready s i true (g.regs ++ regs) regs →
      (inside → StoreIssues s i ⟨row.2.1, at_, sz.bytes⟩ x) ∧ (¬ inside → exec row.1 s = .next (s.illegal i 0x15))

/-- R184, R211 to R214: the issue of atomics, reductions and the prefetch. An atomic's address is A alone; it is aligned, else
ILLEGAL 0x16, and inside its space, else 0x15. A reduction issues as a store does. That a literal data operand of 64 bits is
widened is the model's reading (assumption log 17). -/
def Obligations.AtomicsAndPrefetch : Prop :=
  ∀ (s : State) (i : Issue) (g : Guard) (d : Dst) (a b : Src) (c : Option Src) (at_ : Attr) (o : AtomOp) (l2 : Bool),
    i.lanes g ≠ 0 →
    let desc := s.descOf i.w
    let pad := desc.scratch * 32768
    let len := if at_.bit2 then 8 else 4
    let offset (l : Nat) : Nat := (i.val a l).toNat
    let address (l : Nat) : Nat := (i.val64 a .zext l).toNat
    let widen : Widen := match o with
      | .min | .max => .sext
      | .fadd => .fp
      | _ => .zext
    let data (x : Src) (l : Nat) : List Byte := if at_.bit2 then toBytes 8 (i.val64 x widen l).toNat else toBytes 4 (i.val x l).toNat
    let second (l : Nat) : List Byte := match c with | some x => data x l | none => []
    let within (n : Option Nat) (addr : Nat → Nat) : Prop :=
      ∀ m, n = some m → ∀ l, l < 32 → (i.lanes g).getLsbD l = true → addr l + len ≤ m
    let aligned (addr : Nat → Nat) : Prop := ∀ l, l < 32 → (i.lanes g).getLsbD l = true → addr l % len = 0
    let third : List RegId := match c with | some x => x.regsRun (len / 4) | none => []
    (∀ row ∈ ([
      (.ats g d a b c at_ o, .scratch, a.regs, offset, some pad),
        (.atc g d a b c at_ o, .cluster, a.regs, offset, some (2 ^ desc.gang * pad)),
      (.atg g d a b c at_ o, .device, a.regsRun 2, address, none), (.ath g d a b c at_ o, .host, a.regsRun 2, address, none)]
      : List (Instr × Space × List RegId × (Nat → Nat) × Option Nat)),
      let regs := row.2.2.1 ++ b.regsRun (len / 4) ++ third ++ d.regsRun (len / 4)
      let addr := row.2.2.2.1
      Ready s i true (g.regs ++ regs) regs →
        (within row.2.2.2.2 addr → aligned addr → Opens s i row.1 { i.w with
          access := some (i.opened s row.1 (i.lanes g)
            (s.piecesOf i.w ⟨row.2.1, at_, len⟩ (i.lanes g) addr (data b) second) [])
          ckpt := some { rf := i.w.rf, paths := i.w.paths, op := s.fresh, bar := i.w.bar }
          marks := i.w.marks ++ [⟨s.fresh, d.regsRun (len / 4)⟩], bound := i.boundTo s.fresh } i.past)
        ∧ (¬ within row.2.2.2.2 addr → exec row.1 s = .next (s.illegal i 0x15))
        ∧ (within row.2.2.2.2 addr → ¬ aligned addr → exec row.1 s = .next (s.illegal i 0x16)))
    ∧ (∀ row ∈ ([(.redg g a b at_ o, .device), (.redh g a b at_ o, .host)] : List (Instr × Space)),
      let regs := a.regsRun 2 ++ b.regsRun (len / 4) ++ [] ++ []
      let x : Access := i.opened s row.1 (i.lanes g)
        (s.piecesOf i.w ⟨row.2, at_, len⟩ (i.lanes g) address (data b) (fun _ => [])) []
      Ready s i true (g.regs ++ regs) regs →
        (aligned address → StoreIssues s i ⟨row.2, at_, len⟩ x)
        ∧ (¬ aligned address → exec row.1 s = .next (s.illegal i 0x16)))
    ∧ (Ready s i true (g.regs ++ (a.regsRun 2 ++ b.regs)) (a.regsRun 2 ++ b.regs) → ∀ l, lowestLane (i.lanes g) = some l →
      Opens s i (.pf g a b l2) { i.w with
        ops := i.w.ops ++ [i.opened s (.pf g a b l2) (i.lanes g) [] [(i.val64 a .zext l + (i.val b l).signExtend 64).toNat]]
        bound := i.boundTo s.fresh } i.past)

/-- R201: an aligned access is one piece; another is split at the 16-byte boundary it crosses, if it crosses one. The pieces
cover it, in address order, and none crosses a boundary. -/
def Obligations.AccessPieces : Prop :=
  ∀ (a n : Nat), n ∈ [1, 2, 4, 8, 16] → a + n ≤ 2 ^ 64 →
    (a % n = 0 → splitAccess a n = [(a, n)])
    ∧ ((splitAccess a n).map (fun p => p.2)).sum = n
    ∧ (splitAccess a n).head?.map (fun p => p.1) = some a
    ∧ (∀ p ∈ splitAccess a n, 0 < p.2 ∧ p.1 / 16 = (p.1 + p.2 - 1) / 16)
    ∧ (∀ k, a ≤ k → k < a + n → ((splitAccess a n).filter (fun p => decide (p.1 ≤ k ∧ k < p.1 + p.2))).length = 1)
    ∧ (a / 16 = (a + n - 1) / 16 → splitAccess a n = [(a, n)])

/-- R192, R206, R207, R209, R212: a load, a store and an atomic of the scratchpad are performed there: LDS writes the bytes it
reads into its destination, STS its lanes' bytes, the lowest lane's last, and ATS reads and writes at once. No other byte of a
scratchpad, no device memory and no other wave changes. That an access is moved by a step that names its number is the model's
choice (assumption log 11). -/
def Obligations.ScratchAccesses : Prop :=
  ∀ (s : State) (w : Wave) (x : Access) (wg : Workgroup) (g : Guard) (d : Dst) (a b c : Src) (hint : Hint) (addr : Nat → Nat)
    (val : Nat → List Byte), s.wave? w.uid = some w → s.wg? w.wg = some wg → (∀ l, (val l).length = 4) → x.mask ≠ 0 →
    s.powered w = true → w.unconf = [] →
    let rlx : Attr := { scope := .wg, order := .rlx, bit2 := false, hint := hint }
    let piece (l : Nat) (y z : List Byte) : Piece := { lane := l, addr := addr l, len := 4, x := y, y := z, got := [], done := false }
    let read (r : State) (k : Nat) : Byte := r.padByte w false k
    let kept (t : State) (w' : Wave) : Prop :=
      t.wave? w.uid = some w' ∧ (∀ u, u ≠ w.uid → t.wave? u = s.wave? u) ∧ (∀ n, n ≠ w.wg → t.wg? n = s.wg? n)
        ∧ t.mem = s.mem ∧ t.schedule = s.schedule ∧ t.tick = s.tick
    (s.accessOf x.op = some (w, x) → w.ops = [] → x.instr = .lds g d a b rlx .b32 →
      x.pieces = (lanesOf x.mask).reverse.map (fun l => piece l [] []) →
      ∃ t w', exec (.accessPerformed (256 * x.op + 255)) s = .next t ∧ kept t w' ∧ (∀ k, read t k = read s k) ∧ w'.access = none
        ∧ (∀ m ∈ w'.marks, m.op ≠ x.op) ∧ (∀ m ∈ w'.bound, m.op ≠ x.op)
        ∧ WritesRun w.rf w'.rf d 1 x.mask (fun _ l => BitVec.ofNat 32 (ofBytes ((List.range 4).map (fun k => read s (addr l + k))))) 0)
    ∧ (s.accessOf x.op = none → s.opOf x.op = some (w, x) → w.ops = [x] → w.live ≠ 0 → x.instr = .sts g a b c rlx .b32 →
      x.pieces = (lanesOf x.mask).reverse.map (fun l => piece l (val l) []) →
      ∃ t w', exec (.accessPerformed (256 * x.op + 255)) s = .next t ∧ kept t w' ∧ w'.ops = [] ∧ w'.rf = w.rf
        ∧ (∀ k, read t k = match (lanesOf x.mask).find? (fun l => decide (addr l ≤ k ∧ k < addr l + 4)) with
          | some l => (val l).getD (k - addr l) 0
          | none => read s k))
    ∧ (∀ l o old, s.accessOf x.op = some (w, x) → w.ops = [] → x.mask = laneBit l → l < 32 → x.instr = .ats g d a b (some c) rlx o →
      x.pieces = [piece l (val 0) (val 1)] → old = (List.range 4).map (fun k => read s (addr l + k)) →
      ∃ t w', exec (.accessPerformed (256 * x.op + 255)) s = .next t ∧ kept t w' ∧ w'.access = none
        ∧ WritesRun w.rf w'.rf d 1 x.mask (fun _ _ => BitVec.ofNat 32 (ofBytes old)) 0
        ∧ (∀ k, read t k = if addr l ≤ k ∧ k < addr l + 4 then ((atomNew o 4 old (val 0) (val 1)).getD old).getD (k - addr l) 0
            else read s k))

/-- R212: what each atomic leaves in memory, over words and over doublewords; a compare that fails leaves nothing. -/
def Obligations.AtomicOperations : Prop :=
  ∀ (n m b y : Nat), n ∈ [4, 8] → m < 2 ^ (8 * n) → b < 2 ^ (8 * n) → y < 2 ^ (8 * n) →
    let sgn (x : Nat) : Int := if x < 2 ^ (8 * n - 1) then x else (x : Int) - 2 ^ (8 * n)
    let fp : Fmt := if n = 8 then fp64 else fp32
    let left (o : AtomOp) : Option Nat := (atomNew o n (toBytes n m) (toBytes n b) (toBytes n y)).map ofBytes
    left .add = some ((m + b) % 2 ^ (8 * n)) ∧ left .min = some (if sgn m ≤ sgn b then m else b) ∧ left .minZ = some (min m b)
      ∧ left .max = some (if sgn b ≤ sgn m then m else b) ∧ left .maxZ = some (max m b) ∧ left .and = some (m &&& b)
      ∧ left .or = some (m ||| b) ∧ left .xor = some (m ^^^ b) ∧ left .exch = some b
      ∧ left .cas = (if m = y then some b else none) ∧ left .fadd = some ((fp.add .rne false m b).bits % 2 ^ (8 * n))

/-- R191, R195, R209: a store that has passed its die reaches its home when its next stage is taken and nothing older of its
bytes stands before it: exactly its bytes are in device memory, and each sector it touches has the next version. That a store
is moved by a step that names its number is the model's choice (assumption log 11). -/
def Obligations.StoresReachHome : Prop :=
  ∀ (s : State) (x : Write), s.accessOf x.op = none → s.opOf x.op = none → s.billOf x.op = none →
    s.writes.filter (fun y => y.op == x.op) = [x] → s.writes.head? = some x → x.stage = 2 → x.frame = false → x.data ≠ [] →
    s.writes.count x = 1 →
    ∃ t, exec (.accessPerformed (256 * x.op + 255)) s = .next t
      ∧ (∀ a, t.byteAt a = if x.pa ≤ a ∧ a < x.pa + x.data.length then x.data.getD (a - x.pa) 0 else s.byteAt a)
      ∧ t.writes = s.writes.tail
      ∧ (∀ n, Map.get 0 t.vers n = if x.pa / 64 ≤ n ∧ n ≤ (x.pa + x.data.length - 1) / 64 then (Map.get 0 s.vers n + 1) % 2 ^ 32
          else Map.get 0 s.vers n)
      ∧ t.lines = s.lines ∧ t.wgs = s.wgs ∧ (∀ u, (t.wave? u).map (fun w => w.rf) = (s.wave? u).map (fun w => w.rf))

/-- R211, R215 to R219, R221 to R224, R226: the issue of copies, of sync-word instructions, of fences and of PUBLISH. A copy
goes on beside its wave with its operands, where its core has room for one more, once its descriptor is read at its home as the
home gives it; one whose descriptor is in uncorrectable error has stopped for good; a fence and the sync-word instructions as
operations of the wave, PUBLISH as its outstanding access. That PUBLISH is an outstanding access, and what the report of such a
descriptor carries, are the model's reading (assumption log 25, 82). -/
def Obligations.CopiesFencesPublish : Prop :=
  ∀ (s : State) (i : Issue) (g : Guard) (d : Dst) (od : Option Dst) (a b c : Src) (sync : Option Src) (desc : Fin 48) (shw clu : Bool)
    (n : Fin 192) (row : Fin 9) (at_ : Attr), i.lanes g ≠ 0 →
    let l := (lowestLane (i.lanes g)).getD 0
    let size (x : Bool) : Nat := if x then 2 ^ (s.descOf i.w).gang * ((s.descOf i.w).scratch * 32768) else (s.descOf i.w).scratch * 32768
    let word := sync.map (fun x => (i.val x l).toNat)
    let copy (ins : Instr) (src dst da : Nat) (rows : List (Nat × Nat)) (lv : Option (List (Nat × Int × Int))) : CopyOp :=
      { op := s.fresh, wave := i.w.uid, core := i.w.core, instr := ins, word := i.word, addr := i.addr, hdr := i.c.addr, src := src
        dst := dst, desc := da, sync := word, levels := lv, rows := rows, upto := 0, done := [], counted := 0, stopped := false
        dead := false, mask := i.lanes g }
    let starts (z : State) (ins : Instr) (x : CopyOp) : Prop := ∃ t w', exec ins s = .next t
      ∧ Opened { z with copies := s.copies ++ [x] } t i { i.w with bound := i.boundTo s.fresh } i.past w'
    let ends (ins : Instr) (aux : List Nat) (pieces : List Piece) : Wave :=
      { i.w with ops := i.w.ops ++ [i.opened s ins (i.lanes g) pieces aux], bound := i.boundTo s.fresh }
    let fits (x : Bool) : Prop := ∀ o, word = some o → o + 16 ≤ size x
    (∀ dir ∈ ([(.d2s, true, false, false), (.d2c, true, false, true), (.s2d, false, true, false), (.c2d, false, true, true),
        (.d2d, true, true, false)] : List (CpyDir × Bool × Bool × Bool)),
      let ins : Instr := .cpy g a b sync desc dir.1 shw
      let val (dev : Bool) (x : Src) : Nat := if dev then (i.val64 x .zext l).toNat else (i.val x l).toNat
      let da := (i.val64 (.s desc) .zext l).toNat
      let regs := (if dir.2.1 then a.regsRun 2 else a.regs) ++ (if dir.2.2.1 then b.regsRun 2 else b.regs) ++ Src.regsOpt sync
        ++ (Src.s desc).regsRun 2
      let plain (lv : Option (List (Nat × Int × Int))) := copy ins (val dir.2.1 a) (val dir.2.2.1 b) da [] lv
      let even : Prop := (plain none).src % 16 = 0 ∧ (plain none).dst % 16 = 0 ∧ (word.getD 0) % 16 = 0
      Ready s i true (g.regs ++ regs) regs → (s.mayCopy i.w = false → exec ins s = .next s)
        ∧ (s.mayCopy i.w = true →
          (∀ m, da % 64 = 0 → s.xlate i.w Want.copyRead da = .ok m → s.copyClear i.w s.fresh .device da 64 = true →
            let home := s.atHomeOf i.w da m
            (s.writes = [] → home.mem = s.mem ∧ home.copyBytes i.w m.pa 64 = s.bytesAt m.pa 64)
            ∧ (s.bad.contains (m.pa / 64) = false → ∀ lv, parseLoop (home.copyBytes i.w m.pa 64) 16 = some lv →
              let inside : Prop := s.copyFits i.w (plain (some lv)) = true ∧ fits dir.2.2.2
              (inside → even → starts home ins (plain (some lv))) ∧ (¬ inside → exec ins s = .next (s.illegal i 0x15))
                ∧ (inside → ¬ even → exec ins s = .next (s.illegal i 0x17)))
            ∧ (s.bad.contains (m.pa / 64) = false → parseLoop (home.copyBytes i.w m.pa 64) 16 = none →
                exec ins s = .next (s.illegal i 0x14))
            ∧ (s.bad.contains (m.pa / 64) = true → i.w.post = none → fits dir.2.2.2 → even →
                starts home ins { plain none with dead := true }))
          ∧ (da % 64 ≠ 0 → exec ins s = .next (s.illegal i 0x14))))
    ∧ (let ins : Instr := .cpyx g n b sync clu row
      let rows := (lanesOf (i.lanes g)).map (fun k => (k, (i.val64 (.v n) .zext k).toNat))
      let x := copy ins 0 (i.val b l).toNat 0 rows none
      let len := 16 * 2 ^ row.val
      let inside : Prop := ∀ k, k < 32 → (i.lanes g).getLsbD k = true → x.dst + k * len + len ≤ size clu
      let regs := vRun n 2 ++ b.regs ++ Src.regsOpt sync
      Ready s i true (g.regs ++ regs) regs → s.mayCopy i.w = true →
        (inside → fits clu → (∀ r ∈ rows, r.2 % 16 = 0) → x.dst % 16 = 0 → (word.getD 0) % 16 = 0 → starts s ins x)
        ∧ (¬ inside ∨ ¬ fits clu → exec ins s = .next (s.illegal i 0x15)))
    ∧ (let off := (i.val a l).toNat
      let at16 : Piece := { lane := l, addr := off, len := 16, x := [], y := [], got := [], done := false }
      let gen : List Nat := match sync with | some x => [(i.val x l).toNat % 2 ^ 16] | none => []
      let rd : List RegId := match od with | some x => x.regs | none => []
      (Ready s i true (g.regs ++ (a.regs ++ b.regs ++ Src.regsOpt sync)) (a.regs ++ b.regs ++ Src.regsOpt sync) →
        (off + 16 ≤ size clu → off % 16 = 0 →
          Opens s i (.synci g a b sync clu) (ends (.synci g a b sync clu) ((i.val b l).toNat :: gen) [at16]) i.past)
        ∧ (size clu < off + 16 → exec (.synci g a b sync clu) s = .next (s.illegal i 0x15))
        ∧ (off + 16 ≤ size clu → off % 16 ≠ 0 → exec (.synci g a b sync clu) s = .next (s.illegal i 0x17)))
      ∧ (Ready s i true (g.regs ++ (a.regs ++ b.regs ++ rd)) (a.regs ++ b.regs ++ rd) → off + 16 ≤ size clu → off % 16 = 0 →
        let base := ends (.syncw g od a b clu) [off, (i.val b l).toNat % 2 ^ 16, i.p.lanes.toNat] []
        Opens s i (.syncw g od a b clu)
          { base with marks := if rd = [] then i.w.marks else i.w.marks ++ [⟨s.fresh, rd⟩] } i.past))
    ∧ (Ready s i true (g.regs ++ []) [] → ∀ ins ∈ ([.fence g at_, .fenceXp g at_, .fencePt g] : List Instr),
        Opens s i ins (ends ins [] []) i.past)
    ∧ (let regs := a.regsRun 2 ++ b.regsRun 2 ++ c.regsRun 2 ++ d.regsRun 2
      let va := (i.val64 a .zext l).toNat
      Ready s i true (g.regs ++ regs) regs →
        (va % 8 = 0 → Opens s i (.publish g d a b c) { i.w with
          access := some (i.opened s (.publish g d a b c) (i.lanes g)
            [{ lane := l, addr := va, len := 8, x := toBytes 8 (i.val64 c .zext l).toNat, y := toBytes 8 (i.val64 b .zext l).toNat
               got := [], done := false }] [])
          ckpt := some { rf := i.w.rf, paths := i.w.paths, op := s.fresh, bar := i.w.bar }
          marks := i.w.marks ++ [⟨s.fresh, d.regsRun 2⟩], bound := i.boundTo s.fresh } i.past)
        ∧ (va % 8 ≠ 0 → exec (.publish g d a b c) s = .next (s.illegal i 0x16)))

/-- R88, R199, R200, R216: loop descriptors, the walk of a copy, sync words and a copy unit. A descriptor of one to five levels
reads as its bounds and strides; the iteration vectors of a walk count it, level 0 fastest; an arrival adds to the count and
each time the target is reached begins a generation. A unit of a copy in each of its five directions, the next in walk order,
moves its 16 bytes to its destination and counts them into the sync word, and changes nothing else. That they are counted at
once while the latitude list asks for nothing else is the model's choice (assumption log 2). -/
def Obligations.CopyUnits : Prop :=
  (∀ lv : List (Nat × Int × Int), lv ≠ [] → lv.length ≤ 5 →
    (∀ x ∈ lv, 0 < x.1 ∧ x.1 < 2 ^ 32 ∧ (∀ y ∈ [x.2.1, x.2.2], -(2 ^ 31) ≤ y ∧ y < 2 ^ 31 ∧ y % 16 = 0)) →
    (lv.map (fun x => x.1)).prod < 2 ^ 32 →
    let level (x : Nat × Int × Int) : List Byte :=
      toBytes 4 x.1 ++ toBytes 4 (BitVec.ofInt 32 x.2.1).toNat ++ toBytes 4 (BitVec.ofInt 32 x.2.2).toNat
    parseLoop (toBytes 1 lv.length ++ [0, 0, 0] ++ lv.flatMap level ++ List.replicate (12 * (5 - lv.length)) 0) 16 = some lv
    ∧ (∀ k, k < (lv.map (fun x => x.1)).prod →
        (vectorOf lv k).length = lv.length ∧ (∀ p ∈ (vectorOf lv k).zip lv, p.1 < p.2.1)
        ∧ ((vectorOf lv k).zip lv).foldr (fun p n => p.1 + p.2.1 * n) 0 = k))
  ∧ (∀ (bs : List Byte) (k : Nat), bs.length = 16 →
    let target := ofBytes (bs.take 4)
    let total := ofBytes ((bs.drop 4).take 4) + k
    let gen := ofBytes ((bs.drop 8).take 2)
    let new := syncArrive bs k
    new.length = 16 ∧ new.take 4 = bs.take 4 ∧ new.drop 10 = bs.drop 10
      ∧ ofBytes ((new.drop 4).take 4) = (if target = 0 then total % 2 ^ 32 else total % target)
      ∧ ofBytes ((new.drop 8).take 2) = (if target = 0 then gen else (gen + total / target) % 2 ^ 16))
  ∧ (∀ (s : State) (c : CopyOp) (w : Wave) (wg : Workgroup) (g : Guard) (a b y : Src) (desc : Fin 48) (shw : Bool) (so : Nat)
      (m md : Mapped) (bnd : Nat) (lv : List (Nat × Int × Int)),
    s.copies = [c] → s.walks = [] → s.wave? c.wave = some w → w.uid = c.wave → s.wg? w.wg = some wg → w.post = none → w.ops = [] →
    w.waybill = [] → s.writes = [] → s.lines = [] → s.powered w = true → w.unconf = [] → w.access = none → s.ptPend = [] →
      s.tlb = [] →
    (∀ x, s.gang? w.gang = some x → x.state = .resident) → s.filters = [] → c.dead = false → c.stopped = false →
    ∀ dir ∈ ([(.d2s, true, false, false), (.d2c, true, false, true), (.s2d, false, true, false), (.c2d, false, true, true),
      (.d2d, true, true, false)] : List (CpyDir × Bool × Bool × Bool)),
    c.instr = .cpy g a b (some y) desc dir.1 shw → c.sync = some so → c.rows = [] → c.levels = some lv →
    (lv.map (fun x => x.1)).prod = bnd → c.done = [] → c.counted = c.upto → c.upto < bnd → s.choices = [] →
    let size := (s.descOf w).scratch * 32768
    let clu := dir.2.2.2
    let seats : Prop := (s.wgs.map (fun x => x.uid)).Nodup ∧ if clu then ∀ k, k < 2 ^ (s.descOf w).gang →
        ∃ x, s.wgs.find? (fun x => x.gang == w.gang && x.member == k) = some x ∧ x.padBad = []
      else wg.padBad = []
    let src := ((c.src + strideSum lv (vectorOf lv c.upto) false) % 2 ^ (if dir.2.1 then 64 else 32)).toNat
    let dst := ((c.dst + strideSum lv (vectorOf lv c.upto) true) % 2 ^ (if dir.2.2.1 then 64 else 32)).toNat
    let data (k : Nat) : Byte := if dir.2.1 then s.byteAt (m.pa + k) else s.padByte w clu (src + k)
    let inside (o : Nat) : Prop := o + 16 ≤ (if clu then 2 ^ (s.descOf w).gang * size else size)
    seats → inside so → (dir.2.1 = true → s.xlate w Want.copyRead src = .ok m ∧ s.bad.contains (m.pa / 64) = false
      ∧ s.isIo m = false) →
    (dir.2.2.1 = true → s.xlate w (Want.copyWrite shw) dst = .ok md ∧ s.isIo md = false) →
    (dir.2.1 = false → inside src) → (dir.2.2.1 = false → inside dst ∧ (dst + 16 ≤ so ∨ so + 16 ≤ dst)) →
    ∃ t, exec (.copyUnit c.op c.upto) s = .next t
      ∧ (∀ x, t.byteAt x = if dir.2.2.1 = true ∧ md.pa ≤ x ∧ x < md.pa + 16 then data (x - md.pa) else s.byteAt x)
      ∧ (∀ k, inside k → t.padByte w clu k = if dir.2.2.1 = false ∧ dst ≤ k ∧ k < dst + 16 then data (k - dst)
          else if so ≤ k ∧ k < so + 16 then (syncArrive (s.padBytes w clu so 16) 16).getD (k - so) 0 else s.padByte w clu k)
      ∧ (c.upto + 1 < bnd → t.copies = [{ c with upto := c.upto + 1, counted := c.upto + 1 }])
      ∧ (c.upto + 1 = bnd → t.copies = [] ∧ ∃ w', t.wave? c.wave = some w' ∧ (∀ x ∈ w'.bound, x.op ≠ c.op) ∧ w'.rf = w.rf))

/-- R196, R222, R243, R350, R353, R373, R375, R419: steps of the memory system. A fault record goes to the tail of its ring, and
none while the ring is full or disabled; a
renewal confirms an unchanged value and renews the copy's lease from the request, and a changed one takes the wave back to its
checkpoint; the head of a waybill is performed
once it translates; a fence of device scope completes when every earlier access of its wave is performed there; a page-table
write completes and what was derived from the old entry is gone, accesses that used it being translated again. That a step names
the operation it moves, and the event numbers of grants, are the model's choice, and that a started access ends under the
translations it has its reading (assumption log 11, 19, 29). -/
def Obligations.MemorySystemSteps : Prop :=
  (∀ (s : State) (f : Filter) (c : Ctx) (r : FaultRing), s.filters.find? (fun x => x.id == f.id && !x.written && !x.replayed) = some f →
    s.ctx? f.ctx = some c → s.faultRings[c.faultRing]? = some r → r.enable = true → 6 ≤ r.sizeLog → r.sizeLog ≤ 16 →
    (r.tail + 1) % 2 ^ r.sizeLog ≠ r.head → s.writes = [] → f.id < 2 ^ 32 → f.ctx < 2 ^ 16 → f.access < 256 →
    f.page < 2 ^ 64 → f.pte < 2 ^ 64 → f.level < 8 → f.cause < 256 →
    let a := r.base + 64 * (r.tail % 2 ^ r.sizeLog)
    ∃ t, exec (.faultRecordWrite f.id) s = .next t
      ∧ t.numAt a 4 = 2 ^ 31 + (if f.rep then 2 ^ 30 else 0) + (if f.iter.isSome then 2 ^ 29 else 0) + f.cause * 2 ^ 16 + f.level * 2 ^ 13
      ∧ t.numAt (a + 0x04) 4 = f.id ∧ t.numAt (a + 0x08) 8 = f.page ∧ t.numAt (a + 0x10) 2 = f.ctx
      ∧ t.numAt (a + 0x12) 2 = min ((f.waiters.map (fun y => y.1)).eraseDups).length 0xFFFF
      ∧ t.numAt (a + 0x15) 1 = s.firstCore f % 256 ∧ t.numAt (a + 0x14) 1 = f.access ∧ t.numAt (a + 0x18) 8 = f.pte
      ∧ (∀ k, k < 5 → t.numAt (a + 0x20 + 4 * k) 4 = ((f.iter.getD []).getD k 0) % 2 ^ 32)
      ∧ (∀ x, x < a ∨ a + 64 ≤ x → t.byteAt x = s.byteAt x)
      ∧ t.faultRings[c.faultRing]? = some { r with tail := (r.tail + 1) % 2 ^ r.sizeLog }
      ∧ (∀ n, n ≠ c.faultRing → t.faultRings[n]? = s.faultRings[n]?) ∧ t.waves = s.waves)
  ∧ (∀ (s : State) (f : Filter) (c : Ctx) (r : FaultRing), s.filters.find? (fun x => x.id == f.id && !x.written && !x.replayed) = some f →
    s.ctx? f.ctx = some c → s.faultRings[c.faultRing]? = some r →
    r.enable = false ∨ r.sizeLog < 6 ∨ 16 < r.sizeLog ∨ (r.tail + 1) % 2 ^ r.sizeLog = r.head →
    exec (.faultRecordWrite f.id) s = .next s)
  ∧ (∀ (s : State) (w : Wave) (k : Nat) (u : Unconfirmed), s.wave? w.uid = some w → w.unconf[k]? = some u →
    let same : Prop := s.version u.pa = u.version ∧ s.tick ≤ u.expired + 100000
    w.trap.pend = none → w.dbgWant = false → (same → ∃ t w', exec (.leaseRenewalReturn w.uid k) s = .next t
      ∧ t.wave? w.uid = some w' ∧ w'.unconf = w.unconf.eraseIdx k
        ∧ w'.rf = w.rf ∧ w'.paths = w.paths ∧ t.mem = s.mem
        ∧ ∀ l ∈ s.lines, l.ctx = w.ctx → l.va = u.va → l.place = .l2 (w.core / 32) → w.core < 256 →
          ∃ l' ∈ t.lines, l'.place = l.place ∧ l'.ctx = l.ctx ∧ l'.va = l.va ∧ l'.version = u.version
            ∧ l'.expiry = some (u.sent + u.lease))
    ∧ (¬ same → w.access = none → ∀ c, w.ckpt = some c → ∃ t w', exec (.leaseRenewalReturn w.uid k) s = .next t
        ∧ t.wave? w.uid = some w' ∧ w'.rf = c.rf ∧ w'.paths = c.paths ∧ w'.unconf = [] ∧ w'.ckpt = none ∧ t.mem = s.mem))
  ∧ (∀ (s : State) (w : Wave) (x : Access) (rest : List Access) (p : Piece) (m : Mapped) (g : Guard) (a b c : Src) (hint : Hint),
    s.wave? w.uid = some w → w.waybill = x :: rest → w.ops = [] → w.live ≠ 0 → x.started = false → w.post = none →
    x.instr = .stg g a b c { scope := .die, order := .rlx, bit2 := false, hint := hint } .b32 → x.pieces = [p] → p.done = false →
    s.blocked w.uid x.op = false → s.powered w = true → w.unconf = [] → s.lines = [] → (∀ y ∈ s.writes, y.frame = false) →
    (∀ y, s.gang? w.gang = some y → y.state ≠ .restoring) →
    (∀ c y v, Map.find s.classes (m.pa / 4096) = some (.owned c y v) → c = w.core ∧ y = w.ctx ∧ v = p.addr / 4096) →
      s.xlate w { Want.store false with bit := 1 } p.addr = .ok m → s.physKind m.pa = .device → m.pbmt = 0 →
    ∃ t w' y, exec (.waybillDrain w.uid) s = .next t ∧ t.wave? w.uid = some w' ∧ w'.waybill = rest ∧ w'.rf = w.rf
      ∧ t.writes = s.writes ++ [y] ∧ y.pa = m.pa ∧ y.data = p.x ∧ y.wave = w.uid ∧ y.op = x.op ∧ y.stage = 1 ∧ y.need = 2
      ∧ t.mem = s.mem)
  ∧ (∀ (s : State) (w : Wave) (x : Access) (g : Guard) (hint : Hint), s.wave? w.uid = some w → s.accessOf x.op = none →
    s.opOf x.op = some (w, x) → x.pieces = [] → w.live ≠ 0 → s.powered w = true →
    x.instr = .fence g { scope := .dev, order := .ar, bit2 := false, hint := hint } →
    let done : Prop := w.access = none ∧ w.unconf = []
      ∧ (∀ o ∈ w.ops, o.op < x.op → o.writes = false ∧ o.awaitedBy &&& x.mask = 0)
      ∧ (∀ o ∈ w.waybill, x.op ≤ o.op)
      ∧ (∀ y ∈ s.ioWrites, y.wave = w.uid → x.op ≤ y.op)
    (done → s.writes = [] →
      ∃ t w', exec (.accessPerformed (256 * x.op + 255)) s = .next t ∧ t.wave? w.uid = some w' ∧ w'.floor = s.fresh ∧ w'.rf = w.rf
        ∧ w'.ops = w.ops.filter (fun o => o.op != x.op) ∧ (∀ y ∈ w'.bound, y.op ≠ x.op) ∧ t.mem = s.mem)
    ∧ (¬ done → exec (.accessPerformed (256 * x.op + 255)) s = .next { s with choices := s.choices.drop 1 }))
  ∧ (∀ (s : State) (p : PtPend), s.ptPend.find? (fun x => x.num == p.num) = some p → s.writes = [] → s.succs = [] →
    (∀ w ∈ s.waves, ∀ x ∈ w.inHand, x.partly = false) →
    ∃ t, exec (.ptCompletion p.num) s = .next t ∧ (∀ x ∈ t.ptPend, x.num ≠ p.num) ∧ (∀ x ∈ t.tlb, p.pte ∉ x.ptes)
      ∧ (∀ l ∈ t.lines, ∀ r ∈ p.ranges, ¬ (r.1 = l.ctx ∧ r.2.1 ≤ l.va ∧ l.va < r.2.1 + r.2.2)) ∧ t.mem = s.mem
      ∧ t.waves.map (fun w => { w with access := none, ops := [] }) = s.waves.map (fun w => { w with access := none, ops := [] })
      ∧ (∀ w ∈ t.waves, ∀ x ∈ w.inHand, s.usesOld p w x = false)
      ∧ (∀ x ∈ s.ptPend, x.num ≠ p.num → x ∈ t.ptPend) ∧ (∀ x ∈ s.tlb, x.from p.pte = false → x ∈ t.tlb))

/-- R157, R160, R162 to R165, R171 to R177: the issue of the span instructions, in a hitched cluster too. Those that a pass
serves take reservation entries; a block is given to the span by SPAN.ACQ and comes back by SPAN.REL and SPAN.REL.ST. An
instruction on a block whose token is with the wave is TOKEN; an operand descriptor that fails its checks is ILLEGAL 0x13, and
both are checked whether or not a lane qualifies. When operands are captured, how the passes left are counted, that the row
pitch of SPAN.REL.ST is unsigned, that a stopped walk's block counts as not busy, and that a walk needs the room of two copies,
are the model's reading (assumption log 37, 38, 72, 84, 90). -/
def Obligations.SpanWords : Prop :=
  ∀ (s : State) (i : Issue) (g : Guard) (d : Fin 192) (dd : Dst) (x y z : Fin 48) (b : Src) (shw : Bool) (sel : Fin 7) (o : MmaOps)
    (ra c : Fin 192) (tile : Fin 16) (stage : Fin 256),
    let cl := i.w.core / 4
    let sp := (s.cluster cl).span
    let size := 2 ^ (s.descOf i.w).gang * ((s.descOf i.w).scratch * 32768)
    let entry (block : Option Nat) (kind : SpanKind) : SpanEntry :=
      { op := s.fresh, wave := i.w.uid, prio := s.effPrio (s.regionOf i.w), block := block, kind := kind, order := s.fresh, skipped := 0 }
    let posted (es : List SpanEntry) : State :=
      s.updCluster cl (fun k => { k with span := { k.span with entries := k.span.entries ++ es } })
    let goes (ins : Instr) (s1 : State) (base : Wave) : Prop := ∃ t w', exec ins s = .next t ∧ Opened s1 t i base i.past w'
    let op (ins : Instr) (pieces : List Piece) (aux : List Nat) : Wave :=
      { i.w with ops := i.w.ops ++ [i.opened s ins (i.lanes g) pieces aux], bound := i.boundTo s.fresh }
    let held (r : Fin 192) : Prop := i.w.spanHeld.getLsbD (r.val / 32) = true
    let back (r : Fin 192) : BitVec 6 := i.w.spanHeld &&& ~~~((1 : BitVec 6) <<< (r.val / 32))
    let token (ins : Instr) : Prop := Trappable s i → ∃ t w', exec ins s = .next t
      ∧ TrapTaken s t i 6 { hdr := i.c.addr, idx := i.c.idx + 1, waitOnly := i.p.waitOnly } w' ∧ w'.rf = i.w.rf
    let pair (r : Fin 48) : Nat := (i.val64 (.s r) .zext 0).toNat
    let descOk (r : Fin 48) (t : Fin 16) (rows : Nat) : Prop :=
      let v := pair r
      v / 2 ^ 60 = 0 ∧ v % 2 ^ 20 % 16 = 0 ∧ v / 2 ^ 20 % 2 ^ 16 % 16 = 0 ∧ 128 ≤ v / 2 ^ 20 % 2 ^ 16
        ∧ v / 2 ^ 36 % 2 ^ 20 % 128 = 0
        ∧ v % 2 ^ 20 + t.val * (v / 2 ^ 36 % 2 ^ 20) + (rows - 1) * (v / 2 ^ 20 % 2 ^ 16) + 127 < size
    let regs (n : Nat) (t : SpanSrc) : List RegId := match t with | .run r => vRun r n | .desc r => (Src.s r).regsRun 2
    let ok (t : SpanSrc) (k : Fin 16) : Prop := match t with | .run _ => True | .desc r => descOk r k 32
    let buffers : Prop := pair x % 128 = 0 ∧ pair y % 128 = 0 ∧ stage.val * 4096 + 16384 ≤ size
    let pitch := (i.val b 0).toNat
    let mmas : List (Instr × Nat × Nat × Nat) := [
        (.spanMmaBf16 g o, 32, 0, 0), (.spanMmaE4m3 g o c, 32, c.val, 2), (.spanMmaE5m2 g o c, 32, c.val, 2),
          (.spanMmaE2m1 g o c, 32, c.val, 2),
        (.spanMmaW4bf g o c, 8, c.val, 1), (.spanMmaWf4bf g o c, 8, c.val, 1), (.spanMmaE4m3B32 g o c, 32, c.val, 2),
        (.spanMmaE5m2B32 g o c, 32, c.val, 2), (.spanMmaE2m1B32 g o c, 32, c.val, 4)]
    let mmaRegs (row : Instr × Nat × Nat × Nat) : List RegId := regs 32 o.a ++ regs row.2.1 o.b ++ vRun row.2.2.1 row.2.2.2
    let loopRegs : List RegId := (Src.s x).regsRun 2 ++ (Src.s y).regsRun 2 ++ (Src.s z).regsRun 2
    (i.lanes g = 0 → ∀ row ∈ ([
        (.hitch g, [], True), (.unhitch g, [], True), (.spanAcq g d, vRun d 32, True), (.spanStat g dd sel, dd.regs, True),
        (.spanRel g d, [], held d), (.spanZero g d, [], held d),
        (.spanRelSt g d x b shw, (Src.s x).regsRun 2 ++ b.regs, held d ∧ pair x % 128 = 0 ∧ pitch % 128 = 0),
        (.spanRbox g d ra x tile, vRun ra 8 ++ (Src.s x).regsRun 2 ++ vRun d 2, descOk x tile 6),
        (.spanLoop g d x y z stage, loopRegs, held d ∧ buffers ∧ ∀ k ∈ s.walks, k.wave ≠ i.w.uid)
        ] ++ mmas.map (fun r => (r.1, mmaRegs r, held o.d ∧ ok o.a o.aTile ∧ ok o.b o.bTile)) : List (Instr × List RegId × Prop)),
      MayRun s i true (g.regs ++ row.2.1) row.2.1 → row.2.2 → Completes s i row.1 (fun rf => rf = i.w.rf))
    ∧ (MayRun s i true (g.regs ++ []) [] → ¬ held d → token (.spanRel g d) ∧ token (.spanZero g d))
    ∧ (i.lanes g ≠ 0 → MayRun s i true (g.regs ++ []) [] →
      (sp.owner ≠ some i.w.uid → sp.entries.length < 32 → goes (.hitch g) (posted [entry none .hitch]) (op (.hitch g) [] []))
      ∧ (sp.owner = some i.w.uid → Opens s i (.hitch g) i.w i.past
          ∧ goes (.unhitch g) (s.updCluster cl (fun k => { k with span := { k.span with owner := none, ending := true } })) (op (.unhitch g) [] []))
      ∧ (sp.owner ≠ some i.w.uid → Opens s i (.unhitch g) i.w i.past)
      ∧ (held d → Opens s i (.spanRel g d) { op (.spanRel g d) [] [] with
            spanHeld := back d, marks := i.w.marks ++ [⟨s.fresh, vRun d 32⟩] } i.past
          ∧ Opens s i (.spanZero g d) (op (.spanZero g d) [] []) i.past))
    ∧ (i.lanes g ≠ 0 → MayRun s i true (g.regs ++ vRun d 32) (vRun d 32) →
        Opens s i (.spanAcq g d) { i.w with spanHeld := i.w.spanHeld ||| ((1 : BitVec 6) <<< (d.val / 32))
                                            marks := i.w.marks ++ [⟨s.fresh, []⟩], bound := i.boundTo s.fresh } i.past)
    ∧ (let rows : List Piece := (lanesOf (i.lanes g)).reverse.map (fun l =>
        { lane := l, addr := (pair x + l * pitch) % 2 ^ 64, len := 128, x := [], y := [], got := [], done := false })
      let ins : Instr := .spanRelSt g d x b shw
      let entry := i.opened s ins (i.lanes g) rows []
      let even : Prop := pair x % 128 = 0 ∧ pitch % 128 = 0
      let tr (p : Piece) : Tr := s.xlate i.w { Want.store false with shadow := shw } p.addr
      MayRun s i true (g.regs ++ ((Src.s x).regsRun 2 ++ b.regs)) [] →
        (i.lanes g ≠ 0 → held d → even → i.w.post = none →
          ((∀ p ∈ rows, tr p ≠ .unbound) →
            (i.w.waybillLoad < 8 → Opens s i ins { i.w with
              spanHeld := back d, waybill := i.w.waybill ++ [entry], marks := i.w.marks ++ [⟨s.fresh, vRun d 32⟩]
              bound := i.boundTo s.fresh } i.past)
            ∧ (8 ≤ i.w.waybillLoad → exec ins s = .next s))
          ∧ ((∃ p ∈ rows, tr p = .unbound) → exec ins s = .next (s.uncontained i.w (s.reportAt i 0x24 1))))
        ∧ (i.lanes g ≠ 0 → held d → even → i.w.post ≠ none → s.blockBusy i.w (d.val / 32) s.fresh = false →
            (∀ p ∈ rows, ∃ m, tr p = .ok m ∧ s.isIo m = false) → ∃ t w', exec ins s = .next t
              ∧ Opened { s with tlb := t.tlb } t i { i.w with
                ops := i.w.ops ++ [{ entry with
                  pieces := rows.map (fun (p : Piece) => { p with x := i.w.rf.laneRun d 32 p.lane })
                  maps := rows.filterMap (fun p => match tr p with | .ok m => some m | _ => none) }]
                spanHeld := back d, bound := i.boundTo s.fresh } i.past w')
        ∧ (¬ held d → token ins)
        ∧ (held d → ¬ even → exec ins s = .next (s.illegal i 0x13)))
    ∧ (i.lanes g ≠ 0 → MayRun s i true (g.regs ++ dd.regs) dd.regs → ∃ v : Nat,
        (∃ rf, Opens s i (.spanStat g dd sel) { i.w with
          rf := rf, marks := i.w.marks ++ [⟨s.fresh, dd.regs⟩], bound := i.boundTo s.fresh } i.past
          ∧ WritesRun i.w.rf rf dd 1 (i.lanes g) (fun _ _ => BitVec.ofNat 32 v) 0)
        ∧ (sel.val = 0 → sp.entries.length ≤ 32 → sp.passes ≤ 16 →
          v % 2 ^ 6 = i.w.spanHeld.toNat ∧ v / 2 ^ 12 % 4 = 0 ∧ v / 2 ^ 15 % 2 ^ 6 = sp.entries.length
            ∧ v / 2 ^ 14 % 2 = (if s.walks.any (fun k => k.wave == i.w.uid && k.stopped) then 1 else 0)
            ∧ v / 2 ^ 21 % 2 = (if sp.hitched then 1 else 0) ∧ v / 2 ^ 22 = (if sp.hitched then 16 - sp.passes else 0)
            ∧ ∀ m, m < 6 → v / 2 ^ (6 + m) % 2 = (if s.blockBusy i.w m (2 ^ 64) then 1 else 0))
        ∧ ((∀ k ∈ s.walks, k.wave ≠ i.w.uid) → (sel.val = 6 → v = min i.w.walkSteps 0xFFFFFFFF)
            ∧ (1 ≤ sel.val → sel.val ≤ 5 → v = i.w.walkIdx.getD (sel.val - 1) 0)))
    ∧ (let ins : Instr := .spanRbox g d ra x tile
      let rays : List Piece := (List.range 32).map (fun l =>
        { lane := l, addr := 0, len := 0, x := i.w.rf.laneRun ra 8 l, y := [], got := [], done := false })
      MayRun s i true (g.regs ++ (vRun ra 8 ++ (Src.s x).regsRun 2 ++ vRun d 2)) (vRun d 2) →
        (i.lanes g ≠ 0 → descOk x tile 6 → sp.entries.length < 32 →
          goes ins (posted [entry none .rbox]) { op ins rays [1, 0, 0, pair x] with
          marks := i.w.marks ++ [⟨s.fresh, vRun d 2⟩], reads := i.w.reads ++ [⟨s.fresh, vRun ra 8⟩] })
        ∧ (¬ descOk x tile 6 → exec ins s = .next (s.illegal i 0x13)))
    ∧ (∀ row ∈ mmas,
      let runs (n : Nat) (t : SpanSrc) : List RegId := match t with | .run r => vRun r n | .desc _ => []
      let bytes (n l : Nat) (t : SpanSrc) : List Byte := match t with | .run r => i.w.rf.laneRun r n l | .desc _ => []
      let desc (t : SpanSrc) : Nat := match t with | .run _ => 0 | .desc r => pair r
      let quarters := (List.range 4).filter (fun k => decide (∃ l < 32, l / 8 = k ∧ (i.lanes g).getLsbD l = true))
      let ps : List Piece := (List.range 32).map (fun l =>
        { lane := l, addr := 0, len := 0, x := bytes 32 l o.a, y := bytes row.2.1 l o.b, got := i.w.rf.laneRun row.2.2.1 row.2.2.2 l
          done := false })
      let named := runs 32 o.a ++ runs row.2.1 o.b ++ vRun row.2.2.1 row.2.2.2
      MayRun s i true (g.regs ++ mmaRegs row) [] →
        (i.lanes g ≠ 0 → held o.d → ok o.a o.aTile → ok o.b o.bTile → sp.entries.length + quarters.length ≤ 32 →
          goes row.1 (posted (quarters.map (fun k => entry (some (o.d.val / 32)) (.quarter k))))
            { op row.1 ps [quarters.length, 0, desc o.a, desc o.b] with
              reads := if named = [] then i.w.reads else i.w.reads ++ [⟨s.fresh, named⟩] })
        ∧ (¬ held o.d → token row.1)
        ∧ (held o.d → ¬ (ok o.a o.aTile ∧ ok o.b o.bTile) → exec row.1 s = .next (s.illegal i 0x13)))
    ∧ (let ins : Instr := .spanLoop g d x y z stage
      MayRun s i true (g.regs ++ loopRegs) [] → (∀ k ∈ s.walks, k.wave ≠ i.w.uid) →
        (∀ m lv, i.lanes g ≠ 0 → held d → buffers → pair z % 64 = 0 → s.copyRoom i.w.core 2 = true →
          s.xlate i.w Want.loopRead (pair z) = .ok m →
          s.copyClear i.w s.fresh .device (pair z) 64 = true → s.bad.contains (m.pa / 64) = false →
          parseLoop ((s.atHomeOf i.w (pair z) m).copyBytes i.w m.pa 64) 128 = some lv →
          ∃ t w', exec ins s = .next t ∧ Opened { s.atHomeOf i.w (pair z) m with walks := s.walks ++ [
            { op := s.fresh, wave := i.w.uid, core := i.w.core, word := i.word, addr := i.addr, hdr := i.c.addr, instr := ins
              block := d.val / 32, mask := i.lanes g, a := pair x, b := pair y, c := pair z, stage := stage.val * 4096,
                levels := some lv
              n := 0, fetch := 0, done := [], posted := false, stopped := false, stopping := false, dead := false,
                flags := 0 }] } t i
            { i.w with bound := i.boundTo s.fresh } i.past w')
        ∧ (i.lanes g ≠ 0 → held d → buffers → pair z % 64 = 0 → s.copyRoom i.w.core 2 = false → exec ins s = .next s)
        ∧ (¬ held d → token ins)
        ∧ (held d → ¬ buffers → exec ins s = .next (s.illegal i 0x13))
        ∧ (i.lanes g ≠ 0 → held d → buffers → pair z % 64 ≠ 0 → exec ins s = .next (s.illegal i 0x14)))

/-- R158, R164 to R169, R171, R176, R177, R179, R326: tenures and passes. A tenure is granted to a ready entry; the pass of the
last quarter of a matrix operation folds the rows of that quarter into the block, its flags reach FPSTAT and the operation
ends; a box test writes its mask and nearest entry; a tenure that is over unhitches the cluster; a stopped walk goes on. The
order of quarters and the bounds of tenures are the model's reading (assumption log 37, 38), that an idle tenure ends after 10
ticks its choice within the bound (assumption log 46). -/
def Obligations.SpanSteps : Prop :=
  (∀ (s : State) (cl : Nat) (e : SpanEntry),
    let sp := (s.cluster cl).span
    cl < s.clusters.length → sp.hitched = false → sp.coolUntil ≤ s.tick → (s.cluster cl).modeTo = none → sp.entries = [e] →
    s.entryReady e = true → e.kind ≠ .hitch → e.kind ≠ .step →
    ∃ t, exec (.tenureGrant cl) s = .next t
      ∧ (t.cluster cl).span = { sp with hitched := true, pass := [e], passes := sp.passes + 1 }
      ∧ (∀ n, n ≠ cl → t.cluster n = s.cluster n) ∧ t.waves = s.waves ∧ t.mem = s.mem)
  ∧ (∀ (s : State) (cl : Nat) (e : SpanEntry) (w : Wave) (x : Access),
    let sp := (s.cluster cl).span
    cl < s.clusters.length → sp.hitched = true → sp.entries = [e] → sp.pass = [e] → sp.owner = none → s.wave? e.wave = some w →
    w.uid = e.wave → w.live ≠ 0 → w.ops = [x] → x.op = e.op → w.ckpt = none → w.rf.bad = [] → (∀ g ∈ s.wgs, g.padBad = []) →
      (∀ v ∈ s.waves, ∀ o ∈ v.ops, ∀ g, o.instr ≠ .unhitch g) →
    let row (v t k : Nat) : List Byte := (List.range 128).map (fun n => s.padByte w true
      (v % 2 ^ 20 + t * (v / 2 ^ 36 % 2 ^ 20) + k * (v / 2 ^ 20 % 2 ^ 16) + (n / 16 + k * (v / 2 ^ 56 % 16)) % 8 * 16 + n % 16))
    let got (l : Nat) : Piece := x.pieces.getD l { lane := l, addr := 0, len := 0, x := [], y := [], got := [], done := false }
    let finished (t : State) (w' : Wave) : Prop := t.wave? e.wave = some w' ∧ w'.ops = [] ∧ (∀ v ∈ w'.bound, v.op ≠ e.op)
      ∧ (∀ u, u ≠ e.wave → t.wave? u = s.wave? u) ∧ t.mem = s.mem ∧ t.wgs = s.wgs
      ∧ (t.cluster cl).span.hitched = false ∧ (t.cluster cl).span.entries = [] ∧ (t.cluster cl).span.pass = []
    (∀ (q : Nat) (f : MmaForm) (o : MmaOps) (fl : Nat), e.kind = .quarter q → mmaForm x.instr = some f → mmaOps x.instr = some o →
      o.d.val % 32 = 0 → x.aux.take 2 = [1, fl] → (∀ l, x.mask.getLsbD l = true → l / 8 = q) →
      let da := x.aux.getD 2 0
      let db := x.aux.getD 3 0
      let rowA (l : Nat) : List Byte := match o.a with | .run _ => (got l).x | .desc _ => row da o.aTile l
      let colB (l : Nat) : List Byte := match o.b with | .run _ => (got l).y | .desc _ => row db o.bTile l
      let scaleB (l : Nat) : List Byte := if f.weight.isSome then (got l).got else (got l).got.drop (4 * f.scales)
      let cell (l j : Nat) : Word × BitVec 6 := f.fold (f.rowA (rowA l)) (f.colB (colB j) (scaleB j)).1 (got l).got (scaleB j)
        (w.rf.vreg (o.d.val + j) l)
      ∃ t w' flags, exec (.spanPassEnd cl) s = .next t ∧ finished t w'
        ∧ (∀ r l, l < 32 → w'.rf.vreg r l = if o.d.val ≤ r ∧ r < o.d.val + 32
          ∧ x.mask.getLsbD l = true then (cell l (r - o.d.val)).1
            else w.rf.vreg r l)
        ∧ w'.rf = { w.rf with v := w'.rf.v, fpstat := w.rf.fpstat ||| flags }
        ∧ (∀ b, flags.getLsbD b = true ↔ (BitVec.ofNat 6 fl).getLsbD b = true ∨ ∃ l j, x.mask.getLsbD l = true ∧ j < 32
            ∧ ((cell l j).2 ||| (f.colB (colB j) (scaleB j)).2).getLsbD b = true))
    ∧ (∀ (g : Guard) (d ra : Fin 192) (b : Fin 48) (t : Fin 16), e.kind = .rbox → x.instr = .spanRbox g d ra b t →
      x.aux.take 2 = [1, 0] →
      let word (l : List Byte) (k : Nat) : Nat := ofBytes ((l.drop (4 * k)).take 4)
      let box (j : Nat) : List Nat := (List.range 6).map (fun k => word (row (x.aux.getD 3 0) t k) j)
      let hit (l : Nat) : Word × Word := rbox ((List.range 8).map (word (got l).x)) box
      ∃ t w', exec (.spanPassEnd cl) s = .next t ∧ finished t w'
        ∧ WritesRun w.rf w'.rf (.v d) 2 x.mask (fun k l => if k = 0 then (hit l).1 else (hit l).2) 0))
  ∧ (∀ (s : State) (cl : Nat) (u : Nat),
    let sp := (s.cluster cl).span
    cl < s.clusters.length → sp.hitched = true → sp.owner = some u → sp.pass = [] →
      (∀ v ∈ s.waves, ∀ o ∈ v.ops, ∀ g, o.instr ≠ .unhitch g) →
    (sp.idle + 10 ≤ s.tick → ∃ t, exec (.tenureIdleTimeout cl) s = .next t ∧ (t.cluster cl).span.hitched = false
      ∧ (t.cluster cl).span.owner = none ∧ (t.cluster cl).span.entries = sp.entries ∧ t.waves = s.waves ∧ t.mem = s.mem)
    ∧ (s.tick < sp.idle + 10 → exec (.tenureIdleTimeout cl) s = .next s))
  ∧ (∀ (s : State) (k : Walk) (w : Wave) (x : Gang) (lv : List (Nat × Int × Int)), s.walks = [k] → s.wave? k.wave = some w →
    w.uid = k.wave →
    s.gang? w.gang = some x → x.state = .resident → k.stopped = true → k.dead = false → s.blocked k.wave k.op = false →
    w.marks = [] → w.reads = [] → k.levels = some lv → s.copyRoom w.core 2 = true →
    ∃ t w', exec (.loopResume k.op) s = .next t ∧ t.wave? k.wave = some w' ∧ t.walks = [{ k with stopped := false }]
      ∧ w' = { w with spanHeld := w.spanHeld ||| ((1 : BitVec 6) <<< k.block) } ∧ t.mem = s.mem)

/-- R254, R256 to R258, R261, R264 to R266: the rasteriser. RAST.EMIT on an open pass of its node goes out with its lanes'
primitives and its path waits at it until they are forwarded; the pixel instructions of a fragment wave issue, and of another
wave are ILLEGAL 0x1A. A pixel on an edge that two triangles share is covered by one of them at most. A draw is released once it
is closed, into fragments that its primitives cover, in tiles the die owns; they become waves, lane 0 the first of them; the
pass closes once all are done. The order of draws and fragments is read from the latitude list, and that a fragment wave meets
no limit is the model's choice (assumption log 2, 40, 41, 86). -/
def Obligations.Raster : Prop :=
  (∀ (s : State) (i : Issue) (g : Guard) (a c d : Fin 192) (b : Fin 48) (e : PComb) (op : BlendOp), i.lanes g ≠ 0 →
    let emit : Instr := .rastEmit g a b c e
    let va := (i.val64 (.s b) .zext 0).toNat
    let prims : List Piece := (lanesOf (i.lanes g)).map (fun l =>
      { lane := l, addr := 0, len := 0, x := i.w.rf.laneRun a 8 l, y := i.w.rf.laneRun c 2 l, got := [], done := false })
    let cull : LaneMask := maskOf (fun l => i.w.rf.pcomb e l)
    let pixel (f : Map Fragment) (l : Nat) (p : Piece) : Prop := ∃ x p', Map.find f l = some x ∧ s.pass? x.pass = some p'
      ∧ p.lane = l
      ∧ p.addr = (p'.target + x.y * p'.pitch + x.x * (if p'.format = 1 then 8 else 4)) % 2 ^ 64
      ∧ p.len = (if p'.format = 1 then 8 else 4) ∧ p.done = false
    (let regs := vRun a 8 ++ (Src.s b).regsRun 2 ++ vRun c 2 ++ predReg e.p;
      Ready s i true (g.regs ++ regs) regs →
        (i.p.waitOnly = true → i.w.emitting i.p.lanes = false → Opens s i emit i.w i.past)
        ∧ (i.p.waitOnly = false → ∀ n, s.node? i.w.node = some n →
          (va % 256 ≠ 0 → exec emit s = .next (s.illegal i 0x18))
          ∧ (va % 256 = 0 → ∀ p, s.passes.find? (fun p => p.block.toNat == va && p.ctx == i.w.ctx) = some p →
            (p.node ≠ i.w.node → ∃ r ∈ [0x18, 0x19], exec emit s = .next (s.illegal i r))
            ∧ (s.emitReason p i.w.node (prims.map (fun x => x.x)) = none → Opens s i emit
                { i.w with ops := i.w.ops ++ [i.opened s emit (i.lanes g) prims [p.num, cull.toNat]], bound := i.boundTo s.fresh }
                (i.waits true s.fresh))
            ∧ (∀ r, s.emitReason p i.w.node (prims.map (fun x => x.x)) = some r → exec emit s = .next (s.illegal i r)))))
    ∧ (Ready s i true (g.regs ++ []) [] →
        (i.w.frags ≠ [] → Opens s i (.pixOrd g) { i.w with
          ops := i.w.ops ++ [i.opened s (.pixOrd g) (i.lanes g) [] []], bound := i.boundTo s.fresh } i.past)
        ∧ (i.w.frags = [] → exec (.pixOrd g) s = .next (s.illegal i 0x1A)))
    ∧ (∀ row ∈ ([(.pixLd g d, vRun d 2, vRun d 2, 0), (.pixBlend g a op, vRun a 4, [.fpstat], 16)]
      : List (Instr × List RegId × List RegId × Nat)),
      Ready s i true (g.regs ++ row.2.1) row.2.1 →
        (i.w.frags ≠ [] → (∀ l, (i.lanes g).getLsbD l = true → ∃ p, pixel i.w.frags l p) → ∃ ps : List Piece,
          Opens s i row.1 { i.w with
            access := some (i.opened s row.1 (i.lanes g) ps []), marks := i.w.marks ++ [⟨s.fresh, row.2.2.1⟩],
              bound := i.boundTo s.fresh
            ckpt := some { rf := i.w.rf, paths := i.w.paths, op := s.fresh, bar := i.w.bar } } i.past
          ∧ ps.map (fun p => p.lane) = (lanesOf (i.lanes g)).reverse
          ∧ ∀ p ∈ ps, pixel i.w.frags p.lane p ∧ p.x = (if row.2.2.2 = 0 then [] else i.w.rf.laneRun a 4 p.lane))
        ∧ (i.w.frags = [] → exec row.1 s = .next (s.illegal i 0x1A))))
  ∧ (∀ (t u : Tri) (j k px py : Nat), j < 3 → k < 3 → t.x j = u.x (k + 1) → t.y j = u.y (k + 1) → t.x (j + 1) = u.x k →
    t.y (j + 1) = u.y k →
    t.covers px py = true → u.covers px py = false)
  ∧ (∀ (s : State) (p : Pass) (die : Nat), s.pass? p.num = some p → die ∈ p.owners →
    let k := Map.get 0 p.released die
    (k < p.counts.length → p.counts.getD k 0 ≤ Map.get 0 p.emitted k →
      (∀ n, s.node? p.node = some n → n.spawn ≠ 0) → ∃ (t : State) (p' : Pass) (fr : List Fragment),
        exec (.drawRelease p.num die) s = .next t
      ∧ t.pass? p.num = some p' ∧ Map.get 0 p'.released die = k + 1 ∧ p'.queue = p.queue ++ fr.map (fun f => (die, f))
      ∧ fr.map (fun f => f.id) = (List.range fr.length).map (fun n => s.fresh + n)
      ∧ (∀ f ∈ fr, ∃ x ∈ p.prims, x.draw = k ∧ die ∈ x.dies ∧ f.seq = x.seq ∧ f.payload = x.payload
        ∧ (triOf x.xs).covers f.x f.y = true
          ∧ p.owner (f.x / 64, f.y / 64) = die)
      ∧ t = { s with passes := t.passes, fresh := s.fresh + fr.length })
    ∧ (p.counts.length ≤ k ∨ Map.get 0 p.emitted k < p.counts.getD k 0 →
      exec (.drawRelease p.num die) s = .next s))
  ∧ (∀ (s : State) (p : Pass) (n : Node) (die : Nat) (f : Fragment) (rest : List Fragment), s.pass? p.num = some p →
    s.node? p.node = some n →
    (p.queue.filter (fun x => x.1 == die)).map (fun x => x.2) = f :: rest → s.choices = [] →
    ∃ t b fs, exec (.fragWaveLaunch p.num die) s = .next t ∧ t.batches = s.batches ++ [b] ∧ List.IsPrefix (f :: fs) (f :: rest)
      ∧ fs.length < 32
      ∧ (f :: fs).Pairwise (fun x y => ¬ (x.x = y.x ∧ x.y = y.y)) ∧ b.frags = (f :: fs).zipIdx.map (fun x => (x.2, x.1))
      ∧ b.node = n.uid ∧ b.seq = n.nextSeq ∧ b.count = 1 ∧ b.die = .vd die ∧ b.desc = p.desc ∧ b.arg = 0
      ∧ (∀ l, b.lanes.getLsbD l = decide (l ≤ fs.length)) ∧ t.mem = s.mem ∧ t.waves = s.waves)
  ∧ (∀ (s : State) (p : Pass) (n : Node), s.pass? p.num = some p → s.node? p.node = some n →
    let done : Prop := (∀ v ∈ p.owners, Map.get 0 p.released v = p.counts.length) ∧ p.queue = []
      ∧ (∀ b ∈ s.batches, (∃ f ∈ b.frags, f.2.pass = p.num) → s.exitedOf b ≠ 0)
    (done → n.spawn ≠ 0 → ∃ t, exec (.rasterPassClose p.num) s = .next t
      ∧ t.numAt (p.pa + 0x40) 4 = 2 ∧ t.pass? p.num = none
      ∧ (∀ a, a < p.pa + 0x40 ∨ p.pa + 0x44 ≤ a → t.byteAt a = s.byteAt a) ∧ t.waves = s.waves ∧ t.nodes = s.nodes)
    ∧ (¬ done → exec (.rasterPassClose p.num) s = .next s))

/-- R22, R321 to R323, R343: ENQ and ENQG go out with their operands, at most 8 unanswered; an ENQ to an unbound virtual die, or
of a descriptor whose home field names one, is DIE_BINDING. ENQ_ACCEPT answers, after a release at device scope: an accepted ENQ
makes one batch of its node and reads 0 and its batch sequence number, a refused one its status and 0xFFFF_FFFF; an ENQG lowers
a WAITING record's PRED_COUNT. DHOPS reads the hop distance of bound sites: 0, 1 for neighbours on the ring, 2. The order of
answers within a wave is the model's choice (assumption log 50). -/
def Obligations.Enqueues : Prop :=
  (∀ (s : State) (i : Issue) (g : Guard) (d : Dst) (a b c : Src) (die : EnqDie) (nw : Bool), i.lanes g ≠ 0 →
    let l := (lowestLane (i.lanes g)).getD 0
    let bound (n : Nat) : Prop := ∃ x y, s.ctx? i.w.ctx = some x ∧ x.site n = some y
    let home := (i.val64 a .zext l).toNat / 2 ^ 53 % 8
    let enq : Instr := .enq g d a b c die nw
    let posts (ins : Instr) (e : PendEnq) (rs : List RegId) : Prop := Opens s i ins
      { i.w with enqs := i.w.enqs ++ [e], marks := i.w.marks ++ [⟨s.fresh, rs⟩], bound := i.boundTo s.fresh } i.past
    (let regs := a.regsRun 2 ++ b.regs ++ c.regsRun 2 ++ d.regsRun 2;
      Ready s i true (g.regs ++ regs) regs →
        ((∀ n : Fin 8, die = .vd n → bound n) → i.w.post ≠ none ∨ (i.val64 a .zext l).toNat % 256 ≠ 0 ∨ bound home →
          i.w.enqs.length < 8 → posts enq
          { op := s.fresh, instr := enq, mask := i.lanes g, lane := l, desc := i.val64 a .zext l, count := (i.val b l).toNat
            arg := i.val64 c .zext l, ref := 0, isG := false } (d.regsRun 2))
        ∧ ((∀ n : Fin 8, die = .vd n → bound n) → i.w.post ≠ none ∨ (i.val64 a .zext l).toNat % 256 ≠ 0 ∨ bound home →
          8 ≤ i.w.enqs.length → exec enq s = .next s)
        ∧ ((∀ n : Fin 8, die = .vd n → bound n) → i.w.post = none → (i.val64 a .zext l).toNat % 256 = 0 → ¬ bound home →
          exec enq s = .next (s.uncontained i.w (s.reportAt i 0x24 1)))
        ∧ (∀ n : Fin 8, die = .vd n → ¬ bound n → exec enq s = .next (s.uncontained i.w (s.reportAt i 0x24 2))))
    ∧ (Ready s i true (g.regs ++ (a.regs ++ d.regs)) (a.regs ++ d.regs) →
        (i.w.enqs.length < 8 → posts (.enqg g d a)
          { op := s.fresh, instr := .enqg g d a, mask := i.lanes g, lane := l, desc := 0, count := 0, arg := 0, ref := i.val a l
            isG := true } d.regs)
        ∧ (8 ≤ i.w.enqs.length → exec (.enqg g d a) s = .next s)))
  ∧ (∀ (s : State) (w : Wave) (n : Node) (e : PendEnq) (g : Guard) (d : Dst) (a b c : Src) (die : EnqDie) (nw : Bool),
    s.wave? w.uid = some w → w.enqs.find? (fun x => x.op == e.op) = some e → s.node? w.node = some n → w.live ≠ 0 →
    s.released w e.op 3 = true → w.mayPerform e.op e.mask true = true →
    let gone (w' : Wave) : Prop := w'.enqs = w.enqs.filter (fun x => x.op != e.op)
      ∧ w'.marks = w.marks.filter (fun m => m.op != e.op)
      ∧ w'.bound = w.bound.filter (fun x => x.op != e.op)
    (e.instr = .enq g d a b c die nw →
      let refused (st : Nat) : Prop := ∃ t w', exec (.enqAccept w.uid e.op) s = .next t ∧ t.wave? w.uid = some w' ∧ gone w'
        ∧ WritesRun w.rf w'.rf d 2 e.mask (fun k _ => if k = 0 then BitVec.ofNat 32 st else 0xFFFFFFFF) 0
        ∧ t.batches = s.batches ∧ t.nodes = s.nodes ∧ t.mem = s.mem
        ∧ t.reports = (if st = 0x04 ∨ st = 0x05 ∨ st = 0x0B then s.reports ++ [cpReport 0x22 st ([n.ring,
          n.slot] ++ s.identOf w) e.desc]
            else s.reports)
      (∀ r, s.readDesc (s.ctxOf n.ctx) n.region e.desc.toNat = .error (.reason r) → refused r)
      ∧ (s.readDesc (s.ctxOf n.ctx) n.region e.desc.toNat = .error .wait → exec (.enqAccept w.uid e.op) s = .next s)
      ∧ (∀ ds, s.readDesc (s.ctxOf n.ctx) n.region e.desc.toNat = .ok ds →
        let r := if ds.region = 0 then n.region else ds.region
        (e.count = 0 → refused 0x20)
        ∧ (e.count ≠ 0 → e.count % ds.gangSize ≠ 0 → refused 0x0B)
        ∧ (e.count ≠ 0 → e.count % ds.gangSize = 0 →
          (s.enqFits r e.count true = false → refused 0x21)
          ∧ (s.enqFits r e.count true = true →
            (2 ^ 32 - 1 ≤ n.nextSeq ∨ 2 ^ 48 - 1 < n.spawn + e.count → refused 0x22)
            ∧ (n.nextSeq < 2 ^ 32 - 1 → n.spawn + e.count ≤ 2 ^ 48 - 1 →
              (s.enqFits r e.count false = false → nw = true → refused 1)
              ∧ (s.enqFits r e.count false = false → nw = false → exec (.enqAccept w.uid e.op) s = .next s)
              ∧ (s.enqFits r e.count false = true → ∃ t w' x, exec (.enqAccept w.uid e.op) s = .next t ∧ t.wave? w.uid = some w'
                ∧ gone w'
                ∧ WritesRun w.rf w'.rf d 2 e.mask (fun k _ => if k = 0 then 0 else BitVec.ofNat 32 n.nextSeq) 0
                ∧ t.batches = s.batches ++ [x] ∧ x.node = n.uid ∧ x.seq = n.nextSeq ∧ x.count = e.count ∧ x.desc = ds
                ∧ x.descAddr = e.desc
                ∧ x.arg = e.arg ∧ x.region = r ∧ x.next = 0 ∧ x.retired = 0 ∧ x.lanes = allLanes ∧ x.frags = []
                ∧ x.die = (match die with | .vd v => .vd v | .any => .any | .own => .pd (spokeOfCore w.core))
                ∧ t.node? w.node = some { n with nextSeq := n.nextSeq + 1, spawn := n.spawn + e.count }
                ∧ t.mem = s.mem ∧ t.reports = s.reports))))))
    ∧ (e.instr = .enqg g d a →
      let ref := e.ref.toNat
      let r := s.ring (ref / 2 ^ 16 % 2 ^ 6)
      let at_ := s.slotAddr (ref / 2 ^ 16 % 2 ^ 6) (ref % 2 ^ 16)
      let preds := s.numAt (at_ + 4) 4
      let gives (st : Word) (t : State) : Prop := exec (.enqAccept w.uid e.op) s = .next t
        ∧ (∃ w', t.wave? w.uid = some w' ∧ gone w'
        ∧ WritesRun w.rf w'.rf d 1 e.mask (fun _ _ => st) 0)
      let valid : Prop := 2 ^ 31 ≤ ref ∧ ref / 2 ^ 22 % 2 ^ 9 = 0
      (¬ valid → ∃ t, gives 0x31 t ∧ t.mem = s.mem)
      ∧ (valid → r.bound = false ∨ r.ctx ≠ w.ctx → ∃ t, gives 0x30 t ∧ t.mem = s.mem)
      ∧ (valid → r.bound = true → r.ctx = w.ctx →
        (r.size ≤ ref % 2 ^ 16 → ∃ t, gives 0x31 t ∧ t.mem = s.mem)
        ∧ (ref % 2 ^ 16 < r.size → s.numAt at_ 4 % 16 ≠ 1 → ∃ t, gives 0x32 t ∧ t.mem = s.mem)
        ∧ (ref % 2 ^ 16 < r.size → s.numAt at_ 4 % 16 = 1 →
          (preds = 0 → ∃ t, gives 0x33 t ∧ t.mem = s.mem)
          ∧ (1 < preds → ∃ t, gives 0 t ∧ t.numAt (at_ + 4) 4 = preds - 1 ∧ t.nodes = s.nodes
            ∧ ∀ y, y < at_ + 4 ∨ at_ + 8 ≤ y → t.byteAt y = s.byteAt y)
          ∧ (preds = 1 → ∃ t, gives 1 t ∧ t.numAt (at_ + 4) 4 = 0
            ∧ ∀ y, y < at_ ∨ at_ + 8 ≤ y → t.byteAt y = s.byteAt y)))))
  ∧ (∀ (s : State) (i : Issue) (g : Guard) (d : Dst) (a b : Src), Ready s i false (g.regs ++ (a.regs ++ b.regs) ++ d.regs) d.regs →
    let site (n : Nat) : Option Nat := (s.ctx? i.w.ctx).bind (fun c => c.site n)
    let bound (x : Word) : Prop := x.toNat ≤ 7 ∧ (site x.toNat).isSome = true
    let near (x y : Nat) : Prop := (max x y = min x y + 1 ∨ (x + y = 7 ∧ min x y = 0)) ∧ (s.variant = .kz96 → max x y < 6)
    ((∀ l, l < 32 → (i.lanes g).getLsbD l = true → bound (i.val a l) ∧ bound (i.val b l)) →
      ∃ dist : Nat → Word, Completes32 s i g (.dhops g d a b) d (fun l => (dist l, 0))
        ∧ ∀ l x y, (i.lanes g).getLsbD l = true → site (i.val a l).toNat = some x → site (i.val b l).toNat = some y →
          (x = y → dist l = 0) ∧ (near x y → dist l = 1) ∧ (x ≠ y → ¬ near x y → dist l = 2))
    ∧ (∀ l, l < 32 → (i.lanes g).getLsbD l = true → ¬ bound (i.val a l) ∨ ¬ bound (i.val b l) →
      exec (.dhops g d a b) s = .next (s.uncontained i.w (s.reportAt i 0x24 3))))

/-- R384, R385: SAVEW and RESTW in a handler go out to the places of the save record: the control area's fields, each register
at its own offset, a range of the scratchpad at its own; a range beyond the scratchpad is ILLEGAL 0x15, one that is not in units
of 256 bytes 0x17, and else, outside a handler, all of them 0x1D. RESTW.C loads a well-formed control area and refuses another
with 0x1E. YIELD.SAVED waits for the wave's SAVEW, reports for an outstanding request and stops, or falls through where none is
outstanding. The fields that SAVEW.C and RESTW.C touch, and both in postilion mode, are the model's reading (assumption log 52,
54, 56). -/
def Obligations.SaveWords : Prop :=
  (∀ (s : State) (i : Issue) (g : Guard) (a : Fin 192) (n : Fin 256) (x y : Src), i.lanes g ≠ 0 → 1 ≤ n.val →
    let ctl := s.ctlOf i.w
    let inside : Prop := i.w.trap.inHandler = true ∧ i.w.post = none
    let opens (ins : Instr) (ps : List Piece) (aux : List Nat) (rs : List RegId) : Prop := Opens s i ins
      { i.w with ops := i.w.ops ++ [i.opened s ins (i.lanes g) ps aux], bound := i.boundTo s.fresh
                 marks := if rs = [] then i.w.marks else i.w.marks ++ [⟨s.fresh, rs⟩] } i.past
    let covers (ps : List Piece) (base len : Nat) : Prop := (ps.map (fun p => p.len)).sum = len
      ∧ ∀ k, k < len → ∃ p ∈ ps, p.addr ≤ base + k ∧ base + k < p.addr + p.len
    let writes (ps : List Piece) (at_ : Nat) (bytes : List Byte) : Prop := ∀ k, k < bytes.length →
      ∃ p ∈ ps, p.addr ≤ at_ + k ∧ at_ + k < p.addr + p.len ∧ p.x.getD (at_ + k - p.addr) 0 = bytes.getD k 0
    let point (l : Nat) : TrapPoint := (Map.find i.w.trap.pts l).getD ⟨0, 0, false⟩
    let lane (l : Nat) : Nat := ((List.range 7).map (fun k => if (Map.get 0 i.w.rf.p k).getLsbD l then 2 ^ k else 0)).sum
      + (if i.w.live.getLsbD l then 0 else 128)
    (ctl + 2 ^ 20 ≤ 2 ^ 64 → inside →
      (Ready s i true (g.regs ++ ctlRegs) ctlRegs →
        (∃ ps, opens (.savewC g) ps [] []
          ∧ writes ps ctl (toBytes 4 (i.w.trap.code % 64 + 64) ++ toBytes 4 i.w.rf.fpstat.toNat)
          ∧ writes ps (ctl + 0x14) (toBytes 4 i.w.rf.timeHi.toNat)
          ∧ (∀ k, k < 48 → writes ps (ctl + 0x20 + 4 * k) (toBytes 4 (i.w.rf.sreg k).toNat))
          ∧ (∀ l, l < 32 → writes ps (ctl + 0xE0 + l) (toBytes 1 (lane l))
            ∧ writes ps (ctl + 0x100 + l) (toBytes 1 ((point l).idx % 16 + (if (point l).waitOnly then 16 else 0)))
            ∧ writes ps (ctl + 0x120 + 8 * l) (toBytes 8 (point l).hdr.toNat)
            ∧ writes ps (ctl + 0x340 + 4 * l) (toBytes 4 (Map.get 1 i.w.rf.seed l).toNat))
          ∧ (∀ k, k < 16 → writes ps (ctl + 0x3C0 + 8 * k) (toBytes 4 (Map.get 0 i.w.rf.j k).toNat ++ toBytes 4 (Map.get 0 i.w.rf.a k).toNat))
          ∧ (∀ k, k < 64 → writes ps (ctl + 0x440 + 4 * k) (toBytes 4 (Map.get 0 i.w.bar.mask k).toNat)
            ∧ writes ps (ctl + 0x540 + 2 * k) (toBytes 2 (Map.get 0 i.w.bar.ticket k)))
          ∧ writes ps (ctl + 0x5C0) (toBytes 4 i.w.bar.gmask.toNat
            ++ toBytes 2 (if i.w.bar.gform then i.w.bar.kticket else i.w.bar.gticket) ++ toBytes 2 0)
          ∧ (ps.map (fun p => p.len)).sum = 8 + 4 + 0x200 + 0x288)
        ∧ (∃ ps, opens (.restwC g) ps [] ctlRegs ∧ covers ps ctl 0x5C8))
      ∧ (Ready s i true (g.regs ++ vRun a (8 * n)) (vRun a (8 * n)) →
        (∃ ps, opens (.savewV g a n) ps [] [] ∧ (ps.map (fun p => p.len)).sum = 1024 * n
          ∧ ∀ r l, r < 8 * n.val → l < 32 → writes ps (ctl + 4096 + 128 * (a + r) + 4 * l) (toBytes 4 (i.w.rf.vreg (a + r) l).toNat))
        ∧ (∃ ps, opens (.restwV g a n) ps [] (vRun a (8 * n)) ∧ covers ps (ctl + 4096 + 128 * a) (1024 * n))))
    ∧ (let off := (i.val x ((lowestLane (i.lanes g)).getD 0)).toNat
      let len := (i.val y ((lowestLane (i.lanes g)).getD 0)).toNat
      let area := s.areaOf i.w + 1024
      let pad := (s.descOf i.w).scratch * 32768;
      Ready s i true (g.regs ++ (x.regs ++ y.regs)) (x.regs ++ y.regs) → ∀ ins ∈ ([.savewS g x y, .restwS g x y] : List Instr),
        (inside → off + len ≤ pad → off % 256 = 0 → len % 256 = 0 → area + off + len < 2 ^ 64 →
          ∃ ps, opens ins ps [area] [] ∧ covers ps (area + off) len)
        ∧ (pad < off + len → exec ins s = .next (s.illegal i 0x15))
        ∧ (off + len ≤ pad → off % 256 ≠ 0 ∨ len % 256 ≠ 0 → exec ins s = .next (s.illegal i 0x17))
        ∧ (¬ inside → off + len ≤ pad → off % 256 = 0 → len % 256 = 0 → exec ins s = .next (s.illegal i 0x1D)))
    ∧ (¬ inside → (Ready s i true (g.regs ++ ctlRegs) ctlRegs → ∀ ins ∈ ([.savewC g, .restwC g] : List Instr),
        exec ins s = .next (s.illegal i 0x1D))
      ∧ (Ready s i true (g.regs ++ vRun a (8 * n)) (vRun a (8 * n)) → ∀ ins ∈ ([.savewV g a n, .restwV g a n] : List Instr),
        exec ins s = .next (s.illegal i 0x1D))))
  ∧ (∀ (s : State) (w : Wave) (x : Access) (g : Guard) (b : List Byte), s.wave? w.uid = some w → x.instr = .restwC g →
    x.pieces.flatMap (fun p => p.got) = b → b.length = 0x5C8 → (∀ p ∈ x.pieces, p.done = true) →
    let info := field b 0 4
    let malformed : Prop := info / 2 ^ 14 ≠ 0 ∨ info % 64 ∉ [1, 2, 3, 4, 5, 6, 7, 0x20, 0x21, 0x22, 0x23, 0x24, 0x25]
      ∨ 8 < info / 2 ^ 7 % 16 ∨ 5 < info / 2 ^ 11 % 8 ∨ field b 0x5C0 8 / 2 ^ 48 ≠ 0
      ∨ ∃ l, l < 32 ∧ (8 < field b (0x100 + l) 1 % 16 ∨ field b (0x100 + l) 1 / 32 ≠ 0 ∨ field b (0x120 + 8 * l) 8 % 8 ≠ 0)
    (malformed → s.finishRestw w x = s.uncontained w (s.reportOf w 0x22 0x1E x.word x.addr x.hdr))
    ∧ (¬ malformed → w.live &&& ~~~w.trap.returned ≠ 0 → (∀ l, l < 32 → w.live.getLsbD l = true → field b (0xE0 + l) 1 < 128) →
      ∃ w', (s.finishRestw w x).wave? w.uid = some w' ∧ w'.paths = w.paths ∧ w'.rf.v = w.rf.v ∧ w'.exited = w.exited
        ∧ w'.trap.code = info % 64 ∧ w'.trap.inHandler = w.trap.inHandler ∧ w'.rf.fpstat = BitVec.ofNat 6 (field b 4 4)
        ∧ (∀ k, k < 48 → w'.rf.sreg k = BitVec.ofNat 32 (field b (0x20 + 4 * k) 4))
        ∧ (∀ k l, k < 7 → w.exist.getLsbD l = true → w'.rf.pred k l = (BitVec.ofNat 8 (field b (0xE0 + l) 1)).getLsbD k)
        ∧ (∀ l, l < 32 → w.live.getLsbD l = true → w.trap.returned.getLsbD l = false → Map.find w'.trap.pts l = some
          { hdr := BitVec.ofNat 64 (field b (0x120 + 8 * l) 8), idx := field b (0x100 + l) 1 % 16
            waitOnly := (BitVec.ofNat 8 (field b (0x100 + l) 1)).getLsbD 4 })
        ∧ (∀ k, k < 64 → Map.get 0 w'.bar.mask k = BitVec.ofNat 32 (field b (0x440 + 4 * k) 4)
          ∧ Map.get 0 w'.bar.ticket k = field b (0x540 + 2 * k) 2)))
  ∧ (∀ (s : State) (i : Issue) (g : Guard), Ready s i true (g.regs ++ []) [] → i.lanes g ≠ 0 →
    let asked : Prop := (∃ x, s.gang? i.w.gang = some x ∧ (x.state = .requested ∨ x.state = .handling))
      ∧ (i.w.trap.taken = true ∨ i.w.trap.preempt = true)
    let saving : Prop := ∃ o ∈ i.w.ops, o.isSavew = true
    (¬ (i.w.trap.inHandler = true ∧ i.w.trap.cause = 1) → exec (.yieldSaved g) s = .next (s.illegal i 0x1D))
    ∧ (i.w.trap.inHandler = true → i.w.trap.cause = 1 →
      (saving → exec (.yieldSaved g) s = .next s)
      ∧ (¬ saving → ¬ asked → Opens s i (.yieldSaved g) i.w i.past)
      ∧ (¬ saving → asked → ∃ t, exec (.yieldSaved g) s = .next t ∧ t.wave? i.w.uid = some { i.w with
          trap := { i.w.trap with taken := true, preempt := false, reported := true }
          paths := i.w.paths.map (fun p => { p with halted := true }) }
        ∧ (∀ u, u ≠ i.w.uid → t.wave? u = s.wave? u) ∧ t = { s with waves := t.waves, gangs := t.gangs })))

/-- R51, R52, R55, R56, R59, R72, R73, R275, R279, R289: CLAUSE_START. A path that may start a clause, when its wave's turn in
its partition and its own in its wave have come, which within R275's bound is the model's order (assumption log 31), fetches its
words through the wave's translation. A header whose flags let it starts: its first word, or the word of a trap point, is the
next to issue. WAIT holds it while a flag it names counts operations, and any clause waits that could bind a sixteenth one. A
word that is no header is ILLEGAL 0x10, a malformed clause the reason of its first offending word. That a held path leaves the
state unchanged and tries again is the model's reading (assumption log 12). -/
def Obligations.ClauseStart : Prop :=
  ∀ (s : State) (w : Wave) (p : Path) (l : Nat) (h : Word64) (ws : List Word64), s.wave? w.uid = some w →
    w.paths.find? (fun x => x.lanes.getLsbD l) = some p → s.running w = true →
    let free : Prop := p.clause = none ∧ p.waiting = false ∧ p.halted = false ∧ p.dbg = false ∧ w.trap.pend = none
      ∧ w.dbgWant = false
      ∧ (w.paths.filter (fun q => q.slot && q.clause.isSome && !q.waiting && !q.halted && !q.dbg)).length < 2
    let turn : Prop := s.waveTurn w = true ∧ s.ranksFirst w p = true
    let fetched (va : Nat) (x : Word64) : Prop :=
      ∃ m, s.xlate w Want.fetch va = .ok m ∧ s.numAt m.pa 8 = x.toNat ∧ s.bad.contains (m.pa / 64) = false
    let waits : Prop := p.entry = 0 ∧ ∃ f, f < 12 ∧ (headerOf h).wait.getLsbD f = true ∧ w.flagCount f ≠ 0
    let more (f : Nat) : Nat := bindsTo (headerOf h) ws (p.entry - 1) f
    let room : Prop := ∀ f, f < 12 → more f = 0 ∨ w.flagCount f + w.flagOwed f + more f ≤ 15
    (¬ free ∨ ¬ turn → exec (.clauseStart w.uid l) s = .next s)
    ∧ (free → turn → fetched p.pc.toNat h →
      (kindOf h ≠ .header → exec (.clauseStart w.uid l) s = .next (s.uncontained w (s.reportOf w 0x22 0x10 h p.pc p.prev)))
      ∧ (kindOf h = .header → (headerOf h).count = ws.length →
        (∀ k, k < ws.length → fetched ((p.pc.toNat + 8 * (k + 1)) % 2 ^ 64) (ws.getD k 0)) →
        (∀ k r, clauseReason w.env (headerOf h) ws = some (k, r) → ∃ t, exec (.clauseStart w.uid l) s = .next t
          ∧ s.reportOf w 0x22 r ((h :: ws).getD k 0) (p.pc + BitVec.ofNat 64 (8 * k)) p.pc ∈ t.reports)
        ∧ (clauseReason w.env (headerOf h) ws = none → p.step = false →
          (waits ∨ ¬ room → ∃ t, exec (.clauseStart w.uid l) s = .next t ∧ t = { s with filters := t.filters, tlb := t.tlb })
          ∧ (¬ waits → room → p.entry - 1 < ws.length → ∃ t w' i, exec (.clauseStart w.uid l) s = .next t
            ∧ t.wave? w.uid = some w' ∧ w' = { w with paths := w'.paths, turn := w'.turn }
            ∧ (∀ u, u ≠ w.uid → t.wave? u = s.wave? u)
            ∧ t = { s with waves := t.waves, filters := t.filters, tlb := t.tlb, fresh := s.fresh + 1, cur := t.cur }
            ∧ (∀ q ∈ w.paths, q.lanes &&& p.lanes = 0 → q.lanes ≠ 0 → ∃ q' ∈ w'.paths, q.lanes &&& ~~~q'.lanes = 0
              ∧ q'.clause = q.clause
              ∧ (q.back = true ∨ s.couldStart w q = true → q.passed + 1 ≤ q'.passed))
            ∧ t.issue? = some i ∧ i.w = w' ∧ i.p.lanes = p.lanes
            ∧ i.c = { addr := p.pc, head := headerOf h, words := ws, idx := p.entry - 1 } ∧ i.word = ws.getD (p.entry - 1) 0))))

/-- R312, R313, R353, R354, R359, R371, R402, R403, R417 to R420: the registers of the hub. A doorbell submits the slots it
passes that hold WAITING, and makes READY those without a predecessor; REPLAY releases an open fault entry; HUB_KILL removes a
fault domain's running nodes; HUB_SNAP copies an item whole; the ring, fault ring and table registers take effect when their
conditions hold and are discarded and counted otherwise, an 8-byte register at its upper half. While RESET_N is low nothing is
taken. What a window answers where nothing stands is the model's choice, and that RGN_SYNC reads a region not read before its
reading (assumption log 35, 61). -/
def Obligations.HubRegisters : Prop :=
  (∀ (s : State) (ring head : Nat), s.pins.reset = false →
    let r := s.ring ring
    let size := 2 ^ (r.sizeLog + 4)
    let open_ : Prop := (s.fw.state = 1 ∨ s.fw.state = 2) ∧ s.pins.linkFailed = false
    let passed (k : Nat) : Prop := k < size ∧ (k + size - r.head % size) % size < (head + size - r.head % size) % size
    let state (t : State) (k : Nat) : Nat := t.numAt (r.base + 256 * k) 4 % 16
    let due (k : Nat) : Prop := passed k ∧ state s k = 1 ∧ k ∉ r.submitted
    (open_ → ring < 64 → ring < s.rings.length → r.bound = true → head < size → ∃ t, exec (.hubDoorbell ring head) s = .next t
      ∧ (t.ring ring).head = head ∧ (∀ n, n ≠ ring → t.ring n = s.ring n) ∧ t.waves = s.waves
      ∧ ∀ k, k < size →
        (due k → s.numAt (r.base + 256 * k + 4) 4 ≠ 0 → k ∈ (t.ring ring).submitted ∧ state t k = 1)
        ∧ (due k → s.numAt (r.base + 256 * k + 4) 4 = 0 → state t k = 2
          ∧ ∃ n ∈ t.nodes, n.ring = ring ∧ n.slot = k ∧ n.ctx = r.ctx ∧ n.running = false ∧ n.readyTick = s.tick
          ∧ n.readyAt = s.fresh)
        ∧ (¬ due k → state t k = state s k ∧ (k ∈ (t.ring ring).submitted ↔ k ∈ r.submitted)))
    ∧ (¬ open_ ∨ 64 ≤ ring ∨ r.bound = false ∨ size ≤ head → ∃ t, exec (.hubDoorbell ring head) s = .next t
      ∧ t = { s with rings := t.rings } ∧ (ring < s.rings.length → t.ring ring = { r with discards := r.discards + 1 })
      ∧ ∀ n, n ≠ ring → t.ring n = s.ring n))
  ∧ (∀ (s : State) (v : BitVec 32), s.pins.reset = false →
    let r := v.toNat % 65536
    let hit (n : Node) : Prop := n.running = true
      ∧ (s.inDomain r n.region = true ∨ ∃ b ∈ s.batches, b.node = n.uid ∧ s.inDomain r b.region = true)
    ((∃ f ∈ s.filters, f.id = v.toNat ∧ f.replayed = false) → ∃ t, exec (.hubReplay v) s = .next t
      ∧ t = { s with filters := t.filters }
      ∧ (∀ f ∈ t.filters, f.id = v.toNat → f.replayed = true)
      ∧ ∀ f ∈ s.filters, f.id ≠ v.toNat → f.waiters ≠ [] → f ∈ t.filters)
    ∧ ((∀ f ∈ s.filters, f.id = v.toNat → f.replayed = true) → ∃ t, exec (.hubReplay v) s = .next t
      ∧ t = { s with hub := { s.hub with counters := t.hub.counters } }
      ∧ ∀ o, Map.get 0 t.hub.counters o = if o = 0x50 then Map.get 0 s.hub.counters 0x50 + 1 else Map.get 0 s.hub.counters o)
    ∧ (r = 0 ∨ s.region? r = none → exec (.hubKill v) s = .next s)
    ∧ (r ≠ 0 → s.region? r ≠ none → ∃ t, exec (.hubKill v) s = .next t ∧ t.reports = s.reports
      ∧ (∀ n ∈ s.nodes, hit n → (∀ m ∈ t.nodes, m.uid ≠ n.uid) ∧ ∀ u w, s.wave? u = some w → w.node = n.uid → t.wave? u = none)
      ∧ (∀ m ∈ s.nodes, (∀ n ∈ s.nodes, hit n → n.uid ≠ m.uid) → m ∈ t.nodes)
      ∧ (∀ n, (∀ m ∈ s.nodes, hit m ↔ m = n) → n ∈ s.nodes → s.nodes.count n = 1 → (∀ p ∈ s.passes, p.node ≠ n.uid) →
        t.numAt (s.recordOf n) 4 % 16 = 5 ∧ t.numAt (s.recordOf n) 4 / 256 % 256 = 0x09
          ∧ t.numAt (s.recordOf n + 0x50) 8 = s.tick % 2 ^ 64))
    ∧ (let x := s.parseRegion r
      (s.region? r = none → s.regionBad r = false →
        ∃ t lim, exec (.hubRgnSync v) s = .next t ∧ t = { s with regions := t.regions }
          ∧ lim = State.effEnergy { s with regions := s.regions ++ [x] } r ∧ t.region? r = some { x with windowLimit := some lim }
          ∧ ∀ q y, s.region? q = some y → y.windowLimit ≠ none → t.region? q = some y)
      ∧ (∀ old, s.region? r = some old → x.malformed = true → ∃ t, exec (.hubRgnSync v) s = .next t
        ∧ t.region? r = some { old with malformed := true, named := x.named } ∧ cpReport 0x22 0x0C [r] 0 ∈ t.reports)
      ∧ (∀ old, s.region? r = some old → x.malformed = false → s.regionBad r = false → x.named = old.named →
        ∃ t, exec (.hubRgnSync v) s = .next t ∧ t = { s with regions := t.regions } ∧ t.region? r = some { x with
          energyTotal := old.energyTotal, windowsCapped := old.windowsCapped, preempts := old.preempts, kills := old.kills
          windowLimit := old.windowLimit, charge := old.charge, capped := old.capped }))
    ∧ (let group := v.toNat / 65536 % 256
      let item := s.item group (v.toNat % 65536)
      (s.snap.copying = none → exec (.hubSnap v) s = .next { s with
        snap := { s.snap with
          group := group, index := v.toNat % 65536
          copying := some (s.tick, toBytes 8 s.tick ++ toBytes 1 group ++ toBytes 1 0 ++ toBytes 2 (v.toNat % 65536) ++ toBytes 4 item.len
            ++ item.bytes) }
        freeCtr := s.freeCtr + 2 })
      ∧ (s.snap.copying ≠ none → exec (.hubSnap v) s = .next s)
      ∧ (∀ k b, s.snap.copying = some (k, b) → exec .snapCopyDone s = .next { s with snap := { s.snap with copying := none, buf := b } })
      ∧ (s.snap.copying = none → exec .snapCopyDone s = .next s)))
  ∧ (∀ (s : State) (n : Nat) (r : Ring) (v : BitVec 32), s.pins.reset = false → n < 64 → s.rings[n]? = some r →
    let busy : Prop := r.submitted ≠ [] ∨ ∃ x ∈ s.nodes, x.ring = n
    let lo := (Map.find s.hub.halves (0x100 + 16 * n)).getD (r.base % 2 ^ 32)
    let now (t : State) (y : Ring) : Prop := t.rings = s.rings.set n y
    (∃ t, exec (.hubRingCtl n v) s = .next t ∧ t = { s with rings := t.rings } ∧
      (busy → now t { r with ctlDiscards := r.ctlDiscards + 1 })
      ∧ (¬ busy → now t { r with
          bound := v.getLsbD 31 && decide (v.toNat / 2 ^ 24 % 16 ≤ 12), sizeLog := v.toNat / 2 ^ 24 % 16, ctx := v.toNat % 65536
          head := 0 }))
    ∧ (∃ t, exec (.hubRingBase n false v) s = .next t ∧ t = { s with hub := { s.hub with halves := t.hub.halves } }
      ∧ Map.find t.hub.halves (0x100 + 16 * n) = some v.toNat)
    ∧ (∃ t, exec (.hubRingBase n true v) s = .next t ∧ t = { s with rings := t.rings, hub := { s.hub with halves := t.hub.halves } } ∧
      (busy → now t { r with ctlDiscards := r.ctlDiscards + 1 })
      ∧ (¬ busy → now t { r with base := (v.toNat * 2 ^ 32 + lo) / 256 * 256, head := 0 })))
  ∧ (∀ (s : State) (n : Nat) (r : FaultRing) (v : BitVec 32), s.pins.reset = false → s.faultRings[n]? = some r →
    let lo := (Map.find s.hub.halves (0x500 + 32 * n)).getD (r.base % 2 ^ 32)
    let now (t : State) (y : FaultRing) : Prop := t.faultRings = s.faultRings.set n y
    let discarded (t : State) : Prop := t.faultRings = s.faultRings
      ∧ Map.get 0 t.hub.counters 0x68 = Map.get 0 s.hub.counters 0x68 + 1
    (∃ t, exec (.hubFrCtl n v) s = .next t ∧ t = { s with faultRings := t.faultRings, hub := { s.hub with counters := t.hub.counters } } ∧
      (r.enable = true → v.getLsbD 31 = true → discarded t)
      ∧ (r.enable = false → v.getLsbD 31 = true → now t { r with enable := true, sizeLog := v.toNat % 32, head := 0, tail := 0 })
      ∧ (v.getLsbD 31 = false → now t { r with enable := false, sizeLog := v.toNat % 32 }))
    ∧ (∃ t, exec (.hubFrHead n v) s = .next t ∧ t = { s with faultRings := t.faultRings } ∧ now t { r with head := v.toNat })
    ∧ (∃ t, exec (.hubFrBase n false v) s = .next t ∧ t = { s with hub := { s.hub with halves := t.hub.halves } }
      ∧ Map.find t.hub.halves (0x500 + 32 * n) = some v.toNat)
    ∧ (∃ t, exec (.hubFrBase n true v) s = .next t
      ∧ t = { s with faultRings := t.faultRings, hub := { s.hub with counters := t.hub.counters, halves := t.hub.halves } } ∧
      (r.enable = true → discarded t) ∧ (r.enable = false → now t { r with base := (v.toNat * 2 ^ 32 + lo) / 4096 * 4096 })))
  ∧ (∀ (s : State) (v : BitVec 32), s.pins.reset = false →
    let ctxLo := (Map.find s.hub.halves 0x18).getD (s.hub.ctxBase % 2 ^ 32)
    let rgnLo := (Map.find s.hub.halves 0x20).getD (s.hub.rgnBase % 2 ^ 32)
    let discarded (t : State) : Prop := t = { s with hub := { s.hub with counters := t.hub.counters, halves := t.hub.halves } }
      ∧ Map.get 0 t.hub.counters 0x68 = Map.get 0 s.hub.counters 0x68 + 1
    (∃ t, exec (.hubCtxBase false v) s = .next t ∧ t = { s with hub := { s.hub with halves := t.hub.halves } }
      ∧ Map.find t.hub.halves 0x18 = some v.toNat)
    ∧ (∃ t, exec (.hubCtxBase true v) s = .next t ∧ (s.ctxs ≠ [] → discarded t)
      ∧ (s.ctxs = [] → t = { s with hub := { s.hub with halves := t.hub.halves, ctxBase := (v.toNat * 2 ^ 32 + ctxLo) / 4096 * 4096 } }))
    ∧ (∃ t, exec (.hubRgnBase false v) s = .next t ∧ t = { s with hub := { s.hub with halves := t.hub.halves } }
      ∧ Map.find t.hub.halves 0x20 = some v.toNat)
    ∧ (∃ t, exec (.hubRgnBase true v) s = .next t ∧ (s.ctxs ≠ [] ∨ s.nodes ≠ [] → discarded t)
      ∧ (s.ctxs = [] → s.nodes = [] → t = { s with
          regions := [], hub := { s.hub with halves := t.hub.halves, rgnBase := (v.toNat * 2 ^ 32 + rgnLo) / 256 * 256 } }))
    ∧ (exec (.registerWrite 0x00 v) s = exec (.hubDoorbell (v.toNat % 64) (v.toNat / 65536)) s
      ∧ exec (.registerWrite 0x04 v) s = exec (.hubReplay v) s ∧ exec (.registerWrite 0x08 v) s = exec (.hubRgnSync v) s
      ∧ exec (.registerWrite 0x0C v) s = exec (.hubKill v) s ∧ exec (.registerWrite 0x10 v) s = exec (.hubSnap v) s
      ∧ (∀ up : Bool, let h := if up then 4 else 0
        exec (.registerWrite (0x18 + h) v) s = exec (.hubCtxBase up v) s
          ∧ exec (.registerWrite (0x20 + h) v) s = exec (.hubRgnBase up v) s
        ∧ (∀ n, n < 64 → exec (.registerWrite (0x100 + 16 * n + h) v) s = exec (.hubRingBase n up v) s)
        ∧ ∀ n, n < 4 → exec (.registerWrite (0x500 + 32 * n + h) v) s = exec (.hubFrBase n up v) s)
      ∧ exec (.registerWrite 0x28 v) s = .next { s with hub := { s.hub with pcieAtom := v.setWidth 8 } }
      ∧ (∀ n, n < 64 → exec (.registerWrite (0x108 + 16 * n) v) s = exec (.hubRingCtl n v) s)
      ∧ (∀ n, n < 4 → exec (.registerWrite (0x508 + 32 * n) v) s = exec (.hubFrCtl n v) s
        ∧ exec (.registerWrite (0x50C + 32 * n) v) s = exec (.hubFrHead n v) s
        ∧ exec (.registerWrite (0x510 + 32 * n) v) s = .next s)
      ∧ ∀ o, o % 4 ≠ 0 ∨ o ∈ [0x14, 0x2C, 0x1000, 0x1008, 0x2000, 0x2040, 0x10000, 0x40000] →
        exec (.registerWrite o v) s = .next s))
  ∧ (∀ (s : State) (n : Nat) (up : Bool) (v : BitVec 32), s.pins.reset = true →
    ∀ ins ∈ ([.hubDoorbell n v.toNat, .hubReplay v, .hubKill v,
      .hubRgnSync v, .hubSnap v, .hubRingCtl n v, .hubRingBase n up v, .hubFrCtl n v, .hubFrHead n v, .hubFrBase n up v,
        .hubCtxBase up v,
      .hubRgnBase up v, .registerWrite n v] : List Instr), exec ins s = .next s)

/-- R193, R195, R247, R366, R412, R416, R417: requests of the host and of PCIe peers. Where no write is in flight, a read of
device memory answers its bytes, a write changes exactly its own bytes and advances its sectors' versions, a read-modify-write
does both at once, and every page touched becomes shared; an address of the management window reaches its registers. A peer's
request outside the enabled windows, and an atomic other than add, exchange and compare, is answered with Unsupported Request
and counted; while PERST_N is low none arrives. The answers to requests that name nothing, whether LIMIT lies inside a window,
and PERST_N in RECOVERY are the model's reading (assumption log 66, 67, 93). -/
def Obligations.HostAndPeers : Prop :=
  ∀ (s : State) (req addr len : Nat) (data : List Byte) (op : AtomOp) (wide : Bool) (x y : BitVec 64),
    s.pins.reset = false → s.pins.linkFailed = false → s.writes = [] →
    let n := if wide then 8 else 4
    let memory (k : Nat) : Prop := ∃ h, s.homeOf addr = some h ∧ (k = 0 ∨ s.homeOf (addr + k - 1) = some h)
    let window (k : Nat) : Prop := windowBase ≤ addr ∧ addr + k ≤ windowBase + 2 ^ 26
    let shared (t : State) (k : Nat) : Prop := (∀ j, j < k → Map.find t.classes ((addr + j) / 4096) = some .shared) ∧ t.writes = []
      ∧ t.waves = s.waves ∧ t.nodes = s.nodes ∧ (∀ l ∈ t.lines, l ∈ s.lines)
    let reads (ins : Instr) (m : Sent) (k : Nat) : Prop := ∃ t, exec ins s = .next t ∧ shared t k ∧ t.sent = s.sent ++ [m]
      ∧ t.mem = s.mem ∧ t.vers = s.vers
    let puts (t : State) (b : List Byte) : Prop := (∀ a, t.byteAt a = if addr ≤ a
      ∧ a < addr + b.length then b.getD (a - addr) 0 else s.byteAt a)
      ∧ ∀ k, Map.get 0 t.vers k = if addr / 64 ≤ k ∧ k ≤ (addr + b.length - 1) / 64 then (Map.get 0 s.vers k + 1) % 2 ^ 32
          else Map.get 0 s.vers k
    let writes (ins : Instr) : Prop := ∃ t, exec ins s = .next t ∧ shared t data.length ∧ t.sent = s.sent ∧ puts t data
    let swaps (ins : Instr) (m : Sent) : Prop := ∃ t, exec ins s = .next t ∧ shared t n ∧ t.sent = s.sent ++ [m]
      ∧ match atomNew op n (s.bytesAt addr n) (toBytes n x.toNat) (toBytes n y.toNat) with
        | some b => b.length = n → puts t b
        | none => t.mem = s.mem ∧ t.vers = s.vers
    let served (k : Nat) : Prop := s.pins.perst = false ∧ ∃ w ∈ s.hub.inwin, w.2 % 2 = 1 ∧ w.1 ≤ addr
      ∧ addr + k ≤ w.2 / 65536 * 65536
    let outside (k : Nat) : Prop := s.pins.perst = false ∧ ∀ w ∈ s.hub.inwin, w.2 % 2 = 1 → addr < w.1
      ∨ w.2 / 65536 * 65536 + 65536 < addr + k
    let refused (ins : Instr) : Prop := ∃ t, exec ins s = .next t ∧ t.sent = s.sent ++ [.unsupported req]
      ∧ t = { s with sent := t.sent, hub := { s.hub with counters := t.hub.counters } }
      ∧ Map.get 0 t.hub.counters 0x70 = Map.get 0 s.hub.counters 0x70 + 1
    (memory len → ¬ window len → reads (.hostRead addr len) (.host (s.bytesAt addr len)) len)
    ∧ (window len → exec (.hostRead addr len) s = .next { s with sent := s.sent ++ [.host (s.windowRead (addr - windowBase) len)] })
    ∧ (data ≠ [] → memory data.length → ¬ window data.length → writes (.hostWrite addr data))
    ∧ (window data.length → data.length = 4 → (addr - windowBase) % 4 = 0 →
      exec (.hostWrite addr data) s = exec (.registerWrite (addr - windowBase) (BitVec.ofNat 32 (ofBytes data))) s)
    ∧ (memory n → swaps (.hostRmw addr op wide x y) (.host (s.bytesAt addr n)))
    ∧ (data ≠ [] → memory data.length → served data.length → writes (.inboundWrite req addr data))
    ∧ (memory len → served len → reads (.inboundRead req addr len) (.peer req (s.bytesAt addr len)) len)
    ∧ (memory n → served n → op ∈ [.add, .exch, .cas] → swaps (.inboundAtomic req addr op wide x y) (.peer req (s.bytesAt addr n)))
    ∧ (outside data.length → refused (.inboundWrite req addr data)) ∧ (outside len → refused (.inboundRead req addr len))
    ∧ (outside n ∨ s.pins.perst = false ∧ op ∉ [.add, .exch, .cas] → refused (.inboundAtomic req addr op wide x y))
    ∧ (s.pins.perst = true → ∀ ins ∈ ([.inboundWrite req addr data, .inboundRead req addr len,
      .inboundAtomic req addr op wide x y] : List Instr), exec ins s = .next s)
    ∧ (∀ k, k < 64 → s.windowRead (0x108 + 16 * k) 4
      = toBytes 4 ((if (s.ring k).bound then 2 ^ 31 else 0) + (s.ring k).sizeLog % 16 * 2 ^ 24 + (s.ring k).ctx % 65536))
    ∧ (∀ k ∈ [0x00, 0x04, 0x08, 0x0C, 0x14, 0x1004], s.windowRead k 4 = [0, 0, 0, 0])
    ∧ s.windowRead 0x10000 16 = (List.range 16).map (fun k => s.snap.buf.getD k 0)
    ∧ s.windowRead 0x1000 4 = toBytes 4 ((if s.fw.pref then 2 ^ 28 else 0) + s.board.floor % 128 * 2 ^ 20 + s.fw.state % 16 * 2 ^ 16
        + s.fw.reasonB % 256 * 2 ^ 8 + s.fw.reasonA % 256)

/-- R74, R392 to R400, R408, R422: firmware. BOOT_SLOT and RAISE_FLOOR are answered with the result of the first refusal that
holds, or are done: STATE is REBOOTING with the slot preferred, the floor rises to the running image's EPOCH. A boot ends with
the slot that is accepted running, the preferred one if it is, its body in the carve-out and its postilions started, or in
RECOVERY with the cores gated. The recovery mailbox answers ROM_VERSION, FLASH_ID and READ_HEADER, and discards and counts a
request behind another or while the device boots; a slot write changes a slot that does not run. An SPDM exchange is answered on
the host link, DIGESTS and CERTIFICATE with the chain, MEASUREMENTS with the five measurements, signed where an answer is. A
postilion silent for three heartbeats of 10 ms restarts them all. The steps of the hash and of the signatures are those of the
standards that the rules name, SPDM answers are free, and what the rules leave open at their joints is the model's choice
(assumption log 8, 63, 64, 102, 103). -/
def Obligations.Firmware : Prop :=
  (∀ (s : State) (v : BitVec 32), s.pins.reset = false → s.fw.cmds = [] →
    let slot := v.getLsbD 4
    let booting : Prop := s.fw.state = 0 ∨ s.fw.state = 4
    let answered (t : State) (r : Nat) : Prop := t.fw.cmds = [] ∧ t.fw.cmdSeq = (s.fw.cmdSeq + 1) % 65536 ∧ t.fw.cmdResult = r
    let only (ins : Instr) (r : Nat) : Prop := ∃ t, exec ins s = .next t ∧ answered t r
      ∧ t = { s with fw := { s.fw with cmdSeq := t.fw.cmdSeq, cmdResult := t.fw.cmdResult } }
    (booting → only (.bootSlot v) 5 ∧ only (.raiseFloor v) 5)
    ∧ (¬ booting → s.ctxs ≠ [] → only (.bootSlot v) 3)
    ∧ (¬ booting → s.ctxs = [] →
      (s.slotReason slot = 6 → only (.bootSlot v) 1) ∧ (s.slotReason slot ≠ 6 → s.slotReason slot ≠ 0 → only (.bootSlot v) 2)
      ∧ (s.slotReason slot = 0 → ∃ t, exec (.bootSlot v) s = .next t ∧ answered t 0 ∧ t.fw.state = 4 ∧ t.fw.pref = slot
        ∧ t.board = s.board ∧ (∀ w ∈ t.waves, w.post = none) ∧ (∀ x ∈ t.spokes, x.gated = true ∧ x.ungating = false)
        ∧ (s.writes = [] → t = { s with
          fw := t.fw, waves := s.waves.filter (fun w => w.post.isNone), spokes := t.spokes, lines := t.lines })))
    ∧ (¬ booting → s.runSlot = none → only (.raiseFloor v) 4)
    ∧ (∀ b, ¬ booting → s.runSlot = some b →
      (s.epoch b ≤ s.board.floor ∨ 127 < s.epoch b → only (.raiseFloor v) 4)
      ∧ (s.board.floor < s.epoch b → s.epoch b ≤ 127 → ∃ t, exec (.raiseFloor v) s = .next t ∧ answered t 0
        ∧ t = { s with fw := t.fw, board := { s.board with floor := s.epoch b } })))
  ∧ (∀ (s : State) (rest : List Move), s.schedule = .boot :: rest →
    let r : State := { s with schedule := rest }
    let booting : Prop := s.fw.state = 0 ∨ s.fw.state = 4
    let pref := s.fw.pref
    let image (b : Bool) : List Byte := s.flashBytes b 512 (ofBytes (s.flashBytes b 8 4))
    let carve := devBase + Config.fwCarve % spokeSpan
    (s.pins.reset = true ∨ ¬ booting → step s = .next r)
    ∧ (s.pins.reset = false → booting → ∃ t, step s = .next t ∧ t.board = s.board ∧ t.fw.pref = pref
      ∧ (∀ b, t.fw.state = (if b then 2 else 1) → t.pins = { s.pins with perst := false }
        ∧ ∀ k, k < (image b).length → t.byteAt (carve + k) = (image b).getD k 0)
      ∧ (t.fw.state = 3 → t.pins = s.pins ∧ (∀ x ∈ t.spokes, x.gated = true ∧ x.ungating = false)
        ∧ (s.writes = [] → t.mem = s.mem))
      ∧ (t.fw.state = 1 ↔ r.slotReason false = 0 ∧ (pref = true → r.slotReason true ≠ 0))
      ∧ (t.fw.state = 2 ↔ r.slotReason true = 0 ∧ (pref = false → r.slotReason false ≠ 0))
      ∧ (t.fw.state = 3 ↔ r.slotReason false ≠ 0 ∧ r.slotReason true ≠ 0)
      ∧ (∀ w ∈ t.waves, w ∈ s.waves ∨ w.post ≠ none)
      ∧ (t.fw.state ≠ 3 → ∀ site ∈ s.postSites, ∃ w ∈ t.waves, w.post = some site ∧ w.live = allLanes)))
  ∧ (∀ (s : State) (v : BitVec 32), s.pins.reset = false → s.fw.state ≠ 0 → s.fw.state ≠ 4 → s.fw.req = none →
    let slot := v.getLsbD 4
    let gives (ins : Instr) (result reason : Nat) (data : List Byte) : Prop := exec ins s = .next { s with fw := { s.fw with
      rmSeq := (s.fw.rmSeq + 1) % 65536, rmResult := result, rmReason := reason, rmData := data } }
    gives .romVersion 0 0 (toBytes 4 Config.romRelease.toNat ++ (List.range 48).map Config.romHash)
    ∧ (∃ data, gives .flashId 0 0 data ∧ data.getD 8 0 = BitVec.ofNat 8 s.fw.reasonA ∧ data.getD 9 0 = BitVec.ofNat 8 s.fw.reasonB)
    ∧ (s.flashErr slot 0 512 = true → gives (.readHeader v) 1 0 [])
    ∧ (s.flashErr slot 0 512 = false → ∃ reason, gives (.readHeader v) 0 reason (s.flashBytes slot 0 512)
      ∧ (ofBytes (s.flashBytes slot 0 4) ≠ 0x57465A4B → reason = 1)))
  ∧ (∀ (s : State) (b : Bool),
    let f (o n : Nat) : Nat := ofBytes (s.flashBytes b o n)
    let size := f 8 4
    let key := s.flashBytes b 0x80 97
    let clean : Prop := f 0x0C 4 = 0 ∧ f 0x40 64 = 0 ∧ f 0xE1 31 = 0 ∧ f 0x160 160 = 0
    let sized : Prop := size % 4096 = 0 ∧ 4096 ≤ size ∧ size ≤ 0x00FFF000
    let signed : Prop := sigOk key (s.flashBytes b 0 0x100) (s.flashBytes b 0x100 96) = true
    (s.flashErr b 0 512 = true → s.slotReason b = 7)
    ∧ (s.flashErr b 0 512 = false →
      (f 0 4 ≠ 0x57465A4B → s.slotReason b = 1)
      ∧ (f 0 4 = 0x57465A4B → (¬ sized → s.slotReason b = 2) ∧ (sized → (¬ clean → s.slotReason b = 8)
        ∧ (clean → (sha384 key ≠ s.board.keyHash → s.slotReason b = 3)
          ∧ (sha384 key = s.board.keyHash → (¬ signed → s.slotReason b = 4)
            ∧ (signed → (s.flashErr b 512 size = true → s.slotReason b = 7)
              ∧ (s.flashErr b 512 size = false →
                (sha384 (s.flashBytes b 512 size) ≠ s.flashBytes b 0x10 48 → s.slotReason b = 5)
                ∧ (sha384 (s.flashBytes b 512 size) = s.flashBytes b 0x10 48 →
                  s.slotReason b = (if f 4 4 / 2 ^ 24 < s.board.floor then 6 else 0))))))))))
  ∧ (∀ (s : State) (r : Word), s.pins.reset = false → s.fw.req = some r ∨ s.fw.state = 0 ∨ s.fw.state = 4 →
    ∀ row ∈ ([(.romVersion, 1), (.flashId, 2), (.readHeader 0x03, 3), (.readHeader 0x13, 0x13)] : List (Instr × Nat)),
      r.toNat % 32 ≠ row.2 ∨ s.fw.state = 0 ∨ s.fw.state = 4 →
      ∃ t, exec row.1 s = .next t ∧ t = { s with hub := { s.hub with counters := t.hub.counters } }
        ∧ Map.get 0 t.hub.counters 0x78 = Map.get 0 s.hub.counters 0x78 + 1)
  ∧ (∀ (s : State) (o : Nat) (v : BitVec 32), s.pins.reset = false → o % 4 = 0 → o < 2 ^ 25 →
    let b := decide (2 ^ 24 ≤ o)
    (s.runSlot ≠ some b → ∃ t, exec (.slotWrite o v) s = .next t ∧ t = { s with board := t.board } ∧ t.board.floor = s.board.floor
      ∧ t.board.keyHash = s.board.keyHash ∧ t.board.certs = s.board.certs
      ∧ ∀ k, Map.get 0 t.board.flash k = if o ≤ k ∧ k < o + 4 then (toBytes 4 v.toNat).getD (k - o) 0 else Map.get 0 s.board.flash k)
    ∧ (s.runSlot = some b → ∃ t, exec (.slotWrite o v) s = .next t ∧ t = { s with hub := { s.hub with counters := t.hub.counters } }
      ∧ Map.get 0 t.hub.counters 0x58 = Map.get 0 s.hub.counters 0x58 + 1))
  ∧ (∀ (s : State) (p : List (BitVec 8)), s.pins.reset = false → s.pins.linkFailed = false →
    ∀ row ∈ ([(.spdmVersion p, [], false), (.spdmCapabilities p, [], false), (.spdmAlgorithms p, [], false),
      (.spdmDigests p, sha384 s.board.certs, false), (.spdmCertificate p, s.board.certs, false), (.spdmChallenge p, [], true),
      (.spdmMeasurements p, s.measurements.flatten, Config.spdmAsks p)] : List (Instr × List Byte × Bool)),
      ∃ more signed, exec row.1 s = .next { s with freeCtr := s.freeCtr + 1, sent := s.sent ++ [.spdm (row.2.1 ++ more
        ++ if row.2.2 then sign Config.deviceKey (Config.signDraw s.freeCtr) signed else [])] })
  ∧ (∀ (s : State) (post : Nat),
    let silent : Prop := post ∈ s.postSites ∧ (post = 8 ∨ (s.spoke post).gated = false)
      ∧ (s.posts.getD post (.reset post)).beat + 3000000 ≤ s.tick
    (s.runSlot ≠ none → silent → ∃ t, exec (.postilionRestart post) s = .next t ∧ t.board = s.board
      ∧ (∀ n ∈ t.nodes, n.running = false) ∧ Map.get 0 t.hub.counters 0x60 = Map.get 0 s.hub.counters 0x60 + 1
      ∧ ∀ site ∈ s.postSites, (t.waves.filter (fun w => w.post == some site)).length = 1)
    ∧ (s.runSlot = none ∨ ¬ silent → exec (.postilionRestart post) s = .next s))

/-- R40, R287, R384, R385, R390, R421: the debugger's commands, written to a free mailbox. A target that is no wave is refused
with 2, lanes that are not stopped with 1, a range outside the budget with 3, a scope that is none with 4, a register whose
block the span holds with 5. RESUME frees the named lanes, STEP one path, STOP asks the scope's waves to stop; READ_V and
WRITE_V move registers through the data window, READ_CTL and WRITE_CTL the fields that SAVEW.C names. A command behind another
is discarded and counted. Scopes and heads out of range and a TRAPCODE of 0 are the model's reading (assumption log 59, 60). -/
def Obligations.Debugger : Prop :=
  (∀ (s : State) (d : DbgTarget) (m : LaneMask) (v : BitVec 32), s.pins.reset = false → s.mail.cmd = none → d.num < 2 ^ 14 →
    let answered (t : State) (r : Nat) : Prop := t.mail.cmd = none ∧ t.mail.seq = (s.mail.seq + 1) % 65536 ∧ t.mail.result = r
      ∧ t.mem = s.mem
    let only (ins : Instr) (r : Nat) : Prop := ∃ t, exec ins s = .next t ∧ answered t r ∧ t.waves = s.waves
      ∧ t.mail.data = s.mail.data
    let stopped (w : Wave) : Prop := ∀ p ∈ w.paths, p.dbg = true
    let held (w : Wave) : Prop := ∀ l, l < 32 → m.getLsbD l = true → ∃ p ∈ w.paths, p.dbg = true ∧ p.lanes.getLsbD l = true
    let first := v.toNat % 256
    let n := v.toNat / 256 % 32
    let range (w : Wave) : Prop := 1 ≤ n ∧ n ≤ 16 ∧ first + n ≤ w.budget
    let tokens (w : Wave) : Prop := ∀ k, first ≤ k → k < first + n → w.spanHeld.getLsbD (k / 32) = false
    (s.dbgWave d.num = none → ∀ ins ∈ ([.resume d m, .step d m, .stop d, .readV d v, .writeV d v, .readCtl d,
      .writeCtl d] : List Instr),
      only ins 2)
    ∧ (∀ w, s.dbgWave d.num = some w → s.wave? w.uid = some w →
      (¬ held w → only (.resume d m) 1 ∧ only (.step d m) 1)
      ∧ (held w → w.trap.pend = none → ∃ t w', exec (.resume d m) s = .next t ∧ answered t 0 ∧ t.wave? w.uid = some w'
        ∧ w' = { w with paths := w'.paths } ∧ (∀ u, u ≠ w.uid → t.wave? u = s.wave? u)
        ∧ ∀ l p, l < 32 → m.getLsbD l = true → w.paths.filter (fun q => q.lanes.getLsbD l) = [p] →
          ∃ q ∈ w'.paths, q.lanes.getLsbD l = true
          ∧ q.dbg = false ∧ q.trapPoint = p.trapPoint)
      ∧ (held w → m ≠ 0 → ∀ p, (lowestLane m).bind (fun l => w.paths.find? (fun q => q.dbg && q.lanes.getLsbD l)) = some p →
        ∃ t w', exec (.step d m) s = .next t ∧ answered t 0 ∧ t.wave? w.uid = some w' ∧ w' = { w with paths := w'.paths }
          ∧ ∃ q ∈ w'.paths, q.lanes = p.lanes ∧ q.dbg = false ∧ q.step = true ∧ q.trapPoint = p.trapPoint)
      ∧ (3 ≤ d.kind → only (.stop d) 4)
      ∧ (d.kind < 3 → (s.waves.map (fun x => x.uid)).Nodup → ∃ t, exec (.stop d) s = .next t ∧ answered t 0
        ∧ ∀ x ∈ s.waves, ∃ x', t.wave? x.uid = some x' ∧ x' = { x with paths := x'.paths, dbgWant := x'.dbgWant } ∧
          (if x.live ≠ 0 ∧ x.post = none ∧ ¬ stopped x ∧ ((d.kind = 0 ∧ x.uid = w.uid) ∨ (d.kind = 1 ∧ x.gang = w.gang)
            ∨ (d.kind = 2 ∧ x.node = w.node))
            then x'.dbgWant = true ∨ stopped x' else x' = x))
      ∧ (¬ stopped w → ∀ ins ∈ ([.readV d v, .writeV d v, .readCtl d, .writeCtl d] : List Instr), only ins 1)
      ∧ (stopped w → ¬ range w → only (.readV d v) 3 ∧ only (.writeV d v) 3)
      ∧ (stopped w → range w → ¬ tokens w → only (.readV d v) 5 ∧ only (.writeV d v) 5)
      ∧ (stopped w → range w → tokens w →
        (∃ t, exec (.readV d v) s = .next t ∧ answered t 0 ∧ t.waves = s.waves ∧ ∀ r l k, r < n → l < 32 → k < 4 →
          Map.get 0 t.mail.data (128 * r + 4 * l + k) = (toBytes 4 (w.rf.vreg (first + r) l).toNat).getD k 0)
        ∧ ∃ t w', exec (.writeV d v) s = .next t ∧ answered t 0 ∧ t.wave? w.uid = some w' ∧ w' = { w with rf := w'.rf }
          ∧ w'.rf = { w.rf with v := w'.rf.v, bad := w'.rf.bad } ∧ (∀ e ∈ w'.rf.bad, e ∈ w.rf.bad) ∧ ∀ r l, l < 32 →
            w'.rf.vreg r l = if first ≤ r ∧ r < first + n
          ∧ w.exist.getLsbD l = true
            then BitVec.ofNat 32 (ofBytes ((List.range 4).map (fun k => Map.get 0 s.mail.data (128 * (r - first) + 4 * l + k))))
            else w.rf.vreg r l)
      ∧ (stopped w → ∃ t, exec (.readCtl d) s = .next t ∧ answered t 0 ∧ t.waves = s.waves
        ∧ (∀ r k, r < 48 → k < 4 → Map.get 0 t.mail.data (0x20 + 4 * r + k) = (toBytes 4 (w.rf.sreg r).toNat).getD k 0)
        ∧ (∀ k, k < 4 → Map.get 0 t.mail.data (4 + k) = (toBytes 4 w.rf.fpstat.toNat).getD k 0)
        ∧ ∀ p l k, p ∈ w.paths → (∀ q ∈ w.paths, q.lanes.getLsbD l = true → q = p) → p.lanes.getLsbD l = true → l < 32 → k < 8 →
          Map.get 0 t.mail.data (0x120 + 8 * l + k) = (toBytes 8 p.trapPoint.hdr.toNat).getD k 0)
      ∧ (stopped w → ctlBad (s.mail.bytes 0x600) = true → only (.writeCtl d) 6)
      ∧ (let b := s.mail.bytes 0x600;
        stopped w → ctlBad b = false → w.live ≠ 0 → (∀ l, l < 32 → w.live.getLsbD l = true → field b (0xE0 + l) 1 < 128) →
          ∃ t w', exec (.writeCtl d) s = .next t ∧ answered t 0 ∧ t.wave? w.uid = some w' ∧ w'.rf.v = w.rf.v ∧ stopped w'
            ∧ (∀ r, r < 48 → w'.rf.sreg r = BitVec.ofNat 32 (field b (0x20 + 4 * r) 4))
            ∧ w'.rf.fpstat = BitVec.ofNat 6 (field b 4 4)
            ∧ ∀ l, l < 32 → w.live.getLsbD l = true → ∃ p ∈ w'.paths, p.lanes.getLsbD l = true
              ∧ p.pc = BitVec.ofNat 64 (field b (0x120 + 8 * l) 8) ∧ p.entry = field b (0x100 + l) 1 % 16 ∧ p.clause = none)))
  ∧ (∀ (s : State) (d : DbgTarget) (m : LaneMask) (v c : BitVec 32), s.pins.reset = false → s.mail.cmd = some c →
    ∀ row ∈ ([(.resume d m, 1), (.step d m, 2), (.stop d, 3), (.readV d v, 4), (.writeV d v, 5), (.readCtl d, 6), (.writeCtl d, 7)]
      : List (Instr × Nat)), c.toNat % 16 ≠ row.2 → ∃ t, exec row.1 s = .next t
        ∧ t = { s with hub := { s.hub with counters := t.hub.counters } }
        ∧ Map.get 0 t.hub.counters 0x78 = Map.get 0 s.hub.counters 0x78 + 1)
  ∧ (∀ (s : State) (e : DbgEvent) (rest : List DbgEvent), s.mail.due = e :: rest →
    let m := s.mail
    let full : Prop := (m.tail + 1) % 28 = m.head
    (¬ full → m.tail < 28 → m.head < 28 → m.events.length = 28 → ∃ t, exec .debugEventPost s = .next t ∧ t.mail.due = rest
      ∧ t.mail.tail = (m.tail + 1) % 28
      ∧ t.mail.events = m.events.set m.tail e ∧ t.waves = s.waves ∧ t.mem = s.mem)
    ∧ (full → exec .debugEventPost s = .next s))

/-- R11, R58, R59, R190, R331, R344, R391 to R393, R405 to R407, R413, R414, R422: what befalls the package and what it does
beside its work: reset and its release, the loss of the host link, the pins, a die gated and a cluster's L1s changing mode, a
result written, an IO load that no one answers, and the background tasks. Where a task or an event is not due it changes
nothing. The latitude list, the free values, the sources and the places of errors and the cadences of the patrols
are the model's choice (assumption log 2, 4, 7, 70, 91, 92, 106). -/
def Obligations.OutsideAndBackground : Prop :=
  (∀ (s : State),
    let pref := decide (s.slotVersion false < s.slotVersion true)
    (s.pins.reset = false → exec .resetRelease s = .next s)
    ∧ (s.pins.reset = true → ∃ t, exec .resetRelease s = .next t ∧ t.pins = { s.pins with reset := false } ∧ t.mem = s.mem
      ∧ t.board = s.board
      ∧ t = { s with pins := t.pins, spokes := t.spokes, fw := { s.fw with state := 0, pref := pref } }
      ∧ ∀ k x, s.spokes[k]? = some x → (t.spoke k).capacity = if s.populated k then min spokeSpan (4 * Config.density k) else x.capacity)
    ∧ (s.fw.cmds = [] → exec .packageReset s = .next { State.reset with
        variant := s.variant, board := s.board, schedule := s.schedule, choices := s.choices, freeCtr := s.freeCtr
        pins := { State.reset.pins with pwrLimit := s.pins.pwrLimit } })
    ∧ (∀ b, exec (.pwrLimitN b) s = .next { s with pins := { s.pins with pwrLimit := b } })
    ∧ (s.pins.reset = true ∨ s.pins.linkFailed = true → exec .hostLinkFailure s = .next s)
    ∧ (s.pins.reset = false → s.pins.linkFailed = false → ∃ t, exec .hostLinkFailure s = .next t
      ∧ t.pins = { s.pins with linkFailed := true }
      ∧ (∀ n ∈ t.nodes, n.running = false) ∧ (∀ x ∈ t.spokes, x.gated = true ∧ x.ungating = false)
      ∧ ∀ n, s.writes = [] → s.passes = [] → s.nodes.filter (fun n => n.running) = [n] →
        t.numAt (s.recordOf n) 4 % 16 = 5 ∧ t.numAt (s.recordOf n) 4 / 256 % 256 = 0x0E))
  ∧ (∀ (s : State) (k : Nat) (x : Spoke) (hot : Bool), k < 8 → s.spokes[k]? = some x →
    let now (t : State) (y : Spoke) : Prop := t.spokes = s.spokes.set k y
    let alone (t : State) : Prop := t = { s with
      spokes := t.spokes, choices := s.choices.drop 1, reports := t.reports, posts := t.posts, bad := t.bad,
        freeCtr := t.freeCtr, sent := t.sent }
    let works : Prop := s.populated k = true ∧ s.pins.reset = false ∧ 0 < x.capacity
    let choice := s.choices.headD 0
    let pa := devBase + spokeSpan * k + x.scrubAddr
    let plus (o : Nat) : Map Nat := Map.put 0 x.counters o (Map.get 0 x.counters o + 1)
    let onward (y : Spoke) : Spoke := if x.scrubAddr + 64 < x.capacity
      then { y with scrubAddr := x.scrubAddr + 64, scrubTick := s.tick }
      else { y with scrubAddr := 0, scrubTick := s.tick, scrubPasses := (x.scrubPasses + 1) % 256 }
    let due : Prop := works ∧ x.scrubTick + (if x.scrubAddr / 64 % 3 = 2 then 9 else 8) ≤ s.tick
    let sramDue : Prop := works ∧ x.sramTick + 53 ≤ s.tick
    (x.gated = false → (∀ g ∈ s.gangs, g.onCores = true → g.core / 32 ≠ k) → (∀ c, c < 8 → (s.cluster (8 * k + c)).modeTo = none) →
      ∃ t, exec (.dieGate k) s = .next t ∧ now t { x with gated := true, ungating := false } ∧ t.waves = s.waves
        ∧ (∀ l ∈ t.lines, l.place ≠ .l2 k ∧ ∀ c, spokeOfCore c = k → l.place ≠ .l1 c)
        ∧ (∀ y ∈ t.writes, y.spoke ≠ k ∨ (y.stage ≠ 1 ∧ y.stage ≠ 2)))
    ∧ (x.gated = true ∨ (∃ g ∈ s.gangs, g.onCores = true ∧ g.core / 32 = k) → exec (.dieGate k) s = .next s)
    ∧ (s.pins.reset = false → (∃ t, exec (.thermN k hot) s = .next t ∧ now t { x with hot := hot }
      ∧ t = { s with spokes := t.spokes })
      ∧ (∃ t, exec (.linkRetry k) s = .next t ∧ now t { x with counters := plus 0x40 } ∧ t = { s with spokes := t.spokes }))
    ∧ (¬ works → ∀ ins ∈ ([.patrolScrub k, .sramScrub k, .calibration (8 * k), .retraining k 0, .agingMonitor k,
      .telemetry k] : List Instr),
      exec ins s = .next s)
    ∧ (¬ due → exec (.patrolScrub k) s = .next s) ∧ (¬ sramDue → exec (.sramScrub k) s = .next s)
    ∧ (due → choice ≠ 1 → choice ≠ 2 → pa / 64 ∉ s.bad → ∃ t, exec (.patrolScrub k) s = .next t ∧ now t (onward x) ∧ alone t
      ∧ t.reports = s.reports ∧ t.bad = s.bad)
    ∧ (due → choice = 1 → pa / 64 ∉ s.bad → ∃ t, exec (.patrolScrub k) s = .next t
      ∧ now t (onward { x with counters := plus 0x10 }) ∧ alone t
      ∧ t.reports = s.reports ∧ t.bad = s.bad)
    ∧ (due → choice = 2 ∨ pa / 64 ∈ s.bad → ∃ t r, exec (.patrolScrub k) s = .next t
      ∧ now t (onward { x with counters := plus 0x20 })
      ∧ alone t ∧ t.reports = s.reports ++ [r] ∧ r.code = 0x23 ∧ r.addr = BitVec.ofNat 64 pa ∧ pa / 64 ∈ t.bad)
    ∧ (sramDue → choice ≠ 2 → ∃ t u, exec (.sramScrub k) s = .next t ∧ alone t
      ∧ now t { x with sramUnit := u, sramTick := s.tick, counters := if choice = 1 then plus 0x18 else x.counters })
    ∧ (sramDue → choice = 2 → (s.waves.map (fun w => w.uid)).Nodup → (s.wgs.map (fun g => g.uid)).Nodup → ∃ t u r,
      exec (.sramScrub k) s = .next t ∧ now t { x with sramUnit := u, sramTick := s.tick, counters := plus 0x20 }
      ∧ t.reports = s.reports ++ [r] ∧ r.code = 0x23 ∧ r.ident = [k] ∧ t.mem = s.mem
      ∧ t.waves.map (fun w => { w with rf := { w.rf with bad := [] } }) = s.waves.map (fun w => { w with rf := { w.rf with bad := [] } })
      ∧ t.wgs.map (fun g => { g with padBad := [] }) = s.wgs.map (fun g => { g with padBad := [] })
      ∧ t.lines.map (fun l => { l with bad := false }) = s.lines.map (fun l => { l with bad := false }))
    ∧ (works → ∀ c, c < 8 → ∃ t, exec (.calibration (8 * k + c)) s = .next t
      ∧ t = { s with spokes := t.spokes, clusters := t.clusters }
      ∧ (x.calBusy.getLsbD c = true → now t { x with calBusy := x.calBusy &&& ~~~((1 : BitVec 8) <<< c) }
        ∧ ∀ y, s.clusters[8 * k + c]? = some y →
          t.clusters = s.clusters.set (8 * k + c) { y with freq := min y.freq y.fallTo, fallTo := 18 })
      ∧ (x.calBusy.getLsbD c = false → x.calNext = c → (s.cluster (8 * k + c)).calTick + 1000000 ≤ s.tick →
        8 * k + c < s.clusters.length →
        now t { x with calBusy := x.calBusy ||| ((1 : BitVec 8) <<< c), calNext := (c + 1) % 8 }
          ∧ (t.cluster (8 * k + c)).calTick = s.tick)
      ∧ (x.calBusy.getLsbD c = false → x.calNext ≠ c ∨ s.tick < (s.cluster (8 * k + c)).calTick + 1000000 → t = s))
    ∧ (works → ∀ c, c < 4 → ∃ t, exec (.retraining k c) s = .next t ∧ t = { s with spokes := t.spokes }
      ∧ (x.retrain.getLsbD c = true → now t { x with retrain := x.retrain &&& ~~~((1 : BitVec 4) <<< c) })
      ∧ (x.retrain = 0 → x.retrainTicks.getD c 0 + 10000000 ≤ s.tick →
        now t { x with retrain := (1 : BitVec 4) <<< c, retrainTicks := x.retrainTicks.set c s.tick })
      ∧ (x.retrain.getLsbD c = false → x.retrain ≠ 0 ∨ s.tick < x.retrainTicks.getD c 0 + 10000000 → t = s))
    ∧ (works → (s.tick < x.agingTick + 100000000 → exec (.agingMonitor k) s = .next s)
      ∧ (x.agingTick + 100000000 ≤ s.tick → ∃ t m a, exec (.agingMonitor k) s = .next t
        ∧ t = { s with spokes := t.spokes, freeCtr := t.freeCtr }
        ∧ now t { x with margin := m, agingAlert := x.agingAlert || a, agingTick := s.tick }))
    ∧ (works → (s.tick < x.telTick + 100000 → exec (.telemetry k) s = .next s)
      ∧ (x.telTick + 100000 ≤ s.tick → ∃ t b, exec (.telemetry k) s = .next t
        ∧ t = { s with spokes := t.spokes, freeCtr := t.freeCtr, sent := s.sent ++ [.telemetry k b] } ∧ b.length = 64
        ∧ now t { x with telTick := s.tick })))
  ∧ (∀ (s : State) (n : Nat) (c : Cluster), s.clusters[n]? = some c →
    let empty : Prop := (∀ g ∈ s.gangs, g.onCores = true → g.core / 4 ≠ n) ∧ c.span.hitched = false
    (c.modeTo = none ∨ ¬ empty → exec (.clusterModeChange n) s = .next s)
    ∧ (∀ m, c.modeTo = some m → empty → ∃ t, exec (.clusterModeChange n) s = .next t
      ∧ t.clusters = s.clusters.set n { c with fused := m, modeTo := none }
      ∧ (∀ l ∈ t.lines, ∀ k, k / 4 = n → l.place ≠ .l1 k) ∧ t.waves = s.waves ∧ t.gangs = s.gangs))
  ∧ (∀ (s : State) (w : Wave) (op : Nat), s.wave? w.uid = some w →
    let flying : Prop := (∃ a, w.access = some a ∧ a.op = op) ∨ (∃ o ∈ w.ops, o.op = op)
      ∨ (∃ o ∈ w.waybill, o.op = op ∧ o.started = false)
      ∨ (∃ e ∈ w.enqs, e.op = op) ∨ ∃ c ∈ s.copies, c.wave = w.uid ∧ c.op = op
    ((∃ m ∈ w.marks, m.op = op) → ¬ flying → ∃ t, exec (.resultWrite w.uid op) s = .next t ∧ t = { s with waves := t.waves }
      ∧ t.wave? w.uid = some { w with
        marks := w.marks.filter (fun m => m.op != op), bound := w.bound.filter (fun m => m.op != op),
          reads := w.reads.filter (fun m => m.op != op) }
      ∧ ∀ u, u ≠ w.uid → t.wave? u = s.wave? u)
    ∧ ((∀ m ∈ w.marks, m.op ≠ op) ∨ flying → exec (.resultWrite w.uid op) s = .next s))
  ∧ (∀ (s : State) (w : Wave) (x : Access) (g : Guard) (d : Dst) (a b : Src) (at_ : Attr) (sent : Nat),
    s.waves.find? (fun v => match v.access with | some y => y.op == x.op | none => false) = some w → s.wave? w.uid = some w →
    w.access = some x → x.instr = .ldh g d a b at_ .b32 → x.started = true → x.aux = [sent] → w.core < 256 →
    x.pieces.map (fun p => (p.lane, p.len)) = (lanesOf x.mask).map (fun l => (l, 4)) →
    (s.tick < sent + 5000000 → exec (.ioLoadTimeout x.op) s = .next s)
    ∧ (sent + 5000000 ≤ s.tick → ∃ t w', exec (.ioLoadTimeout x.op) s = .next t ∧ t.wave? w.uid = some w' ∧ w'.access = none
      ∧ WritesRun w.rf w'.rf d 1 x.mask (fun _ _ => 0xFFFFFFFF) 0 ∧ (∀ m ∈ w'.marks, m.op ≠ x.op) ∧ t.mem = s.mem
      ∧ (∀ y, s.spokes[w.core / 32]? = some y →
        Map.get 0 (t.spoke (w.core / 32)).counters 0x48 = Map.get 0 y.counters 0x48 + 1)))

/-- R11, R28, R31, R36 to R41, R315 to R319, R362, R379, R380, R382, R383, R386, R389: the command processor and the
distributor. The READY node that comes first starts: its record RUNNING with a seed batch, or FAILED with the first check that
refuses. A head gang is placed whole on the die with the most free wave slots, its waves at ENTRY. A gang whose work is done
retires, its node completing at spawn count 0. A gang asked to leave takes PREEMPT, drains or is saved, and resumes. The
watchdog, a time slice and a head's age act when they are due. The order of moves, the latitude list and what a head may pass
are the model's choice (assumption log 1, 2, 30, 107). -/
def Obligations.Scheduling : Prop :=
  (∀ (s : State) (n : Node), s.pins.reset = false → s.pins.linkFailed = false → s.fw.state ∈ [1, 2] →
    (s.nodes.filter (fun x => x.running)).length < 1024 →
    firstBy s.startBefore (s.nodes.filter (fun x => !x.running && s.startsNow x)) = some n →
    (∀ x y, x ∈ s.nodes → y ∈ s.nodes → x.uid = y.uid → x = y) → s.passes = [] →
    let r := s.readRegions n.region
    let rec_ := s.recordOf n
    let ends (code : Nat) : Prop := ∃ t, exec .nodeStart s = .next t ∧ (∀ m ∈ t.nodes, m.uid ≠ n.uid)
      ∧ t.numAt rec_ 4 % 16 = 5 ∧ t.numAt rec_ 4 / 256 % 256 = code % 256 ∧ t.reports.length = s.reports.length + 1
    (∀ code, r.checkNode n = .error (.reason code) → ends code) ∧ (r.checkNode n = .error .unbound → ends 0x04)
    ∧ (∀ d, r.checkNode n = .ok d → ∃ t b n', exec .nodeStart s = .next t ∧ t.batches = s.batches ++ [b] ∧ t.node? n.uid = some n'
      ∧ n' = { n with
          running := true, place := n'.place, startOrder := s.nodeStarts, tStart := s.tick, nextSeq := 1, spawn := n.spawn + 1
          seedLanes := s.numAt (rec_ + 0xA) 2 % 64 }
      ∧ (∀ m ∈ s.nodes, m.running = true → m.place ≠ n'.place) ∧ t.numAt rec_ 4 % 16 = 3 ∧ t.numAt (rec_ + 0x48) 8 = s.tick % 2 ^ 64
      ∧ b.node = n.uid ∧ b.seq = 0 ∧ b.count = 1 ∧ b.desc = d ∧ b.die = .any ∧ b.arg = BitVec.ofNat 64 (s.numAt (rec_ + 0x18) 8)
      ∧ b.lanes = BitVec.ofNat 32 (2 ^ n'.seedLanes - 1) ∧ t.waves = s.waves ∧ t.gangs = s.gangs ∧ t.reports = s.reports))
  ∧ (∀ (s : State), (∀ n ∈ s.nodes, n.running = true) → exec .nodeStart s = .next s)
  ∧ (∀ (s : State) (h : Head) (rest : List Head) (n : Node) (vd site core : Nat), s.heads = h :: rest →
    s.node? h.batch.node = some n →
    s.cpOpen = true → s.headAllowed h = true → s.ctxRejected n.ctx = false ∨ s.ctx? n.ctx ≠ none →
      s.destination h = some (vd, site, core) →
      h.saved = none →
    (s.cluster (core / 4)).modeTo = none → h.batch.desc.breakEntry = false → s.batch? h.batch.uid = some h.batch →
    let mode := if h.batch.desc.fuse then some h.batch.desc.scratch else none
    ((s.cluster (core / 4)).fused = mode → ∃ t new, exec (.gangPlace site) s = .next t ∧ t.waves = s.waves ++ new
      ∧ (∃ g, t.gangs = s.gangs ++ [g] ∧ g.batch = h.batch.uid ∧ g.num = h.num ∧ g.state = .resident ∧ g.core = core ∧ g.vdie = vd
          ∧ g.size = h.batch.desc.gangSize ∧ ∀ w ∈ new, w.gang = g.uid)
      ∧ new.length = h.batch.desc.gangSize * h.batch.desc.roles.length
      ∧ (∀ w ∈ new, w.live = h.batch.lanes ∧ w.paths.map (fun p => (p.lanes, p.pc, p.clause)) = [(h.batch.lanes,
        h.batch.desc.entry, none)]
          ∧ w.node = n.uid ∧ w.ctx = n.ctx ∧ core ≤ w.core ∧ w.core < core + h.batch.desc.gangSize ∧ w.slot / 16 = w.idx % 4
          ∧ (w.role, w.budget) = h.batch.desc.roles.getD w.idx (0, 0)
          ∧ w.rf.sreg 30 = h.batch.arg.extractLsb' 0 32 ∧ w.rf.sreg 31 = h.batch.arg.extractLsb' 32 32
          ∧ w.rf.fpstat = 0 ∧ s.fresh ≤ w.floor ∧ s.fresh ≤ w.floorL1 ∧ (h.batch.frags = [] → ∀ r l, w.rf.vreg r l = 0))
      ∧ (t.batch? h.batch.uid).map (fun b => b.next) = some (h.batch.next + 1) ∧ t.mem = s.mem)
    ∧ ((s.cluster (core / 4)).fused ≠ mode →
      exec (.gangPlace site) s = .next (s.updCluster (core / 4) (fun c => { c with modeTo := some mode }))))
  ∧ (∀ (s : State) (k : Nat), s.heads = [] ∨ s.cpOpen = false → exec (.gangPlace k) s = .next s)
  ∧ (∀ (s : State) (k : Nat) (x : Spoke), s.spokes[k]? = some x →
    (x.gated = true → x.ungating = true → s.cpOpen = true → ∃ t, exec (.ungateDone k) s = .next t
      ∧ t = { s with spokes := t.spokes, posts := t.posts } ∧ t.spokes = s.spokes.set k { x with gated := false, ungating := false }
      ∧ (∀ p, s.posts[k]? = some p → t.posts = s.posts.set k { p with beat := s.tick }))
    ∧ (x.gated = false ∨ x.ungating = false ∨ s.cpOpen = false → exec (.ungateDone k) s = .next s)
    ∧ (s.tick < x.reportTick + 6 → exec (.resourceReport k) s = .next s)
    ∧ (x.reportTick + 6 ≤ s.tick → ∃ t, exec (.resourceReport k) s = .next t
      ∧ t = { s with spokes := t.spokes, cores := t.cores, views := t.views }
      ∧ t.spokes = s.spokes.set k { x with reportTick := s.tick }
      ∧ ∀ c v, s.cores[c]? = some v → t.cores[c]? = some (if c / 32 ≠ k then v else if x.gated then .zero else s.coreFree [] c)))
  ∧ (∀ (s : State) (c : Nat), s.wgs = [] → s.waves = [] → s.coreFree [] c
    = { slots := [16, 16, 16, 16], rows := [1024, 1024, 1024, 1024], scratch := 8, bars := 64 })
  ∧ (∀ (s : State) (g : Gang) (b : Batch) (n : Node), s.gang? g.uid = some g → s.batch? g.batch = some b → s.node? g.node = some n →
    let mine : List Wave := s.waves.filter (fun w => w.gang == g.uid)
    let spent : Prop := (∀ w ∈ mine, s.spent w = true) ∧ s.atHome mine = true
    let alone : Prop := (s.waves.map (fun w => w.uid)).Nodup
    (g.state = .resident → spent → alone → g.size < n.spawn → ∃ t, exec (.gangRetire g.uid) s = .next t
      ∧ (∀ x ∈ t.gangs, x.uid ≠ g.uid)
      ∧ (∀ w ∈ mine, t.wave? w.uid = none) ∧ (t.node? g.node).map (fun x => x.spawn) = some (n.spawn - g.size) ∧ t.mem = s.mem)
    ∧ (g.state = .resident → spent → alone → n.spawn = g.size → n.running = true → s.passes = [] →
      ∃ t, exec (.gangRetire g.uid) s = .next t
      ∧ (∀ m ∈ t.nodes, m.uid ≠ n.uid) ∧ ∀ w ∈ mine, t.wave? w.uid = none)
    ∧ (¬ spent → exec (.gangRetire g.uid) s = .next s)
    ∧ (let asked : Prop := s.preemptible g = true
        ∧ (s.capped g = true ∨ s.freesEntry g = true ∨ ∃ h ∈ s.heads, g.uid ∈ s.roomFor h)
      (¬ asked → exec (.preemptRequest g.uid) s = .next s)
      ∧ (asked → s.walks = [] → alone → ∃ t g', exec (.preemptRequest g.uid) s = .next t ∧ t.gang? g.uid = some g'
        ∧ (g'.state = .requested ∨ g'.state = .handling) ∧ g'.reqTick = s.tick ∧ t.mem = s.mem
        ∧ ∀ w ∈ s.waves, t.wave? w.uid = some (if w.gang = g.uid then { w with
          trap := { w.trap with preempt := w.live != 0, taken := false, reported := false } } else w)))
    ∧ (let late : Prop := (g.state = .requested ∨ g.state = .handling) ∧ g.reqTick + 5000 ≤ s.tick ∧ ∃ w ∈ mine, w.yielded = false
      (late → ∃ t g', exec (.preemptTimeout g.uid) s = .next t ∧ t.gang? g.uid = some g' ∧ g'.state = .draining ∧ g'.full = true
        ∧ t.mem = s.mem)
      ∧ (¬ late → exec (.preemptTimeout g.uid) s = .next s))
    ∧ (g.state ∈ [.resident, .saved, .restoring] → exec (.preemptDrain g.uid) s = .next s)
    ∧ (g.state = .requested ∨ g.state = .handling → mine ≠ [] → (∃ w ∈ mine, w.live ≠ 0) → (∀ w ∈ mine, w.yielded = true) →
      ∃ t g', exec (.preemptDrain g.uid) s = .next t ∧ t.gang? g.uid = some g' ∧ g'.state = .draining ∧ t.mem = s.mem)
    ∧ (g.state ≠ .restoring → exec (.gangRestore g.uid) s = .next s)
    ∧ (∀ t, g.state = .restoring → (s.putGang { g with state := .resident }).loadGang g = .ok t →
      exec (.gangRestore g.uid) s = .next t)
    ∧ (g.state = .restoring → mine = [] → (∀ x ∈ s.wgs, x.gang ≠ g.uid) →
      exec (.gangRestore g.uid) s = .next (s.putGang { g with state := .resident }))
    ∧ (let sliced : Prop := g.onCores = true ∧ s.effSlice (s.gangRegion g) ≠ 0 ∧ s.effSlice (s.gangRegion g) ≤ g.resident
      (sliced → exec (.timeSliceExpire g.uid) s = .next (s.putGang { g with sliceOver := true }))
      ∧ (¬ sliced → exec (.timeSliceExpire g.uid) s = .next s))
    ∧ (let old : Prop := s.headGang b ≠ none ∧ b.headTick + 100000 ≤ s.tick
      s.batch? b.uid = some b → (old → exec (.headAging b.uid) s = .next (s.putBatch { b with aged := true }))
        ∧ (¬ old → exec (.headAging b.uid) s = .next s))
    ∧ (let lim := s.effWatchdog n.region
      s.node? n.uid = some n → (lim = 0 ∨ n.running = false ∨ n.resident ≤ 1024 * lim → exec (.watchdog n.uid) s = .next s)
        ∧ (lim ≠ 0 → n.running = true → 1024 * lim < n.resident → s.passes = [] → ∃ t, exec (.watchdog n.uid) s = .next t
          ∧ (∀ m ∈ t.nodes, m.uid ≠ n.uid) ∧ t.numAt (s.recordOf n) 4 % 16 = 5 ∧ t.numAt (s.recordOf n) 4 / 256 % 256 = 0x0A
          ∧ t.reports = s.reports ++ [cpReport 0x25 0 [n.ring, n.slot] 0])))
  ∧ (∀ (s : State) (w : Wave), s.wave? w.uid = some w →
    let ready : Prop := w.trap.preempt = true ∧ w.trap.inHandler = false ∧ w.trap.pend = none ∧ w.live ≠ 0 ∧ w.mayRollback = true
      ∧ (∀ p ∈ w.paths, p.dbg = false) ∧ s.running w = true
    (¬ ready → exec (.preemptTake w.uid) s = .next s)
    ∧ (ready → (s.descOf w).handler ≠ 0 → (∀ p ∈ w.paths, p.step = false) → w.ckpt = none →
      ∃ t w', exec (.preemptTake w.uid) s = .next t
      ∧ t.wave? w.uid = some w' ∧ w' = { w with paths := w'.paths, trap := w'.trap } ∧ w'.trap.inHandler = true ∧ w'.trap.code = 1
      ∧ w'.trap.taken = true ∧ w'.trap.preempt = false ∧ w'.paths.map (fun p => (p.lanes, p.pc, p.clause)) = [(w.live,
        (s.descOf w).handler, none)]
      ∧ (∀ p l, p ∈ w.paths → (∀ q ∈ w.paths, q.lanes.getLsbD l = true → q = p) → p.lanes.getLsbD l = true → l < 32 →
          Map.find w'.trap.pts l = some p.trapPoint)
      ∧ (∀ u, u ≠ w.uid → t.wave? u = s.wave? u) ∧ t.mem = s.mem)
    ∧ (ready → (s.descOf w).handler = 0 → w.ckpt = none → ∃ t, exec (.preemptTake w.uid) s = .next t ∧ t.wave? w.uid = some { w with
        paths := w.paths.map (fun p => { p with halted := true }), trap := { w.trap with preempt := false, taken := true } }))

/-- R23, R327 to R331, R334, R361: power. Energy is charged each microsecond and its windows end each millisecond, with the
accounts written and the caps lifted. The package power is compared each microsecond: above the budget in force (R23: the
sustained one, 250 W in a sprint, the floor while PWR_LIMIT_N is low) the first action that applies is taken, after ten
comparisons at or below it the latest is undone. A boost interval charges or refills a spoke's permits and moves its state,
after every GBAR.GRID that must complete in its tick. A cluster with a place rises by one step in four ticks; ballast falls by
an eighth in each 50 ns. What is not due changes nothing. The readings of power and energy are free values, and the moments of
single actions are the model's choice (assumption log 34, 46, 57). -/
def Obligations.Power : Prop :=
  (∀ (s : State),
    (s.tick < 100 * (s.power.charged + 1) → exec .energyCharge s = .next s)
    ∧ (100 * (s.power.charged + 1) ≤ s.tick → ∃ t, exec .energyCharge s = .next t
      ∧ t.power = { s.power with charged := s.power.charged + 1 }
      ∧ t = { s with regions := t.regions, freeCtr := t.freeCtr, used := [], moved := [], power := t.power }
      ∧ ((s.regions.map (fun r => r.num)).Nodup →
        t.regions.map (fun r => (r.num, r.energyTotal)) = s.regions.map (fun r => (r.num, r.energyTotal))))
    ∧ (s.tick < 100000 * (s.power.windows + 1) ∨ s.power.charged < 1000 * (s.power.windows + 1) →
      exec .energyWindowEnd s = .next s)
    ∧ (100000 * (s.power.windows + 1) ≤ s.tick → 1000 * (s.power.windows + 1) ≤ s.power.charged →
      ∃ t, exec .energyWindowEnd s = .next t
      ∧ t.power = { s.power with windows := s.power.windows + 1 } ∧ t.waves = s.waves
      ∧ t.regions = s.regions.map (fun x => { x with
        energyTotal := x.energyTotal + x.charge, charge := 0, capped := false, windowLimit := some (s.effEnergy x.num) })
      ∧ (s.writes = [] → ∀ x ∈ s.regions, (∀ y ∈ s.regions, y.num = x.num → y = x) →
        t.numAt (s.hub.rgnBase + 128 * x.num + 0x40) 8 = (x.energyTotal + x.charge) % 2 ^ 64
        ∧ t.numAt (s.hub.rgnBase + 128 * x.num + 0x48) 4 = x.windowsCapped % 2 ^ 32))
    ∧ (let budget := s.powerBudget
      let power := Config.freePower s.freeCtr
      let top (n : Nat) (f : Cluster → Prop) : Prop := n < 64 ∧ s.populated (n / 8) = true ∧ f (s.cluster n)
        ∧ ∀ m, m < 64 → s.populated (m / 8) = true → f (s.cluster m) →
          (s.cluster m).rank < (s.cluster n).rank ∨ ((s.cluster m).rank = (s.cluster n).rank ∧ m ≤ n)
      let no (f : Cluster → Prop) : Prop := ∀ m, m < 64 → s.populated (m / 8) = true → ¬ f (s.cluster m)
      let boosted (c : Cluster) : Prop := 0 < c.freq ∧ c.withdrawn = false
      let takes (k : Nat) (c : Cluster) : Cluster := { c with passTo := k, passc := if c.span.pass = [] then k else c.passc }
      let drops (n : Nat) (c : Cluster) : Cluster := if (s.spoke (n / 8)).calBusy.getLsbD (n % 8) = true
        then { c with withdrawn := true, admitted := false, fallTo := 0 } else { c with withdrawn := true, admitted := false, freq := 0 }
      let acts (n k : Nat) (f : Cluster → Cluster) : Prop := ∃ t, exec .powerCompare s = .next t
        ∧ t.clusters = s.clusters.modify n f
        ∧ t.power = { s.power with compared := s.power.compared + 1, calm := 0, actions := (k, n) :: s.power.actions }
      budget ≤ 250000 ∧ (s.pins.pwrLimit = false → 45000 ≤ budget) ∧ (s.pins.pwrLimit = true → 45000 ≤ budget ∧ budget ≤ 160000)
      ∧ (s.tick < 100 * (s.power.compared + 1) → exec .powerCompare s = .next s)
      ∧ (100 * (s.power.compared + 1) ≤ s.tick →
        (budget < power → ∀ n, top n boosted → acts n 0 (drops n))
        ∧ (budget < power → no boosted → ∀ n, top n (fun c => c.passTo = 1) → acts n 1 (takes 2))
        ∧ (budget < power → no boosted → no (fun c => c.passTo = 1) → ∀ n, top n (fun c => c.passTo = 2) →
          acts n 2 (takes 4))
        ∧ (power ≤ budget → s.power.calm < 9 → ∃ t, exec .powerCompare s = .next t ∧ t.clusters = s.clusters
          ∧ t.power = { s.power with compared := s.power.compared + 1, calm := s.power.calm + 1 })
        ∧ (power ≤ budget → 9 ≤ s.power.calm → ∀ k n rest, s.power.actions = (k, n) :: rest → k ≤ 2 →
          ∃ t, exec .powerCompare s = .next t
          ∧ t.power = { s.power with compared := s.power.compared + 1, calm := 0, actions := rest }
          ∧ t.clusters = s.clusters.modify n (fun c => if k = 0 then { c with withdrawn := false } else takes k c)))))
  ∧ (∀ (s : State) (k : Nat) (x : Spoke), k < 8 → s.spokes[k]? = some x → s.clusters.length = 64 →
    let used := ((List.range 8).filter (fun c => (s.cluster (8 * k + c)).boosted)).length
    let full : Prop := x.refill = 7
    let budget := if 0 < used then x.budget - used else if full then min 64 (x.budget + 1) else x.budget
    let state : BoostState := match x.boost with
      | .open => if budget = 0 then .fall1 else .open
      | .fall1 => .dry
      | .dry => if 8 ≤ budget then .open else .dry
    (s.tick < 400 * x.intervals + 399 → exec (.boostIntervalEnd k) s = .next s)
    ∧ ((∃ b ∈ s.batches, s.gridDue b = true ∧ k ∈ b.gbarDies) ∨ (∃ c, c < 8 ∧ s.riseDue (8 * k + c) = true) →
      exec (.boostIntervalEnd k) s = .next s)
    ∧ (400 * x.intervals + 399 ≤ s.tick → (∀ b ∈ s.batches, s.gridDue b = true → k ∉ b.gbarDies) →
      (∀ c, c < 8 → s.riseDue (8 * k + c) = false) →
      ∃ t, exec (.boostIntervalEnd k) s = .next t ∧ t.waves = s.waves ∧ t.mem = s.mem
      ∧ t.spokes = s.spokes.set k { x with
          budget := budget, boost := state, intervals := x.intervals + 1, rerank := false
          refill := if 0 < used ∨ full then 0 else x.refill + 1 }
      ∧ (∀ c, c / 8 ≠ k → t.cluster c = s.cluster c)
      ∧ ∀ c, c < 8 → let y := t.cluster (8 * k + c)
        (if x.calBusy.getLsbD c = true then y.fallTo else y.freq) ≤ (match state with | .open => 18 | .fall1 => 8 | .dry => 0)
          ∧ y.freq ≤ (s.cluster (8 * k + c)).freq ∧ (x.calBusy.getLsbD c = true → y.freq = (s.cluster (8 * k + c)).freq)
          ∧ y.boosted = (s.cluster (8 * k + c)).boosted ∧ (state ≠ .open → y.admitted = false)))
  ∧ (∀ (s : State) (n : Nat) (c : Cluster), s.clusters[n]? = some c →
    let put (y : Cluster) : State := { s with clusters := s.clusters.set n y }
    (c.ballast ≠ 0 → (s.tick < c.ballastTick + 5 → exec (.ballastStep n) s = .next s)
      ∧ (c.ballastTick + 5 ≤ s.tick → exec (.ballastStep n) s = .next (put { c with ballast := c.ballast - 1, ballastTick := s.tick })))
    ∧ (c.ballast = 0 → (∀ t, c.issued = some t → s.tick < t + 5 ∨ t + 10 ≤ s.tick) ∨ c.span.pass ≠ [] →
      exec (.ballastStep n) s = .next s)
    ∧ (c.ballast = 0 → ∀ t, c.issued = some t → t + 5 ≤ s.tick → s.tick < t + 10 → c.ballastTick ≤ t → c.span.pass = [] →
      let stopped : List Nat := (List.range 64).filter (fun m => match (s.cluster m).issued with
        | some t => decide (t + 5 ≤ s.tick ∧ s.tick < t + 10 ∧ (s.cluster m).span.pass = [])
        | none => false)
      (8 < stopped.length → exec (.ballastStep n) s = .next (put { c with ballast := 8, ballastTick := s.tick }))
      ∧ (stopped.length ≤ 8 → exec (.ballastStep n) s = .next s)))
  ∧ (∀ (s : State) (n : Nat),
    let c := s.cluster n
    let rises : Prop := c.admitted = true ∧ (s.spoke (n / 8)).boost = .open ∧ c.freq < 18 ∧ c.riseTick + 4 ≤ s.tick
      ∧ (s.spoke (n / 8)).calBusy.getLsbD (n % 8) = false
    (rises → exec (.freqStepRise n) s
      = .next (s.updCluster n (fun c => { c with freq := c.freq + 1, boosted := true, riseTick := s.tick })))
      ∧ (¬ rises → exec (.freqStepRise n) s = .next s))

/-- R42, R51, R56, R93: A STEP RUNS THE DECODED INSTRUCTION. Where nothing else is scheduled and the path whose turn it is runs
and holds a slot, its wave's partition may turn to it, and the word it stands at decodes to an instruction, the step is that
instruction's meaning at that state, with the partition on its wave; beside it the machine only notes whether its path has
moved. A path without a slot first takes a free one in its turn. A schedule may name a path, which then issues its word, two
paths of a wave that issue in one cycle, or a step of the device, which is then taken; it may name no wave's instruction. Of two
IADDs of one cycle both read the old registers, and the one of the path with the lower lowest lane writes last. The order of
moves, a schedule and the path whose turn it is are the model's choice, as is which held words let the partition turn
(assumption log 1, 90). -/
def Obligations.StepRuns : Prop :=
  (∀ (s : State) (i : Issue) (ins : Instr),
    let runs (r : State) (moved : State) : Prop := moved.issue? = some i → moved.running i.w = true → i.p.halted = false →
      i.p.dbg = false →
      decode i.w.env i.word = .ok ins →
      (moved.partFree i.w = false → step r = .next { moved with stall := true })
      ∧ (moved.partFree i.w = true → i.p.slot = true ∨ i.p.waiting = true →
        (∀ t, exec ins (moved.turnTo i.w) = .next t → step r = .next { t with stall := match t.issue? with
          | some j => j.w.uid == i.w.uid && j.c.addr == i.c.addr && j.c.idx == i.c.idx
          | none => false })
        ∧ (∀ f, exec ins (moved.turnTo i.w) = .fault f → step r = .fault f)
        ∧ ∀ f, exec ins (moved.turnTo i.w) = .refused f → step r = .refused f)
      ∧ (moved.partFree i.w = true → i.p.slot = false → i.p.waiting = false → i.w.slotFree = false →
        step r = .next { moved with stall := true })
    (s.schedule = [] → s.stall = false → s.pins.reset = false → i.p.waiting = false → runs s s)
    ∧ (∀ u l rest, s.schedule = .issue u l :: rest → runs s { s with schedule := rest, cur := some (u, l) })
    ∧ (∀ e rest, s.schedule = .event e :: rest → (∀ u l, e ≠ .clauseStart u l) →
      step s = if encode e = none then exec e { s with schedule := rest } else .next { s with schedule := rest })
    ∧ (∀ u l rest w t, s.schedule = .event (.clauseStart u l) :: rest → s.wave? u = some w →
      ({ s with schedule := rest }.partFree w = false → step s = .next { s with schedule := rest })
      ∧ ({ s with schedule := rest }.partFree w = true → exec (.clauseStart u l) { s with schedule := rest } = .next t →
        step s = .next (if (t.wave? u).any (fun x => x.turn != w.turn) then t.turnTo w else t))))
  ∧ (∀ (s : State) (x y : Issue) (l m : Nat) (gx gy : Guard) (dx dy : Dst) (ax bx ay by_ : Src) (rest : List Move),
    let at_ (k : Nat) : State := { s with schedule := rest, cur := some (x.w.uid, k) }
    s.schedule = .both x.w.uid l m :: rest ∨ s.schedule = .both x.w.uid m l :: rest → y.w = x.w → x.p.lanes &&& y.p.lanes = 0 →
    lowestLane x.p.lanes = some l → lowestLane y.p.lanes = some m → l < m →
    Ready (at_ l) x false (gx.regs ++ (ax.regs ++ bx.regs) ++ dx.regs) dx.regs → x.p.slot = true → x.p.waiting = false →
      x.p.halted = false →
    x.p.dbg = false → decode x.w.env x.word = .ok (.iadd gx dx ax bx .wrap) →
    Ready (at_ m) y false (gy.regs ++ (ay.regs ++ by_.regs) ++ dy.regs) dy.regs → y.p.slot = true → y.p.waiting = false →
      y.p.halted = false →
    y.p.dbg = false → decode y.w.env y.word = .ok (.iadd gy dy ay by_ .wrap) →
    (at_ m).partFree x.w = true → x.w.behind = false → x.quiet → y.quiet →
    let fx (k : Nat) : Word := x.val ax k + x.val bx k
    let fy (k : Nat) : Word := y.val ay k + y.val by_ k
    ∃ t w, step s = .next t ∧ t.wave? x.w.uid = some w
      ∧ (∀ r k, k < 32 → w.rf.vreg r k = if y.p.lanes.getLsbD k then x.w.rf.laneAfter dy 1 (y.lanes gy) (fun _ => fy) r k
          else x.w.rf.laneAfter dx 1 (x.lanes gx) (fun _ => fx) r k)
      ∧ (∀ r, w.rf.sreg r = match dx, lowestLane (x.lanes gx) with
          | .s n, some k => if r = n.val then fx k else x.w.rf.scalarAfter dy 1 (y.lanes gy) (fun _ => fy) r
          | _, _ => x.w.rf.scalarAfter dy 1 (y.lanes gy) (fun _ => fy) r)
      ∧ t.mem = s.mem ∧ ∀ u, u ≠ x.w.uid → t.wave? u = s.wave? u)

/-- R51, R54, R61, R67, R119, R141, R170, R204, R281, R292, R320, R385: words written out from the manual's encodings decode to
the instructions they stand for, and a header reads as its fields. A word of no opcode of the map, with an operand code its
field does not accept, or with an unused operand or E field that is not 0xFF, is rejected with reason 0x01, 0x05, 0x03 or 0x0F.
Which of two reasons a word with two faults reports is the model's reading where the rules leave it open (assumption log 14,
15). -/
def Obligations.DecodeWords : Prop :=
  let always : Guard := { p := 7, neg := false, comb := .only }
  let mode : FpMode := { rnd := .rne, sat := false }
  let none_ : Sys2Proof.SMod := { na := false, nb := false, nc := false, aa := false, ab := false, ac := false }
  headerOf 0xD8008F803F800000 = { count := 3, wait := 1, seta := 1, setb := 15, yieldHint := false, gap := 0, lit := 0x3F800000 }
    ∧ kindOf 0xD8008F803F800000 = .header ∧ kindOf 0x80840485210D0102 = .pair ∧ kindOf 0x11010141BC7FC800 = .full
    ∧ decode .user 0x11010141BC7FC800 = .ok (.ffma { always with p := 1 } (.v 4) (.v 5) (.v 6) .lit none_ mode)
    ∧ decode .user 0x03404080C1C0B800 = .ok (.isetp always 1 (.v 2) (.v 3) { p := 7, neg := false } .lt false .and)
    ∧ decode .user 0x2402810145037800 = .ok (.dot4fE4m3 always (.v 10) (.v 4) (.v 5) (.v 20) 1 3 mode)
    ∧ decode .user 0x2805013FFFFFF800 = .ok (.rcp always (.v 20) (.v 4))
    ∧ decode .user 0x80840485210D0102
      = .ok (.pair (.op .iadd (.v 8) (.v 9) (some (.v 10))) (.op .fmul (.v 13) (.v 1) (some (.v 2))))
    ∧ decode .user 0x30C10080C07FF802 = .ok (.shflXor always (.v 4) (.v 2) (.v 3) (some 1) .w8)
    ∧ decode .user 0x403FFC7FFFFFC800 = .ok (.bra { always with p := 1 })
    ∧ decode .user 0x5C02B880FFE13803
      = .ok (.ldg always (.v 10) (.s 34) (.v 3) { scope := .dev, order := .rlx, bit2 := true, hint := .norm } .b64)
    ∧ decode .user 0x5C7FF8BC00140962 = .ok (.stg { p := 1, neg := false, comb := .and 3 false } (.s 34) .zero (.v 0)
        { scope := .clu, order := .rel, bit2 := false, hint := .norm } .b32)
    ∧ decode .user 0x683FF9BA3C3AB80C = .ok (.cpy always (.s 38) (.s 40) (some .zero) 42 .d2d true)
    ∧ decode .user 0x721000393FC43800 = .ok (.spanMmaBf16 always { d := 64, a := .run 0, b := .desc 36, bTile := 1, aTile := 0 })
    ∧ decode .user 0x78BFC23FFFFFF801 = .ok (.pixBlend always 8 .over)
    ∧ decode .user 0x7C0138B939823800 = .ok (.enq always (.v 4) (.s 34) (.s 36) (.s 38) .any false)
    ∧ decode .user 0x7CFFC03FFFC13801 = .ok (.savewV always 0 4)
    ∧ decode .user 0x7FC00000003FF800 = .error 0x01 ∧ decode .user 0x283CC13FFFFFF800 = .error 0x05
    ∧ decode .user 0x2805013FC03FF800 = .error 0x03 ∧ decode .user 0x2805013FFFFFB800 = .error 0x0F

/-- R51, R61, R62, R64 to R69, R116, R139, R170, R203, R204, R281, R292, R320, R385: DECODE AND ENCODE AGREE. Every wave
instruction whose operands are of the classes its encoding row names, at whatever budget and mode, has a word, and that word
decodes to it. -/
def Obligations.DecodeEncode : Prop :=
  ∀ (env : DecodeEnv) (i : Instr), env.budget ≤ 192 → i.wf env = true →
    (∀ w, encode i = some w → decode env w = .ok i ∧ kindOf w ≠ .header)
    ∧ (i.fields ≠ none ∨ (∃ x y, i = .pair x y) → encode i ≠ none)

/-- R8 to R11, R48, R158, R190, R302, R312, R329, R330, R353, R365, R396, R403, R417, R419, R422: the state that reset leaves.
Values that no rule gives are the model's choice and are not stated here (assumption log 3, 4, 6, 8, 74). -/
def Obligations.ResetValues : Prop :=
  let s := State.reset
  Memory.wf s.mem = true ∧ s.pins.reset = true ∧ s.waves = [] ∧ s.nodes = [] ∧ s.gangs = [] ∧ s.batches = [] ∧ s.ctxs = []
    ∧ s.regions = []
    ∧ s.filters = [] ∧ s.copies = [] ∧ s.walks = [] ∧ s.passes = [] ∧ s.lines = [] ∧ s.writes = [] ∧ s.tlb = [] ∧ s.reports = []
    ∧ s.fw.state = 0 ∧ s.fw.cmdSeq = 0 ∧ s.fw.cmdResult = 0 ∧ s.fw.rmSeq = 0 ∧ s.nextFault = 1
    ∧ s.rings.length = 64 ∧ (∀ r ∈ s.rings, r.bound = false ∧ r.head = 0 ∧ r.sizeLog = 0 ∧ r.ctx = 0)
    ∧ s.faultRings.length = 4 ∧ (∀ r ∈ s.faultRings, r.enable = false ∧ r.head = 0 ∧ r.tail = 0)
    ∧ s.hub.pcieAtom = 0 ∧ (∀ w ∈ s.hub.inwin, w = (0, 0)) ∧ s.snap.reg = 0 ∧ s.mail.head = 0 ∧ s.mail.tail = 0
    ∧ s.posts.length = 9 ∧ (∀ p ∈ s.posts, p.ctx = 0xFFFF ∧ p.event = 0 ∧ p.finfo = 0)
    ∧ s.spokes.length = 8 ∧ (∀ x ∈ s.spokes, x.budget = 64 ∧ x.refill = 0 ∧ x.boost = .open ∧ x.gated = true)
    ∧ s.clusters.length = 64 ∧ (∀ n, n < 64 → (s.cluster n).rank = n % 8 ∧ (s.cluster n).passc = 1 ∧ (s.cluster n).freq = 0
      ∧ (s.cluster n).lateSum = 0 ∧ (s.cluster n).fused = none ∧ (s.cluster n).span.hitched = false
      ∧ (s.cluster n).span.entries = [])

/-- R7, R344, and the model's own form of device memory: whatever step the machine takes, the bytes it lists stay in their
canonical form, so that two memories that read alike are alike. That an unlisted byte reads 0 is the model's choice (assumption
log 6). -/
def Obligations.MemoryCanonical : Prop :=
  ∀ (s t : State), Memory.wf s.mem = true → step s = .next t → Memory.wf t.mem = true
end

