-- ==== Sys2Proof/Laws/Find.lean ====
section
/-! SUPPORT. Looking waves up after they are put back, and clusters after one is updated. -/

namespace Sys2Proof.Machine

theorem find_replaceBy_self (l : List Wave) (w w0 : Wave) (h : l.find? (fun x => x.uid == w.uid) = some w0) :
    (replaceBy (fun x => x.uid == w.uid) w l).find? (fun x => x.uid == w.uid) = some w := by
  induction l with
  | nil => simp at h
  | cons y t ih =>
    by_cases hy : y.uid = w.uid
    · simp [replaceBy, hy]
    · have : t.find? (fun x => x.uid == w.uid) = some w0 := by simpa [List.find?_cons, hy] using h
      simp [replaceBy, hy, ih this]

theorem find_replaceBy_other (l : List Wave) (w : Wave) (u : Nat) (hu : u ≠ w.uid) :
    (replaceBy (fun x => x.uid == w.uid) w l).find? (fun x => x.uid == u) = l.find? (fun x => x.uid == u) := by
  induction l with
  | nil => rfl
  | cons y t ih =>
    by_cases hy : y.uid = w.uid
    · have h1 : ¬ w.uid = u := fun h => hu h.symm
      have h2 : ¬ y.uid = u := by omega
      simp [replaceBy, hy, h1, ih]
    · simp only [replaceBy, beq_iff_eq, hy, if_false, List.find?_cons, ih]

/-- A wave that is put back is found again. -/
theorem wave?_putWave_self (s : State) (w w0 : Wave) (h : s.wave? w.uid = some w0) : (s.putWave w).wave? w.uid = some w :=
  find_replaceBy_self s.waves w w0 h

/-- Putting a wave back leaves the others. -/
theorem wave?_putWave_other (s : State) (w : Wave) (u : Nat) (hu : u ≠ w.uid) : (s.putWave w).wave? u = s.wave? u :=
  find_replaceBy_other s.waves w u hu

/-- A wave that is found carries the number it was looked for by. -/
theorem wave?_uid (s : State) (u : Nat) (w : Wave) (h : s.wave? u = some w) : w.uid = u := by
  have := List.find?_some h
  simpa using this

theorem getD_updAt {α : Type} (l : List α) (n m : Nat) (f : α → α) (d : α) :
    (updAt l n f).getD m d = if m = n ∧ n < l.length then f (l.getD m d) else l.getD m d := by
  induction l generalizing n m with
  | nil => simp [updAt]
  | cons x t ih =>
    cases n with
    | zero => cases m <;> simp [updAt]
    | succ n =>
      cases m with
      | zero => simp [updAt]
      | succ m =>
        have h1 := ih n m
        simp only [updAt, List.getD_cons_succ, List.length_cons, Nat.add_lt_add_iff_right, Nat.add_right_cancel_iff]
        exact h1

/-- The issuing word's wave is the one the machine holds under its number. -/
theorem issue?_wave (s : State) (i : Issue) (h : s.issue? = some i) : s.wave? i.w.uid = some i.w := by
  unfold State.issue? at h
  cases hc : s.cur with
  | none => simp [hc] at h
  | some c =>
    obtain ⟨u, l⟩ := c
    simp only [hc] at h
    cases hw : s.wave? u with
    | none => simp [hw] at h
    | some w =>
      simp only [hw] at h
      have hu := wave?_uid s u w hw
      split at h
      · simp at h
      · split at h
        · simp at h
        · split at h
          · simp only [Option.some.injEq] at h
            subst h
            simpa [hu] using hw
          · simp at h

end Sys2Proof.Machine
end

