-- ==== Sys2Proof/Laws/Issue.lean ====
section
/-! SUPPORT. What the issue of a word leaves alone, once for the shared operations: taking a trap that waited, a debugger's stop,
moving a path past its word, and issuing a register word. -/

namespace Sys2Proof.Machine

/-- The machine without what an issue may change. -/
def State.still (s : State) : State :=
  { s with waves := [], clusters := [], fresh := 0, used := [], mail := State.reset.mail }

theorem still_iff (s t : State) : t.still = s.still ↔
    t = { s with waves := t.waves, clusters := t.clusters, fresh := t.fresh, used := t.used, mail := t.mail } := by
  constructor
  · intro h
    calc t = { t.still with waves := t.waves, clusters := t.clusters, fresh := t.fresh, used := t.used, mail := t.mail } := rfl
      _ = { s.still with waves := t.waves, clusters := t.clusters, fresh := t.fresh, used := t.used, mail := t.mail } := by rw [h]
      _ = _ := rfl
  · intro h
    exact (congrArg State.still h).trans rfl

/-- The wave without what an issue may change. -/
def Wave.still (w : Wave) : Wave :=
  { w with rf := RegFile.zero, paths := [], marks := [], bound := [], trap := .none, beyond := 0, turn := 0, dbgWant := false }

theorem Wave.still_iff (a b : Wave) : b.still = a.still ↔ a.onlyIssue b := by
  constructor
  · intro h
    calc b = { b.still with rf := b.rf, paths := b.paths, marks := b.marks, bound := b.bound, trap := b.trap, beyond := b.beyond
                            turn := b.turn, dbgWant := b.dbgWant } := rfl
      _ = { a.still with rf := b.rf, paths := b.paths, marks := b.marks, bound := b.bound, trap := b.trap, beyond := b.beyond
                         turn := b.turn, dbgWant := b.dbgWant } := by rw [h]
      _ = _ := rfl
  · intro h
    exact (congrArg Wave.still h).trans rfl

/-- Cluster notes compose. -/
theorem noted_refl (a : Cluster) : Cluster.noted a a := rfl

theorem noted_trans {a b c : Cluster} (h : Cluster.noted a b) (k : Cluster.noted b c) : Cluster.noted a c := by
  unfold Cluster.noted at *
  rw [k, h]

/-- One wave of the machine has moved, keeping its registers. -/
structure Moved (s t : State) (u : Nat) (w w' : Wave) : Prop where
  wave : t.wave? u = some w'
  others : ∀ v, v ≠ u → t.wave? v = s.wave? v
  still : t.still = s.still
  clusters : ∀ n, Cluster.noted (s.cluster n) (t.cluster n)
  kept : w'.still = w.still
  rf : w'.rf = w.rf
  marks : w'.marks = w.marks
  bound : w'.bound = w.bound
  beyond : w'.beyond = w.beyond

theorem Moved.trans {s t r : State} {u : Nat} {a b c : Wave} (h : Moved s t u a b) (k : Moved t r u b c) : Moved s r u a c where
  wave := k.wave
  others v hv := (k.others v hv).trans (h.others v hv)
  still := k.still.trans h.still
  clusters n := noted_trans (h.clusters n) (k.clusters n)
  kept := k.kept.trans h.kept
  rf := k.rf.trans h.rf
  marks := k.marks.trans h.marks
  bound := k.bound.trans h.bound
  beyond := k.beyond.trans h.beyond

theorem Moved.refl {s : State} {u : Nat} {w : Wave} (h : s.wave? u = some w) : Moved s s u w w :=
  ⟨h, fun _ _ => rfl, rfl, fun _ => noted_refl _, rfl, rfl, rfl, rfl, rfl⟩

/-- Putting a wave back moves it. -/
theorem moved_putWave {s : State} {u : Nat} {w : Wave} (w' : Wave) (h : s.wave? u = some w) (hu : w'.uid = u)
    (hk : w'.still = w.still) (hr : w'.rf = w.rf) (hm : w'.marks = w.marks) (hb : w'.bound = w.bound)
    (hy : w'.beyond = w.beyond) : Moved s (s.putWave w') u w w' where
  wave := by subst hu; exact wave?_putWave_self s w' w h
  others v hv := wave?_putWave_other s w' v (by omega)
  still := rfl
  clusters _ := rfl
  kept := hk
  rf := hr
  marks := hm
  bound := hb
  beyond := hy

/-- A change of the mailbox moves nothing. -/
theorem moved_mail {s : State} {u : Nat} {w : Wave} (m : Mailbox) (h : s.wave? u = some w) : Moved s { s with mail := m } u w w :=
  ⟨h, fun _ _ => rfl, rfl, fun _ => rfl, rfl, rfl, rfl, rfl, rfl⟩

theorem moved_events {u : Nat} {w : Wave} (e : Path → DbgEvent) (l : List Path) (s : State) (h : s.wave? u = some w) :
    Moved s (l.foldl (fun t p => t.queueEvent (e p)) s) u w w := by
  induction l generalizing s with
  | nil => exact .refl h
  | cons p t ih =>
    have h1 : Moved s (s.queueEvent (e p)) u w w := moved_mail _ h
    exact h1.trans (ih _ h1.wave)

theorem moved_noteStep {s : State} {u : Nat} {w : Wave} (b : Wave) (h : s.wave? u = some w) : Moved s (s.noteStep b) u w w := by
  unfold State.noteStep
  split
  · exact .refl h
  · exact moved_events (fun p => s.dbgEvent _ 2 0 p.lanes p.trapPoint.pc) _ s h

/-- TAKING A TRAP THAT WAITED: nothing where none waits; else only the wave's paths and trap state change. -/
theorem settleTrap_none {s : State} {u : Nat} {w : Wave} (h : s.wave? u = some w) (hp : w.trap.pend = none) :
    s.settleTrap u = s := by
  unfold State.settleTrap
  simp [h, hp]

theorem moved_settleTrap {s : State} {u : Nat} {w : Wave} (h : s.wave? u = some w) : ∃ w', Moved s (s.settleTrap u) u w w' := by
  unfold State.settleTrap
  simp only [h]
  split
  · exact ⟨w, .refl h⟩
  · split
    · have hu := wave?_uid s u w h
      have h1 := moved_putWave (w.enterTrap (s.descOf w).handler ‹Nat›) h (by simpa [Wave.enterTrap] using hu) rfl rfl rfl rfl rfl
      exact ⟨_, h1.trans (moved_noteStep w h1.wave)⟩
    · exact ⟨w, .refl h⟩

theorem settleDbg_none {s : State} {u : Nat} {w : Wave} (h : s.wave? u = some w) (hp : w.dbgWant = false) :
    s.settleDbg u = s := by
  unfold State.settleDbg
  simp only [h, hp, Bool.false_and]
  split <;> simp

theorem moved_settleDbg {s : State} {u : Nat} {w : Wave} (h : s.wave? u = some w) : ∃ w', Moved s (s.settleDbg u) u w w' := by
  unfold State.settleDbg
  simp only [h]
  split
  · exact ⟨w, .refl h⟩
  · split
    · have hu := wave?_uid s u w h
      have h1 := moved_putWave { w with dbgWant := false, paths := w.paths.map (fun p => { p with dbg := true }) } h hu rfl rfl rfl rfl rfl
      exact ⟨_, h1.trans (moved_mail _ h1.wave)⟩
    · exact ⟨w, .refl h⟩

/-- A PATH MOVES: the wave that is put back with other paths, then any trap or stop that waited. -/
theorem replace_spec (s : State) (i : Issue) (w w0 : Wave) (new : List Path) (h : s.wave? w.uid = some w0) :
    ∃ w', (s.replace i w new).wave? w.uid = some w'
      ∧ (∀ v, v ≠ w.uid → (s.replace i w new).wave? v = s.wave? v)
      ∧ (s.replace i w new).still = s.still
      ∧ (∀ n, Cluster.noted (s.cluster n) ((s.replace i w new).cluster n))
      ∧ w'.still = w.still ∧ w'.rf = w.rf ∧ w'.marks = w.marks ∧ w'.bound = w.bound ∧ w'.beyond = w.beyond
      ∧ (w.trap.pend = none → w.dbgWant = false → i.p.step = false →
          w'.trap = w.trap ∧ w'.dbgWant = false ∧ w'.paths = replacePath w.paths i.p.lanes new) := by
  unfold State.replace
  extract_lets done y new1 s0 s1 idle s2
  have h0 : s0.wave? w.uid = some { w with paths := replacePath w.paths i.p.lanes new1, turn := if y then s.fresh else w.turn } :=
    wave?_putWave_self s { w with paths := replacePath w.paths i.p.lanes new1, turn := if y then s.fresh else w.turn } w0 h
  obtain ⟨w1, hw1⟩ : ∃ w1, w1 = { w with paths := replacePath w.paths i.p.lanes new1, turn := if y then s.fresh else w.turn } := ⟨_, rfl⟩
  rw [← hw1] at h0
  have m1 : Moved s0 s1 w.uid w1 w1 := by
    simp only [s1]
    split
    · exact moved_noteStep _ h0
    · exact .refl h0
  have m2 : Moved s0 s2 w.uid w1 w1 := by
    simp only [s2]
    split
    · exact m1
    · refine m1.trans ⟨m1.wave, fun _ _ => rfl, rfl, fun n => ?_, rfl, rfl, rfl, rfl, rfl⟩
      simp only [State.cluster, getD_updAt]
      split <;> rfl
  obtain ⟨w2, m3⟩ := moved_settleTrap m2.wave
  obtain ⟨w3, m4⟩ := moved_settleDbg m3.wave
  have m := m2.trans (m3.trans m4)
  have hs0 : s0.still = s.still := rfl
  refine ⟨w3, m.wave, fun v hv => (m.others v hv).trans (wave?_putWave_other s _ v hv), m.still.trans hs0, m.clusters, ?_, ?_,
    ?_, ?_, ?_, ?_⟩
  · rw [m.kept, hw1]; rfl
  · rw [m.rf, hw1]
  · rw [m.marks, hw1]
  · rw [m.bound, hw1]
  · rw [m.beyond, hw1]
  · intro hp hd hstep
    have e1 : s2.settleTrap w.uid = s2 := settleTrap_none m2.wave (by rw [hw1]; exact hp)
    have e2 : s2.settleDbg w.uid = s2 := settleDbg_none m2.wave (by rw [hw1]; exact hd)
    have hf := m4.wave
    rw [e1, e2, m2.wave] at hf
    simp only [Option.some.injEq] at hf
    rw [← hf, hw1]
    refine ⟨rfl, hd, ?_⟩
    simp only [new1, hstep]
    rfl

end Sys2Proof.Machine
end

