-- ==== Sys2Proof/Laws/State.lean ====
section
/-! SUPPORT. What each named update of the machine does to each field of State: one lemma for each, true by unfolding, so that no
later proof unfolds a record update. -/

namespace Sys2Proof.Machine

/-! `State.putWave` changes `waves`. -/

section
variable (s : State) (w : Wave)

@[simp] theorem State.putWave_variant : (s.putWave w).variant = s.variant := rfl
@[simp] theorem State.putWave_tick : (s.putWave w).tick = s.tick := rfl
@[simp] theorem State.putWave_schedule : (s.putWave w).schedule = s.schedule := rfl
@[simp] theorem State.putWave_choices : (s.putWave w).choices = s.choices := rfl
@[simp] theorem State.putWave_cur : (s.putWave w).cur = s.cur := rfl
@[simp] theorem State.putWave_stall : (s.putWave w).stall = s.stall := rfl
@[simp] theorem State.putWave_freeCtr : (s.putWave w).freeCtr = s.freeCtr := rfl
@[simp] theorem State.putWave_fresh : (s.putWave w).fresh = s.fresh := rfl
@[simp] theorem State.putWave_waves : (s.putWave w).waves = replaceBy (fun y => y.uid == w.uid) w s.waves := rfl
@[simp] theorem State.putWave_wgs : (s.putWave w).wgs = s.wgs := rfl
@[simp] theorem State.putWave_gangs : (s.putWave w).gangs = s.gangs := rfl
@[simp] theorem State.putWave_batches : (s.putWave w).batches = s.batches := rfl
@[simp] theorem State.putWave_nodes : (s.putWave w).nodes = s.nodes := rfl
@[simp] theorem State.putWave_nodeStarts : (s.putWave w).nodeStarts = s.nodeStarts := rfl
@[simp] theorem State.putWave_succs : (s.putWave w).succs = s.succs := rfl
@[simp] theorem State.putWave_ctxs : (s.putWave w).ctxs = s.ctxs := rfl
@[simp] theorem State.putWave_regions : (s.putWave w).regions = s.regions := rfl
@[simp] theorem State.putWave_clusters : (s.putWave w).clusters = s.clusters := rfl
@[simp] theorem State.putWave_spokes : (s.putWave w).spokes = s.spokes := rfl
@[simp] theorem State.putWave_rings : (s.putWave w).rings = s.rings := rfl
@[simp] theorem State.putWave_reports : (s.putWave w).reports = s.reports := rfl
@[simp] theorem State.putWave_posts : (s.putWave w).posts = s.posts := rfl
@[simp] theorem State.putWave_mem : (s.putWave w).mem = s.mem := rfl
@[simp] theorem State.putWave_ioWrites : (s.putWave w).ioWrites = s.ioWrites := rfl
@[simp] theorem State.putWave_vers : (s.putWave w).vers = s.vers := rfl
@[simp] theorem State.putWave_classes : (s.putWave w).classes = s.classes := rfl
@[simp] theorem State.putWave_lines : (s.putWave w).lines = s.lines := rfl
@[simp] theorem State.putWave_writes : (s.putWave w).writes = s.writes := rfl
@[simp] theorem State.putWave_tlb : (s.putWave w).tlb = s.tlb := rfl
@[simp] theorem State.putWave_ptPend : (s.putWave w).ptPend = s.ptPend := rfl
@[simp] theorem State.putWave_bad : (s.putWave w).bad = s.bad := rfl
@[simp] theorem State.putWave_filters : (s.putWave w).filters = s.filters := rfl
@[simp] theorem State.putWave_nextFault : (s.putWave w).nextFault = s.nextFault := rfl
@[simp] theorem State.putWave_faultRings : (s.putWave w).faultRings = s.faultRings := rfl
@[simp] theorem State.putWave_copies : (s.putWave w).copies = s.copies := rfl
@[simp] theorem State.putWave_walks : (s.putWave w).walks = s.walks := rfl
@[simp] theorem State.putWave_passes : (s.putWave w).passes = s.passes := rfl
@[simp] theorem State.putWave_hub : (s.putWave w).hub = s.hub := rfl
@[simp] theorem State.putWave_admitTick : (s.putWave w).admitTick = s.admitTick := rfl
@[simp] theorem State.putWave_admitCount : (s.putWave w).admitCount = s.admitCount := rfl
@[simp] theorem State.putWave_mail : (s.putWave w).mail = s.mail := rfl
@[simp] theorem State.putWave_cores : (s.putWave w).cores = s.cores := rfl
@[simp] theorem State.putWave_views : (s.putWave w).views = s.views := rfl
@[simp] theorem State.putWave_parts : (s.putWave w).parts = s.parts := rfl
@[simp] theorem State.putWave_used : (s.putWave w).used = s.used := rfl
@[simp] theorem State.putWave_moved : (s.putWave w).moved = s.moved := rfl
@[simp] theorem State.putWave_power : (s.putWave w).power = s.power := rfl
@[simp] theorem State.putWave_fw : (s.putWave w).fw = s.fw := rfl
@[simp] theorem State.putWave_board : (s.putWave w).board = s.board := rfl
@[simp] theorem State.putWave_snap : (s.putWave w).snap = s.snap := rfl
@[simp] theorem State.putWave_pins : (s.putWave w).pins = s.pins := rfl
@[simp] theorem State.putWave_rejected : (s.putWave w).rejected = s.rejected := rfl
@[simp] theorem State.putWave_sent : (s.putWave w).sent = s.sent := rfl

end

/-! `State.putWg` changes `wgs`. -/

section
variable (s : State) (x : Workgroup)

@[simp] theorem State.putWg_variant : (s.putWg x).variant = s.variant := rfl
@[simp] theorem State.putWg_tick : (s.putWg x).tick = s.tick := rfl
@[simp] theorem State.putWg_schedule : (s.putWg x).schedule = s.schedule := rfl
@[simp] theorem State.putWg_choices : (s.putWg x).choices = s.choices := rfl
@[simp] theorem State.putWg_cur : (s.putWg x).cur = s.cur := rfl
@[simp] theorem State.putWg_stall : (s.putWg x).stall = s.stall := rfl
@[simp] theorem State.putWg_freeCtr : (s.putWg x).freeCtr = s.freeCtr := rfl
@[simp] theorem State.putWg_fresh : (s.putWg x).fresh = s.fresh := rfl
@[simp] theorem State.putWg_waves : (s.putWg x).waves = s.waves := rfl
@[simp] theorem State.putWg_wgs : (s.putWg x).wgs = replaceBy (fun y => y.uid == x.uid) x s.wgs := rfl
@[simp] theorem State.putWg_gangs : (s.putWg x).gangs = s.gangs := rfl
@[simp] theorem State.putWg_batches : (s.putWg x).batches = s.batches := rfl
@[simp] theorem State.putWg_nodes : (s.putWg x).nodes = s.nodes := rfl
@[simp] theorem State.putWg_nodeStarts : (s.putWg x).nodeStarts = s.nodeStarts := rfl
@[simp] theorem State.putWg_succs : (s.putWg x).succs = s.succs := rfl
@[simp] theorem State.putWg_ctxs : (s.putWg x).ctxs = s.ctxs := rfl
@[simp] theorem State.putWg_regions : (s.putWg x).regions = s.regions := rfl
@[simp] theorem State.putWg_clusters : (s.putWg x).clusters = s.clusters := rfl
@[simp] theorem State.putWg_spokes : (s.putWg x).spokes = s.spokes := rfl
@[simp] theorem State.putWg_rings : (s.putWg x).rings = s.rings := rfl
@[simp] theorem State.putWg_reports : (s.putWg x).reports = s.reports := rfl
@[simp] theorem State.putWg_posts : (s.putWg x).posts = s.posts := rfl
@[simp] theorem State.putWg_mem : (s.putWg x).mem = s.mem := rfl
@[simp] theorem State.putWg_ioWrites : (s.putWg x).ioWrites = s.ioWrites := rfl
@[simp] theorem State.putWg_vers : (s.putWg x).vers = s.vers := rfl
@[simp] theorem State.putWg_classes : (s.putWg x).classes = s.classes := rfl
@[simp] theorem State.putWg_lines : (s.putWg x).lines = s.lines := rfl
@[simp] theorem State.putWg_writes : (s.putWg x).writes = s.writes := rfl
@[simp] theorem State.putWg_tlb : (s.putWg x).tlb = s.tlb := rfl
@[simp] theorem State.putWg_ptPend : (s.putWg x).ptPend = s.ptPend := rfl
@[simp] theorem State.putWg_bad : (s.putWg x).bad = s.bad := rfl
@[simp] theorem State.putWg_filters : (s.putWg x).filters = s.filters := rfl
@[simp] theorem State.putWg_nextFault : (s.putWg x).nextFault = s.nextFault := rfl
@[simp] theorem State.putWg_faultRings : (s.putWg x).faultRings = s.faultRings := rfl
@[simp] theorem State.putWg_copies : (s.putWg x).copies = s.copies := rfl
@[simp] theorem State.putWg_walks : (s.putWg x).walks = s.walks := rfl
@[simp] theorem State.putWg_passes : (s.putWg x).passes = s.passes := rfl
@[simp] theorem State.putWg_hub : (s.putWg x).hub = s.hub := rfl
@[simp] theorem State.putWg_admitTick : (s.putWg x).admitTick = s.admitTick := rfl
@[simp] theorem State.putWg_admitCount : (s.putWg x).admitCount = s.admitCount := rfl
@[simp] theorem State.putWg_mail : (s.putWg x).mail = s.mail := rfl
@[simp] theorem State.putWg_cores : (s.putWg x).cores = s.cores := rfl
@[simp] theorem State.putWg_views : (s.putWg x).views = s.views := rfl
@[simp] theorem State.putWg_parts : (s.putWg x).parts = s.parts := rfl
@[simp] theorem State.putWg_used : (s.putWg x).used = s.used := rfl
@[simp] theorem State.putWg_moved : (s.putWg x).moved = s.moved := rfl
@[simp] theorem State.putWg_power : (s.putWg x).power = s.power := rfl
@[simp] theorem State.putWg_fw : (s.putWg x).fw = s.fw := rfl
@[simp] theorem State.putWg_board : (s.putWg x).board = s.board := rfl
@[simp] theorem State.putWg_snap : (s.putWg x).snap = s.snap := rfl
@[simp] theorem State.putWg_pins : (s.putWg x).pins = s.pins := rfl
@[simp] theorem State.putWg_rejected : (s.putWg x).rejected = s.rejected := rfl
@[simp] theorem State.putWg_sent : (s.putWg x).sent = s.sent := rfl

end

/-! `State.putGang` changes `gangs`. -/

section
variable (s : State) (x : Gang)

@[simp] theorem State.putGang_variant : (s.putGang x).variant = s.variant := rfl
@[simp] theorem State.putGang_tick : (s.putGang x).tick = s.tick := rfl
@[simp] theorem State.putGang_schedule : (s.putGang x).schedule = s.schedule := rfl
@[simp] theorem State.putGang_choices : (s.putGang x).choices = s.choices := rfl
@[simp] theorem State.putGang_cur : (s.putGang x).cur = s.cur := rfl
@[simp] theorem State.putGang_stall : (s.putGang x).stall = s.stall := rfl
@[simp] theorem State.putGang_freeCtr : (s.putGang x).freeCtr = s.freeCtr := rfl
@[simp] theorem State.putGang_fresh : (s.putGang x).fresh = s.fresh := rfl
@[simp] theorem State.putGang_waves : (s.putGang x).waves = s.waves := rfl
@[simp] theorem State.putGang_wgs : (s.putGang x).wgs = s.wgs := rfl
@[simp] theorem State.putGang_gangs : (s.putGang x).gangs = replaceBy (fun y => y.uid == x.uid) x s.gangs := rfl
@[simp] theorem State.putGang_batches : (s.putGang x).batches = s.batches := rfl
@[simp] theorem State.putGang_nodes : (s.putGang x).nodes = s.nodes := rfl
@[simp] theorem State.putGang_nodeStarts : (s.putGang x).nodeStarts = s.nodeStarts := rfl
@[simp] theorem State.putGang_succs : (s.putGang x).succs = s.succs := rfl
@[simp] theorem State.putGang_ctxs : (s.putGang x).ctxs = s.ctxs := rfl
@[simp] theorem State.putGang_regions : (s.putGang x).regions = s.regions := rfl
@[simp] theorem State.putGang_clusters : (s.putGang x).clusters = s.clusters := rfl
@[simp] theorem State.putGang_spokes : (s.putGang x).spokes = s.spokes := rfl
@[simp] theorem State.putGang_rings : (s.putGang x).rings = s.rings := rfl
@[simp] theorem State.putGang_reports : (s.putGang x).reports = s.reports := rfl
@[simp] theorem State.putGang_posts : (s.putGang x).posts = s.posts := rfl
@[simp] theorem State.putGang_mem : (s.putGang x).mem = s.mem := rfl
@[simp] theorem State.putGang_ioWrites : (s.putGang x).ioWrites = s.ioWrites := rfl
@[simp] theorem State.putGang_vers : (s.putGang x).vers = s.vers := rfl
@[simp] theorem State.putGang_classes : (s.putGang x).classes = s.classes := rfl
@[simp] theorem State.putGang_lines : (s.putGang x).lines = s.lines := rfl
@[simp] theorem State.putGang_writes : (s.putGang x).writes = s.writes := rfl
@[simp] theorem State.putGang_tlb : (s.putGang x).tlb = s.tlb := rfl
@[simp] theorem State.putGang_ptPend : (s.putGang x).ptPend = s.ptPend := rfl
@[simp] theorem State.putGang_bad : (s.putGang x).bad = s.bad := rfl
@[simp] theorem State.putGang_filters : (s.putGang x).filters = s.filters := rfl
@[simp] theorem State.putGang_nextFault : (s.putGang x).nextFault = s.nextFault := rfl
@[simp] theorem State.putGang_faultRings : (s.putGang x).faultRings = s.faultRings := rfl
@[simp] theorem State.putGang_copies : (s.putGang x).copies = s.copies := rfl
@[simp] theorem State.putGang_walks : (s.putGang x).walks = s.walks := rfl
@[simp] theorem State.putGang_passes : (s.putGang x).passes = s.passes := rfl
@[simp] theorem State.putGang_hub : (s.putGang x).hub = s.hub := rfl
@[simp] theorem State.putGang_admitTick : (s.putGang x).admitTick = s.admitTick := rfl
@[simp] theorem State.putGang_admitCount : (s.putGang x).admitCount = s.admitCount := rfl
@[simp] theorem State.putGang_mail : (s.putGang x).mail = s.mail := rfl
@[simp] theorem State.putGang_cores : (s.putGang x).cores = s.cores := rfl
@[simp] theorem State.putGang_views : (s.putGang x).views = s.views := rfl
@[simp] theorem State.putGang_parts : (s.putGang x).parts = s.parts := rfl
@[simp] theorem State.putGang_used : (s.putGang x).used = s.used := rfl
@[simp] theorem State.putGang_moved : (s.putGang x).moved = s.moved := rfl
@[simp] theorem State.putGang_power : (s.putGang x).power = s.power := rfl
@[simp] theorem State.putGang_fw : (s.putGang x).fw = s.fw := rfl
@[simp] theorem State.putGang_board : (s.putGang x).board = s.board := rfl
@[simp] theorem State.putGang_snap : (s.putGang x).snap = s.snap := rfl
@[simp] theorem State.putGang_pins : (s.putGang x).pins = s.pins := rfl
@[simp] theorem State.putGang_rejected : (s.putGang x).rejected = s.rejected := rfl
@[simp] theorem State.putGang_sent : (s.putGang x).sent = s.sent := rfl

end

/-! `State.putBatch` changes `batches`. -/

section
variable (s : State) (x : Batch)

@[simp] theorem State.putBatch_variant : (s.putBatch x).variant = s.variant := rfl
@[simp] theorem State.putBatch_tick : (s.putBatch x).tick = s.tick := rfl
@[simp] theorem State.putBatch_schedule : (s.putBatch x).schedule = s.schedule := rfl
@[simp] theorem State.putBatch_choices : (s.putBatch x).choices = s.choices := rfl
@[simp] theorem State.putBatch_cur : (s.putBatch x).cur = s.cur := rfl
@[simp] theorem State.putBatch_stall : (s.putBatch x).stall = s.stall := rfl
@[simp] theorem State.putBatch_freeCtr : (s.putBatch x).freeCtr = s.freeCtr := rfl
@[simp] theorem State.putBatch_fresh : (s.putBatch x).fresh = s.fresh := rfl
@[simp] theorem State.putBatch_waves : (s.putBatch x).waves = s.waves := rfl
@[simp] theorem State.putBatch_wgs : (s.putBatch x).wgs = s.wgs := rfl
@[simp] theorem State.putBatch_gangs : (s.putBatch x).gangs = s.gangs := rfl
@[simp] theorem State.putBatch_batches : (s.putBatch x).batches = replaceBy (fun y => y.uid == x.uid) x s.batches := rfl
@[simp] theorem State.putBatch_nodes : (s.putBatch x).nodes = s.nodes := rfl
@[simp] theorem State.putBatch_nodeStarts : (s.putBatch x).nodeStarts = s.nodeStarts := rfl
@[simp] theorem State.putBatch_succs : (s.putBatch x).succs = s.succs := rfl
@[simp] theorem State.putBatch_ctxs : (s.putBatch x).ctxs = s.ctxs := rfl
@[simp] theorem State.putBatch_regions : (s.putBatch x).regions = s.regions := rfl
@[simp] theorem State.putBatch_clusters : (s.putBatch x).clusters = s.clusters := rfl
@[simp] theorem State.putBatch_spokes : (s.putBatch x).spokes = s.spokes := rfl
@[simp] theorem State.putBatch_rings : (s.putBatch x).rings = s.rings := rfl
@[simp] theorem State.putBatch_reports : (s.putBatch x).reports = s.reports := rfl
@[simp] theorem State.putBatch_posts : (s.putBatch x).posts = s.posts := rfl
@[simp] theorem State.putBatch_mem : (s.putBatch x).mem = s.mem := rfl
@[simp] theorem State.putBatch_ioWrites : (s.putBatch x).ioWrites = s.ioWrites := rfl
@[simp] theorem State.putBatch_vers : (s.putBatch x).vers = s.vers := rfl
@[simp] theorem State.putBatch_classes : (s.putBatch x).classes = s.classes := rfl
@[simp] theorem State.putBatch_lines : (s.putBatch x).lines = s.lines := rfl
@[simp] theorem State.putBatch_writes : (s.putBatch x).writes = s.writes := rfl
@[simp] theorem State.putBatch_tlb : (s.putBatch x).tlb = s.tlb := rfl
@[simp] theorem State.putBatch_ptPend : (s.putBatch x).ptPend = s.ptPend := rfl
@[simp] theorem State.putBatch_bad : (s.putBatch x).bad = s.bad := rfl
@[simp] theorem State.putBatch_filters : (s.putBatch x).filters = s.filters := rfl
@[simp] theorem State.putBatch_nextFault : (s.putBatch x).nextFault = s.nextFault := rfl
@[simp] theorem State.putBatch_faultRings : (s.putBatch x).faultRings = s.faultRings := rfl
@[simp] theorem State.putBatch_copies : (s.putBatch x).copies = s.copies := rfl
@[simp] theorem State.putBatch_walks : (s.putBatch x).walks = s.walks := rfl
@[simp] theorem State.putBatch_passes : (s.putBatch x).passes = s.passes := rfl
@[simp] theorem State.putBatch_hub : (s.putBatch x).hub = s.hub := rfl
@[simp] theorem State.putBatch_admitTick : (s.putBatch x).admitTick = s.admitTick := rfl
@[simp] theorem State.putBatch_admitCount : (s.putBatch x).admitCount = s.admitCount := rfl
@[simp] theorem State.putBatch_mail : (s.putBatch x).mail = s.mail := rfl
@[simp] theorem State.putBatch_cores : (s.putBatch x).cores = s.cores := rfl
@[simp] theorem State.putBatch_views : (s.putBatch x).views = s.views := rfl
@[simp] theorem State.putBatch_parts : (s.putBatch x).parts = s.parts := rfl
@[simp] theorem State.putBatch_used : (s.putBatch x).used = s.used := rfl
@[simp] theorem State.putBatch_moved : (s.putBatch x).moved = s.moved := rfl
@[simp] theorem State.putBatch_power : (s.putBatch x).power = s.power := rfl
@[simp] theorem State.putBatch_fw : (s.putBatch x).fw = s.fw := rfl
@[simp] theorem State.putBatch_board : (s.putBatch x).board = s.board := rfl
@[simp] theorem State.putBatch_snap : (s.putBatch x).snap = s.snap := rfl
@[simp] theorem State.putBatch_pins : (s.putBatch x).pins = s.pins := rfl
@[simp] theorem State.putBatch_rejected : (s.putBatch x).rejected = s.rejected := rfl
@[simp] theorem State.putBatch_sent : (s.putBatch x).sent = s.sent := rfl

end

/-! `State.putNode` changes `nodes`. -/

section
variable (s : State) (x : Node)

@[simp] theorem State.putNode_variant : (s.putNode x).variant = s.variant := rfl
@[simp] theorem State.putNode_tick : (s.putNode x).tick = s.tick := rfl
@[simp] theorem State.putNode_schedule : (s.putNode x).schedule = s.schedule := rfl
@[simp] theorem State.putNode_choices : (s.putNode x).choices = s.choices := rfl
@[simp] theorem State.putNode_cur : (s.putNode x).cur = s.cur := rfl
@[simp] theorem State.putNode_stall : (s.putNode x).stall = s.stall := rfl
@[simp] theorem State.putNode_freeCtr : (s.putNode x).freeCtr = s.freeCtr := rfl
@[simp] theorem State.putNode_fresh : (s.putNode x).fresh = s.fresh := rfl
@[simp] theorem State.putNode_waves : (s.putNode x).waves = s.waves := rfl
@[simp] theorem State.putNode_wgs : (s.putNode x).wgs = s.wgs := rfl
@[simp] theorem State.putNode_gangs : (s.putNode x).gangs = s.gangs := rfl
@[simp] theorem State.putNode_batches : (s.putNode x).batches = s.batches := rfl
@[simp] theorem State.putNode_nodes : (s.putNode x).nodes = replaceBy (fun y => y.uid == x.uid) x s.nodes := rfl
@[simp] theorem State.putNode_nodeStarts : (s.putNode x).nodeStarts = s.nodeStarts := rfl
@[simp] theorem State.putNode_succs : (s.putNode x).succs = s.succs := rfl
@[simp] theorem State.putNode_ctxs : (s.putNode x).ctxs = s.ctxs := rfl
@[simp] theorem State.putNode_regions : (s.putNode x).regions = s.regions := rfl
@[simp] theorem State.putNode_clusters : (s.putNode x).clusters = s.clusters := rfl
@[simp] theorem State.putNode_spokes : (s.putNode x).spokes = s.spokes := rfl
@[simp] theorem State.putNode_rings : (s.putNode x).rings = s.rings := rfl
@[simp] theorem State.putNode_reports : (s.putNode x).reports = s.reports := rfl
@[simp] theorem State.putNode_posts : (s.putNode x).posts = s.posts := rfl
@[simp] theorem State.putNode_mem : (s.putNode x).mem = s.mem := rfl
@[simp] theorem State.putNode_ioWrites : (s.putNode x).ioWrites = s.ioWrites := rfl
@[simp] theorem State.putNode_vers : (s.putNode x).vers = s.vers := rfl
@[simp] theorem State.putNode_classes : (s.putNode x).classes = s.classes := rfl
@[simp] theorem State.putNode_lines : (s.putNode x).lines = s.lines := rfl
@[simp] theorem State.putNode_writes : (s.putNode x).writes = s.writes := rfl
@[simp] theorem State.putNode_tlb : (s.putNode x).tlb = s.tlb := rfl
@[simp] theorem State.putNode_ptPend : (s.putNode x).ptPend = s.ptPend := rfl
@[simp] theorem State.putNode_bad : (s.putNode x).bad = s.bad := rfl
@[simp] theorem State.putNode_filters : (s.putNode x).filters = s.filters := rfl
@[simp] theorem State.putNode_nextFault : (s.putNode x).nextFault = s.nextFault := rfl
@[simp] theorem State.putNode_faultRings : (s.putNode x).faultRings = s.faultRings := rfl
@[simp] theorem State.putNode_copies : (s.putNode x).copies = s.copies := rfl
@[simp] theorem State.putNode_walks : (s.putNode x).walks = s.walks := rfl
@[simp] theorem State.putNode_passes : (s.putNode x).passes = s.passes := rfl
@[simp] theorem State.putNode_hub : (s.putNode x).hub = s.hub := rfl
@[simp] theorem State.putNode_admitTick : (s.putNode x).admitTick = s.admitTick := rfl
@[simp] theorem State.putNode_admitCount : (s.putNode x).admitCount = s.admitCount := rfl
@[simp] theorem State.putNode_mail : (s.putNode x).mail = s.mail := rfl
@[simp] theorem State.putNode_cores : (s.putNode x).cores = s.cores := rfl
@[simp] theorem State.putNode_views : (s.putNode x).views = s.views := rfl
@[simp] theorem State.putNode_parts : (s.putNode x).parts = s.parts := rfl
@[simp] theorem State.putNode_used : (s.putNode x).used = s.used := rfl
@[simp] theorem State.putNode_moved : (s.putNode x).moved = s.moved := rfl
@[simp] theorem State.putNode_power : (s.putNode x).power = s.power := rfl
@[simp] theorem State.putNode_fw : (s.putNode x).fw = s.fw := rfl
@[simp] theorem State.putNode_board : (s.putNode x).board = s.board := rfl
@[simp] theorem State.putNode_snap : (s.putNode x).snap = s.snap := rfl
@[simp] theorem State.putNode_pins : (s.putNode x).pins = s.pins := rfl
@[simp] theorem State.putNode_rejected : (s.putNode x).rejected = s.rejected := rfl
@[simp] theorem State.putNode_sent : (s.putNode x).sent = s.sent := rfl

end

/-! `State.putRegion` changes `regions`. -/

section
variable (s : State) (x : Region)

@[simp] theorem State.putRegion_variant : (s.putRegion x).variant = s.variant := rfl
@[simp] theorem State.putRegion_tick : (s.putRegion x).tick = s.tick := rfl
@[simp] theorem State.putRegion_schedule : (s.putRegion x).schedule = s.schedule := rfl
@[simp] theorem State.putRegion_choices : (s.putRegion x).choices = s.choices := rfl
@[simp] theorem State.putRegion_cur : (s.putRegion x).cur = s.cur := rfl
@[simp] theorem State.putRegion_stall : (s.putRegion x).stall = s.stall := rfl
@[simp] theorem State.putRegion_freeCtr : (s.putRegion x).freeCtr = s.freeCtr := rfl
@[simp] theorem State.putRegion_fresh : (s.putRegion x).fresh = s.fresh := rfl
@[simp] theorem State.putRegion_waves : (s.putRegion x).waves = s.waves := rfl
@[simp] theorem State.putRegion_wgs : (s.putRegion x).wgs = s.wgs := rfl
@[simp] theorem State.putRegion_gangs : (s.putRegion x).gangs = s.gangs := rfl
@[simp] theorem State.putRegion_batches : (s.putRegion x).batches = s.batches := rfl
@[simp] theorem State.putRegion_nodes : (s.putRegion x).nodes = s.nodes := rfl
@[simp] theorem State.putRegion_nodeStarts : (s.putRegion x).nodeStarts = s.nodeStarts := rfl
@[simp] theorem State.putRegion_succs : (s.putRegion x).succs = s.succs := rfl
@[simp] theorem State.putRegion_ctxs : (s.putRegion x).ctxs = s.ctxs := rfl
@[simp] theorem State.putRegion_regions : (s.putRegion x).regions = replaceBy (fun y => y.num == x.num) x s.regions := rfl
@[simp] theorem State.putRegion_clusters : (s.putRegion x).clusters = s.clusters := rfl
@[simp] theorem State.putRegion_spokes : (s.putRegion x).spokes = s.spokes := rfl
@[simp] theorem State.putRegion_rings : (s.putRegion x).rings = s.rings := rfl
@[simp] theorem State.putRegion_reports : (s.putRegion x).reports = s.reports := rfl
@[simp] theorem State.putRegion_posts : (s.putRegion x).posts = s.posts := rfl
@[simp] theorem State.putRegion_mem : (s.putRegion x).mem = s.mem := rfl
@[simp] theorem State.putRegion_ioWrites : (s.putRegion x).ioWrites = s.ioWrites := rfl
@[simp] theorem State.putRegion_vers : (s.putRegion x).vers = s.vers := rfl
@[simp] theorem State.putRegion_classes : (s.putRegion x).classes = s.classes := rfl
@[simp] theorem State.putRegion_lines : (s.putRegion x).lines = s.lines := rfl
@[simp] theorem State.putRegion_writes : (s.putRegion x).writes = s.writes := rfl
@[simp] theorem State.putRegion_tlb : (s.putRegion x).tlb = s.tlb := rfl
@[simp] theorem State.putRegion_ptPend : (s.putRegion x).ptPend = s.ptPend := rfl
@[simp] theorem State.putRegion_bad : (s.putRegion x).bad = s.bad := rfl
@[simp] theorem State.putRegion_filters : (s.putRegion x).filters = s.filters := rfl
@[simp] theorem State.putRegion_nextFault : (s.putRegion x).nextFault = s.nextFault := rfl
@[simp] theorem State.putRegion_faultRings : (s.putRegion x).faultRings = s.faultRings := rfl
@[simp] theorem State.putRegion_copies : (s.putRegion x).copies = s.copies := rfl
@[simp] theorem State.putRegion_walks : (s.putRegion x).walks = s.walks := rfl
@[simp] theorem State.putRegion_passes : (s.putRegion x).passes = s.passes := rfl
@[simp] theorem State.putRegion_hub : (s.putRegion x).hub = s.hub := rfl
@[simp] theorem State.putRegion_admitTick : (s.putRegion x).admitTick = s.admitTick := rfl
@[simp] theorem State.putRegion_admitCount : (s.putRegion x).admitCount = s.admitCount := rfl
@[simp] theorem State.putRegion_mail : (s.putRegion x).mail = s.mail := rfl
@[simp] theorem State.putRegion_cores : (s.putRegion x).cores = s.cores := rfl
@[simp] theorem State.putRegion_views : (s.putRegion x).views = s.views := rfl
@[simp] theorem State.putRegion_parts : (s.putRegion x).parts = s.parts := rfl
@[simp] theorem State.putRegion_used : (s.putRegion x).used = s.used := rfl
@[simp] theorem State.putRegion_moved : (s.putRegion x).moved = s.moved := rfl
@[simp] theorem State.putRegion_power : (s.putRegion x).power = s.power := rfl
@[simp] theorem State.putRegion_fw : (s.putRegion x).fw = s.fw := rfl
@[simp] theorem State.putRegion_board : (s.putRegion x).board = s.board := rfl
@[simp] theorem State.putRegion_snap : (s.putRegion x).snap = s.snap := rfl
@[simp] theorem State.putRegion_pins : (s.putRegion x).pins = s.pins := rfl
@[simp] theorem State.putRegion_rejected : (s.putRegion x).rejected = s.rejected := rfl
@[simp] theorem State.putRegion_sent : (s.putRegion x).sent = s.sent := rfl

end

/-! `State.queueEvent` changes `mail`. -/

section
variable (s : State) (e : DbgEvent)

@[simp] theorem State.queueEvent_variant : (s.queueEvent e).variant = s.variant := rfl
@[simp] theorem State.queueEvent_tick : (s.queueEvent e).tick = s.tick := rfl
@[simp] theorem State.queueEvent_schedule : (s.queueEvent e).schedule = s.schedule := rfl
@[simp] theorem State.queueEvent_choices : (s.queueEvent e).choices = s.choices := rfl
@[simp] theorem State.queueEvent_cur : (s.queueEvent e).cur = s.cur := rfl
@[simp] theorem State.queueEvent_stall : (s.queueEvent e).stall = s.stall := rfl
@[simp] theorem State.queueEvent_freeCtr : (s.queueEvent e).freeCtr = s.freeCtr := rfl
@[simp] theorem State.queueEvent_fresh : (s.queueEvent e).fresh = s.fresh := rfl
@[simp] theorem State.queueEvent_waves : (s.queueEvent e).waves = s.waves := rfl
@[simp] theorem State.queueEvent_wgs : (s.queueEvent e).wgs = s.wgs := rfl
@[simp] theorem State.queueEvent_gangs : (s.queueEvent e).gangs = s.gangs := rfl
@[simp] theorem State.queueEvent_batches : (s.queueEvent e).batches = s.batches := rfl
@[simp] theorem State.queueEvent_nodes : (s.queueEvent e).nodes = s.nodes := rfl
@[simp] theorem State.queueEvent_nodeStarts : (s.queueEvent e).nodeStarts = s.nodeStarts := rfl
@[simp] theorem State.queueEvent_succs : (s.queueEvent e).succs = s.succs := rfl
@[simp] theorem State.queueEvent_ctxs : (s.queueEvent e).ctxs = s.ctxs := rfl
@[simp] theorem State.queueEvent_regions : (s.queueEvent e).regions = s.regions := rfl
@[simp] theorem State.queueEvent_clusters : (s.queueEvent e).clusters = s.clusters := rfl
@[simp] theorem State.queueEvent_spokes : (s.queueEvent e).spokes = s.spokes := rfl
@[simp] theorem State.queueEvent_rings : (s.queueEvent e).rings = s.rings := rfl
@[simp] theorem State.queueEvent_reports : (s.queueEvent e).reports = s.reports := rfl
@[simp] theorem State.queueEvent_posts : (s.queueEvent e).posts = s.posts := rfl
@[simp] theorem State.queueEvent_mem : (s.queueEvent e).mem = s.mem := rfl
@[simp] theorem State.queueEvent_ioWrites : (s.queueEvent e).ioWrites = s.ioWrites := rfl
@[simp] theorem State.queueEvent_vers : (s.queueEvent e).vers = s.vers := rfl
@[simp] theorem State.queueEvent_classes : (s.queueEvent e).classes = s.classes := rfl
@[simp] theorem State.queueEvent_lines : (s.queueEvent e).lines = s.lines := rfl
@[simp] theorem State.queueEvent_writes : (s.queueEvent e).writes = s.writes := rfl
@[simp] theorem State.queueEvent_tlb : (s.queueEvent e).tlb = s.tlb := rfl
@[simp] theorem State.queueEvent_ptPend : (s.queueEvent e).ptPend = s.ptPend := rfl
@[simp] theorem State.queueEvent_bad : (s.queueEvent e).bad = s.bad := rfl
@[simp] theorem State.queueEvent_filters : (s.queueEvent e).filters = s.filters := rfl
@[simp] theorem State.queueEvent_nextFault : (s.queueEvent e).nextFault = s.nextFault := rfl
@[simp] theorem State.queueEvent_faultRings : (s.queueEvent e).faultRings = s.faultRings := rfl
@[simp] theorem State.queueEvent_copies : (s.queueEvent e).copies = s.copies := rfl
@[simp] theorem State.queueEvent_walks : (s.queueEvent e).walks = s.walks := rfl
@[simp] theorem State.queueEvent_passes : (s.queueEvent e).passes = s.passes := rfl
@[simp] theorem State.queueEvent_hub : (s.queueEvent e).hub = s.hub := rfl
@[simp] theorem State.queueEvent_admitTick : (s.queueEvent e).admitTick = s.admitTick := rfl
@[simp] theorem State.queueEvent_admitCount : (s.queueEvent e).admitCount = s.admitCount := rfl
@[simp] theorem State.queueEvent_mail : (s.queueEvent e).mail = { s.mail with due := s.mail.due ++ [e] } := rfl
@[simp] theorem State.queueEvent_cores : (s.queueEvent e).cores = s.cores := rfl
@[simp] theorem State.queueEvent_views : (s.queueEvent e).views = s.views := rfl
@[simp] theorem State.queueEvent_parts : (s.queueEvent e).parts = s.parts := rfl
@[simp] theorem State.queueEvent_used : (s.queueEvent e).used = s.used := rfl
@[simp] theorem State.queueEvent_moved : (s.queueEvent e).moved = s.moved := rfl
@[simp] theorem State.queueEvent_power : (s.queueEvent e).power = s.power := rfl
@[simp] theorem State.queueEvent_fw : (s.queueEvent e).fw = s.fw := rfl
@[simp] theorem State.queueEvent_board : (s.queueEvent e).board = s.board := rfl
@[simp] theorem State.queueEvent_snap : (s.queueEvent e).snap = s.snap := rfl
@[simp] theorem State.queueEvent_pins : (s.queueEvent e).pins = s.pins := rfl
@[simp] theorem State.queueEvent_rejected : (s.queueEvent e).rejected = s.rejected := rfl
@[simp] theorem State.queueEvent_sent : (s.queueEvent e).sent = s.sent := rfl

end

/-! `State.updCluster` changes `clusters`. -/

section
variable (s : State) (n : Nat) (f : Cluster → Cluster)

@[simp] theorem State.updCluster_variant : (s.updCluster n f).variant = s.variant := rfl
@[simp] theorem State.updCluster_tick : (s.updCluster n f).tick = s.tick := rfl
@[simp] theorem State.updCluster_schedule : (s.updCluster n f).schedule = s.schedule := rfl
@[simp] theorem State.updCluster_choices : (s.updCluster n f).choices = s.choices := rfl
@[simp] theorem State.updCluster_cur : (s.updCluster n f).cur = s.cur := rfl
@[simp] theorem State.updCluster_stall : (s.updCluster n f).stall = s.stall := rfl
@[simp] theorem State.updCluster_freeCtr : (s.updCluster n f).freeCtr = s.freeCtr := rfl
@[simp] theorem State.updCluster_fresh : (s.updCluster n f).fresh = s.fresh := rfl
@[simp] theorem State.updCluster_waves : (s.updCluster n f).waves = s.waves := rfl
@[simp] theorem State.updCluster_wgs : (s.updCluster n f).wgs = s.wgs := rfl
@[simp] theorem State.updCluster_gangs : (s.updCluster n f).gangs = s.gangs := rfl
@[simp] theorem State.updCluster_batches : (s.updCluster n f).batches = s.batches := rfl
@[simp] theorem State.updCluster_nodes : (s.updCluster n f).nodes = s.nodes := rfl
@[simp] theorem State.updCluster_nodeStarts : (s.updCluster n f).nodeStarts = s.nodeStarts := rfl
@[simp] theorem State.updCluster_succs : (s.updCluster n f).succs = s.succs := rfl
@[simp] theorem State.updCluster_ctxs : (s.updCluster n f).ctxs = s.ctxs := rfl
@[simp] theorem State.updCluster_regions : (s.updCluster n f).regions = s.regions := rfl
@[simp] theorem State.updCluster_clusters : (s.updCluster n f).clusters = updAt s.clusters n f := rfl
@[simp] theorem State.updCluster_spokes : (s.updCluster n f).spokes = s.spokes := rfl
@[simp] theorem State.updCluster_rings : (s.updCluster n f).rings = s.rings := rfl
@[simp] theorem State.updCluster_reports : (s.updCluster n f).reports = s.reports := rfl
@[simp] theorem State.updCluster_posts : (s.updCluster n f).posts = s.posts := rfl
@[simp] theorem State.updCluster_mem : (s.updCluster n f).mem = s.mem := rfl
@[simp] theorem State.updCluster_ioWrites : (s.updCluster n f).ioWrites = s.ioWrites := rfl
@[simp] theorem State.updCluster_vers : (s.updCluster n f).vers = s.vers := rfl
@[simp] theorem State.updCluster_classes : (s.updCluster n f).classes = s.classes := rfl
@[simp] theorem State.updCluster_lines : (s.updCluster n f).lines = s.lines := rfl
@[simp] theorem State.updCluster_writes : (s.updCluster n f).writes = s.writes := rfl
@[simp] theorem State.updCluster_tlb : (s.updCluster n f).tlb = s.tlb := rfl
@[simp] theorem State.updCluster_ptPend : (s.updCluster n f).ptPend = s.ptPend := rfl
@[simp] theorem State.updCluster_bad : (s.updCluster n f).bad = s.bad := rfl
@[simp] theorem State.updCluster_filters : (s.updCluster n f).filters = s.filters := rfl
@[simp] theorem State.updCluster_nextFault : (s.updCluster n f).nextFault = s.nextFault := rfl
@[simp] theorem State.updCluster_faultRings : (s.updCluster n f).faultRings = s.faultRings := rfl
@[simp] theorem State.updCluster_copies : (s.updCluster n f).copies = s.copies := rfl
@[simp] theorem State.updCluster_walks : (s.updCluster n f).walks = s.walks := rfl
@[simp] theorem State.updCluster_passes : (s.updCluster n f).passes = s.passes := rfl
@[simp] theorem State.updCluster_hub : (s.updCluster n f).hub = s.hub := rfl
@[simp] theorem State.updCluster_admitTick : (s.updCluster n f).admitTick = s.admitTick := rfl
@[simp] theorem State.updCluster_admitCount : (s.updCluster n f).admitCount = s.admitCount := rfl
@[simp] theorem State.updCluster_mail : (s.updCluster n f).mail = s.mail := rfl
@[simp] theorem State.updCluster_cores : (s.updCluster n f).cores = s.cores := rfl
@[simp] theorem State.updCluster_views : (s.updCluster n f).views = s.views := rfl
@[simp] theorem State.updCluster_parts : (s.updCluster n f).parts = s.parts := rfl
@[simp] theorem State.updCluster_used : (s.updCluster n f).used = s.used := rfl
@[simp] theorem State.updCluster_moved : (s.updCluster n f).moved = s.moved := rfl
@[simp] theorem State.updCluster_power : (s.updCluster n f).power = s.power := rfl
@[simp] theorem State.updCluster_fw : (s.updCluster n f).fw = s.fw := rfl
@[simp] theorem State.updCluster_board : (s.updCluster n f).board = s.board := rfl
@[simp] theorem State.updCluster_snap : (s.updCluster n f).snap = s.snap := rfl
@[simp] theorem State.updCluster_pins : (s.updCluster n f).pins = s.pins := rfl
@[simp] theorem State.updCluster_rejected : (s.updCluster n f).rejected = s.rejected := rfl
@[simp] theorem State.updCluster_sent : (s.updCluster n f).sent = s.sent := rfl

end

/-! `State.setBytes` changes `mem`. -/

section
variable (s : State) (a : Nat) (bs : List Byte)

@[simp] theorem State.setBytes_variant : (s.setBytes a bs).variant = s.variant := rfl
@[simp] theorem State.setBytes_tick : (s.setBytes a bs).tick = s.tick := rfl
@[simp] theorem State.setBytes_schedule : (s.setBytes a bs).schedule = s.schedule := rfl
@[simp] theorem State.setBytes_choices : (s.setBytes a bs).choices = s.choices := rfl
@[simp] theorem State.setBytes_cur : (s.setBytes a bs).cur = s.cur := rfl
@[simp] theorem State.setBytes_stall : (s.setBytes a bs).stall = s.stall := rfl
@[simp] theorem State.setBytes_freeCtr : (s.setBytes a bs).freeCtr = s.freeCtr := rfl
@[simp] theorem State.setBytes_fresh : (s.setBytes a bs).fresh = s.fresh := rfl
@[simp] theorem State.setBytes_waves : (s.setBytes a bs).waves = s.waves := rfl
@[simp] theorem State.setBytes_wgs : (s.setBytes a bs).wgs = s.wgs := rfl
@[simp] theorem State.setBytes_gangs : (s.setBytes a bs).gangs = s.gangs := rfl
@[simp] theorem State.setBytes_batches : (s.setBytes a bs).batches = s.batches := rfl
@[simp] theorem State.setBytes_nodes : (s.setBytes a bs).nodes = s.nodes := rfl
@[simp] theorem State.setBytes_nodeStarts : (s.setBytes a bs).nodeStarts = s.nodeStarts := rfl
@[simp] theorem State.setBytes_succs : (s.setBytes a bs).succs = s.succs := rfl
@[simp] theorem State.setBytes_ctxs : (s.setBytes a bs).ctxs = s.ctxs := rfl
@[simp] theorem State.setBytes_regions : (s.setBytes a bs).regions = s.regions := rfl
@[simp] theorem State.setBytes_clusters : (s.setBytes a bs).clusters = s.clusters := rfl
@[simp] theorem State.setBytes_spokes : (s.setBytes a bs).spokes = s.spokes := rfl
@[simp] theorem State.setBytes_rings : (s.setBytes a bs).rings = s.rings := rfl
@[simp] theorem State.setBytes_reports : (s.setBytes a bs).reports = s.reports := rfl
@[simp] theorem State.setBytes_posts : (s.setBytes a bs).posts = s.posts := rfl
@[simp] theorem State.setBytes_mem : (s.setBytes a bs).mem = putBytes s.mem a bs := rfl
@[simp] theorem State.setBytes_ioWrites : (s.setBytes a bs).ioWrites = s.ioWrites := rfl
@[simp] theorem State.setBytes_vers : (s.setBytes a bs).vers = s.vers := rfl
@[simp] theorem State.setBytes_classes : (s.setBytes a bs).classes = s.classes := rfl
@[simp] theorem State.setBytes_lines : (s.setBytes a bs).lines = s.lines := rfl
@[simp] theorem State.setBytes_writes : (s.setBytes a bs).writes = s.writes := rfl
@[simp] theorem State.setBytes_tlb : (s.setBytes a bs).tlb = s.tlb := rfl
@[simp] theorem State.setBytes_ptPend : (s.setBytes a bs).ptPend = s.ptPend := rfl
@[simp] theorem State.setBytes_bad : (s.setBytes a bs).bad = s.bad := rfl
@[simp] theorem State.setBytes_filters : (s.setBytes a bs).filters = s.filters := rfl
@[simp] theorem State.setBytes_nextFault : (s.setBytes a bs).nextFault = s.nextFault := rfl
@[simp] theorem State.setBytes_faultRings : (s.setBytes a bs).faultRings = s.faultRings := rfl
@[simp] theorem State.setBytes_copies : (s.setBytes a bs).copies = s.copies := rfl
@[simp] theorem State.setBytes_walks : (s.setBytes a bs).walks = s.walks := rfl
@[simp] theorem State.setBytes_passes : (s.setBytes a bs).passes = s.passes := rfl
@[simp] theorem State.setBytes_hub : (s.setBytes a bs).hub = s.hub := rfl
@[simp] theorem State.setBytes_admitTick : (s.setBytes a bs).admitTick = s.admitTick := rfl
@[simp] theorem State.setBytes_admitCount : (s.setBytes a bs).admitCount = s.admitCount := rfl
@[simp] theorem State.setBytes_mail : (s.setBytes a bs).mail = s.mail := rfl
@[simp] theorem State.setBytes_cores : (s.setBytes a bs).cores = s.cores := rfl
@[simp] theorem State.setBytes_views : (s.setBytes a bs).views = s.views := rfl
@[simp] theorem State.setBytes_parts : (s.setBytes a bs).parts = s.parts := rfl
@[simp] theorem State.setBytes_used : (s.setBytes a bs).used = s.used := rfl
@[simp] theorem State.setBytes_moved : (s.setBytes a bs).moved = s.moved := rfl
@[simp] theorem State.setBytes_power : (s.setBytes a bs).power = s.power := rfl
@[simp] theorem State.setBytes_fw : (s.setBytes a bs).fw = s.fw := rfl
@[simp] theorem State.setBytes_board : (s.setBytes a bs).board = s.board := rfl
@[simp] theorem State.setBytes_snap : (s.setBytes a bs).snap = s.snap := rfl
@[simp] theorem State.setBytes_pins : (s.setBytes a bs).pins = s.pins := rfl
@[simp] theorem State.setBytes_rejected : (s.setBytes a bs).rejected = s.rejected := rfl
@[simp] theorem State.setBytes_sent : (s.setBytes a bs).sent = s.sent := rfl

end

/-! `State.setNum` changes `mem`. -/

section
variable (s : State) (a n x : Nat)

@[simp] theorem State.setNum_variant : (s.setNum a n x).variant = s.variant := rfl
@[simp] theorem State.setNum_tick : (s.setNum a n x).tick = s.tick := rfl
@[simp] theorem State.setNum_schedule : (s.setNum a n x).schedule = s.schedule := rfl
@[simp] theorem State.setNum_choices : (s.setNum a n x).choices = s.choices := rfl
@[simp] theorem State.setNum_cur : (s.setNum a n x).cur = s.cur := rfl
@[simp] theorem State.setNum_stall : (s.setNum a n x).stall = s.stall := rfl
@[simp] theorem State.setNum_freeCtr : (s.setNum a n x).freeCtr = s.freeCtr := rfl
@[simp] theorem State.setNum_fresh : (s.setNum a n x).fresh = s.fresh := rfl
@[simp] theorem State.setNum_waves : (s.setNum a n x).waves = s.waves := rfl
@[simp] theorem State.setNum_wgs : (s.setNum a n x).wgs = s.wgs := rfl
@[simp] theorem State.setNum_gangs : (s.setNum a n x).gangs = s.gangs := rfl
@[simp] theorem State.setNum_batches : (s.setNum a n x).batches = s.batches := rfl
@[simp] theorem State.setNum_nodes : (s.setNum a n x).nodes = s.nodes := rfl
@[simp] theorem State.setNum_nodeStarts : (s.setNum a n x).nodeStarts = s.nodeStarts := rfl
@[simp] theorem State.setNum_succs : (s.setNum a n x).succs = s.succs := rfl
@[simp] theorem State.setNum_ctxs : (s.setNum a n x).ctxs = s.ctxs := rfl
@[simp] theorem State.setNum_regions : (s.setNum a n x).regions = s.regions := rfl
@[simp] theorem State.setNum_clusters : (s.setNum a n x).clusters = s.clusters := rfl
@[simp] theorem State.setNum_spokes : (s.setNum a n x).spokes = s.spokes := rfl
@[simp] theorem State.setNum_rings : (s.setNum a n x).rings = s.rings := rfl
@[simp] theorem State.setNum_reports : (s.setNum a n x).reports = s.reports := rfl
@[simp] theorem State.setNum_posts : (s.setNum a n x).posts = s.posts := rfl
@[simp] theorem State.setNum_mem : (s.setNum a n x).mem = putBytes s.mem a (toBytes n x) := rfl
@[simp] theorem State.setNum_ioWrites : (s.setNum a n x).ioWrites = s.ioWrites := rfl
@[simp] theorem State.setNum_vers : (s.setNum a n x).vers = s.vers := rfl
@[simp] theorem State.setNum_classes : (s.setNum a n x).classes = s.classes := rfl
@[simp] theorem State.setNum_lines : (s.setNum a n x).lines = s.lines := rfl
@[simp] theorem State.setNum_writes : (s.setNum a n x).writes = s.writes := rfl
@[simp] theorem State.setNum_tlb : (s.setNum a n x).tlb = s.tlb := rfl
@[simp] theorem State.setNum_ptPend : (s.setNum a n x).ptPend = s.ptPend := rfl
@[simp] theorem State.setNum_bad : (s.setNum a n x).bad = s.bad := rfl
@[simp] theorem State.setNum_filters : (s.setNum a n x).filters = s.filters := rfl
@[simp] theorem State.setNum_nextFault : (s.setNum a n x).nextFault = s.nextFault := rfl
@[simp] theorem State.setNum_faultRings : (s.setNum a n x).faultRings = s.faultRings := rfl
@[simp] theorem State.setNum_copies : (s.setNum a n x).copies = s.copies := rfl
@[simp] theorem State.setNum_walks : (s.setNum a n x).walks = s.walks := rfl
@[simp] theorem State.setNum_passes : (s.setNum a n x).passes = s.passes := rfl
@[simp] theorem State.setNum_hub : (s.setNum a n x).hub = s.hub := rfl
@[simp] theorem State.setNum_admitTick : (s.setNum a n x).admitTick = s.admitTick := rfl
@[simp] theorem State.setNum_admitCount : (s.setNum a n x).admitCount = s.admitCount := rfl
@[simp] theorem State.setNum_mail : (s.setNum a n x).mail = s.mail := rfl
@[simp] theorem State.setNum_cores : (s.setNum a n x).cores = s.cores := rfl
@[simp] theorem State.setNum_views : (s.setNum a n x).views = s.views := rfl
@[simp] theorem State.setNum_parts : (s.setNum a n x).parts = s.parts := rfl
@[simp] theorem State.setNum_used : (s.setNum a n x).used = s.used := rfl
@[simp] theorem State.setNum_moved : (s.setNum a n x).moved = s.moved := rfl
@[simp] theorem State.setNum_power : (s.setNum a n x).power = s.power := rfl
@[simp] theorem State.setNum_fw : (s.setNum a n x).fw = s.fw := rfl
@[simp] theorem State.setNum_board : (s.setNum a n x).board = s.board := rfl
@[simp] theorem State.setNum_snap : (s.setNum a n x).snap = s.snap := rfl
@[simp] theorem State.setNum_pins : (s.setNum a n x).pins = s.pins := rfl
@[simp] theorem State.setNum_rejected : (s.setNum a n x).rejected = s.rejected := rfl
@[simp] theorem State.setNum_sent : (s.setNum a n x).sent = s.sent := rfl

end

/-! `State.postEvent` changes `posts`. -/

section
variable (s : State) (code : Nat)

@[simp] theorem State.postEvent_variant : (s.postEvent code).variant = s.variant := rfl
@[simp] theorem State.postEvent_tick : (s.postEvent code).tick = s.tick := rfl
@[simp] theorem State.postEvent_schedule : (s.postEvent code).schedule = s.schedule := rfl
@[simp] theorem State.postEvent_choices : (s.postEvent code).choices = s.choices := rfl
@[simp] theorem State.postEvent_cur : (s.postEvent code).cur = s.cur := rfl
@[simp] theorem State.postEvent_stall : (s.postEvent code).stall = s.stall := rfl
@[simp] theorem State.postEvent_freeCtr : (s.postEvent code).freeCtr = s.freeCtr := rfl
@[simp] theorem State.postEvent_fresh : (s.postEvent code).fresh = s.fresh := rfl
@[simp] theorem State.postEvent_waves : (s.postEvent code).waves = s.waves := rfl
@[simp] theorem State.postEvent_wgs : (s.postEvent code).wgs = s.wgs := rfl
@[simp] theorem State.postEvent_gangs : (s.postEvent code).gangs = s.gangs := rfl
@[simp] theorem State.postEvent_batches : (s.postEvent code).batches = s.batches := rfl
@[simp] theorem State.postEvent_nodes : (s.postEvent code).nodes = s.nodes := rfl
@[simp] theorem State.postEvent_nodeStarts : (s.postEvent code).nodeStarts = s.nodeStarts := rfl
@[simp] theorem State.postEvent_succs : (s.postEvent code).succs = s.succs := rfl
@[simp] theorem State.postEvent_ctxs : (s.postEvent code).ctxs = s.ctxs := rfl
@[simp] theorem State.postEvent_regions : (s.postEvent code).regions = s.regions := rfl
@[simp] theorem State.postEvent_clusters : (s.postEvent code).clusters = s.clusters := rfl
@[simp] theorem State.postEvent_spokes : (s.postEvent code).spokes = s.spokes := rfl
@[simp] theorem State.postEvent_rings : (s.postEvent code).rings = s.rings := rfl
@[simp] theorem State.postEvent_reports : (s.postEvent code).reports = s.reports := rfl
@[simp] theorem State.postEvent_posts : (s.postEvent code).posts = updAt s.posts 8 (fun p => { p with event := p.event ||| Config.eventBit code }) := rfl
@[simp] theorem State.postEvent_mem : (s.postEvent code).mem = s.mem := rfl
@[simp] theorem State.postEvent_ioWrites : (s.postEvent code).ioWrites = s.ioWrites := rfl
@[simp] theorem State.postEvent_vers : (s.postEvent code).vers = s.vers := rfl
@[simp] theorem State.postEvent_classes : (s.postEvent code).classes = s.classes := rfl
@[simp] theorem State.postEvent_lines : (s.postEvent code).lines = s.lines := rfl
@[simp] theorem State.postEvent_writes : (s.postEvent code).writes = s.writes := rfl
@[simp] theorem State.postEvent_tlb : (s.postEvent code).tlb = s.tlb := rfl
@[simp] theorem State.postEvent_ptPend : (s.postEvent code).ptPend = s.ptPend := rfl
@[simp] theorem State.postEvent_bad : (s.postEvent code).bad = s.bad := rfl
@[simp] theorem State.postEvent_filters : (s.postEvent code).filters = s.filters := rfl
@[simp] theorem State.postEvent_nextFault : (s.postEvent code).nextFault = s.nextFault := rfl
@[simp] theorem State.postEvent_faultRings : (s.postEvent code).faultRings = s.faultRings := rfl
@[simp] theorem State.postEvent_copies : (s.postEvent code).copies = s.copies := rfl
@[simp] theorem State.postEvent_walks : (s.postEvent code).walks = s.walks := rfl
@[simp] theorem State.postEvent_passes : (s.postEvent code).passes = s.passes := rfl
@[simp] theorem State.postEvent_hub : (s.postEvent code).hub = s.hub := rfl
@[simp] theorem State.postEvent_admitTick : (s.postEvent code).admitTick = s.admitTick := rfl
@[simp] theorem State.postEvent_admitCount : (s.postEvent code).admitCount = s.admitCount := rfl
@[simp] theorem State.postEvent_mail : (s.postEvent code).mail = s.mail := rfl
@[simp] theorem State.postEvent_cores : (s.postEvent code).cores = s.cores := rfl
@[simp] theorem State.postEvent_views : (s.postEvent code).views = s.views := rfl
@[simp] theorem State.postEvent_parts : (s.postEvent code).parts = s.parts := rfl
@[simp] theorem State.postEvent_used : (s.postEvent code).used = s.used := rfl
@[simp] theorem State.postEvent_moved : (s.postEvent code).moved = s.moved := rfl
@[simp] theorem State.postEvent_power : (s.postEvent code).power = s.power := rfl
@[simp] theorem State.postEvent_fw : (s.postEvent code).fw = s.fw := rfl
@[simp] theorem State.postEvent_board : (s.postEvent code).board = s.board := rfl
@[simp] theorem State.postEvent_snap : (s.postEvent code).snap = s.snap := rfl
@[simp] theorem State.postEvent_pins : (s.postEvent code).pins = s.pins := rfl
@[simp] theorem State.postEvent_rejected : (s.postEvent code).rejected = s.rejected := rfl
@[simp] theorem State.postEvent_sent : (s.postEvent code).sent = s.sent := rfl

end

/-! `State.cpWrite` writes its bytes and their versions; where a core owned the page, what it holds of the page goes to memory first. -/

/-- Two machines differ at most in what landing a write may change. -/
def State.landsTo (s t : State) : Prop :=
  t = { s with
    mem := t.mem, vers := t.vers, classes := t.classes, lines := t.lines, writes := t.writes, ptPend := t.ptPend, bad := t.bad
    fresh := t.fresh, reports := t.reports, posts := t.posts, spokes := t.spokes, hub := t.hub, freeCtr := t.freeCtr }

theorem State.landsTo_refl (s : State) : s.landsTo s := rfl

theorem State.landsTo_trans {a b c : State} (h : a.landsTo b) (k : b.landsTo c) : a.landsTo c := by
  unfold State.landsTo at *
  rw [k, h]

theorem State.landsTo_foldl {α : Type} (f : State → α → State) (h : ∀ (s : State) x, s.landsTo (f s x)) (l : List α) (s : State) :
    s.landsTo (l.foldl f s) := by
  induction l generalizing s with
  | nil => exact s.landsTo_refl
  | cons x t ih => exact State.landsTo_trans (h s x) (ih (f s x))

theorem State.landsTo_writeBack (s : State) (x : Write) : s.landsTo (s.writeBack x).1 := by
  unfold State.writeBack
  split
  · simp only [State.freeBytes, State.reportBad, State.report, State.postEvent, State.count]
    split <;> rfl
  · rfl

theorem State.landsTo_homeWrite (s : State) (w o pa : Nat) (b : List Byte) : s.landsTo (s.homeWrite w o pa b) := by
  unfold State.homeWrite
  refine State.landsTo_trans (b := _) ?_ (State.landsTo_foldl _ (fun t e => ?_) _ _)
  · rfl
  · dsimp only
    split <;> rfl

theorem State.landsTo_land (s : State) (x : Write) : s.landsTo (s.land x) := by
  unfold State.land
  exact State.landsTo_trans (s.landsTo_writeBack x) (State.landsTo_trans (b := _) (by rfl) (State.landsTo_homeWrite _ _ _ _ _))

theorem State.landsTo_share (s : State) (pa : Nat) : s.landsTo (s.share pa) := by
  have all (sel : Write → Bool) (t : State) : t.landsTo (t.landAll sel) := by
    unfold State.landAll
    exact State.landsTo_trans (State.landsTo_foldl _ (fun s x => s.landsTo_land x) _ _)
      (State.landsTo_foldl _ (fun s x => s.landsTo_land x) _ _)
  have page (n : Nat) (t : State) : t.landsTo (t.recallPage n) := by
    unfold State.recallPage
    exact State.landsTo_trans (all _ t) (by rfl)
  unfold State.share
  split
  · rfl
  · exact State.landsTo_trans (page _ s) (by rfl)
  · rfl

theorem State.landsTo_cpWrite (s : State) (pa : Nat) (data : List Byte) : s.landsTo (s.cpWrite pa data) := by
  unfold State.cpWrite
  exact State.landsTo_trans (s.landsTo_share pa) (by rfl)

section
variable (s : State) (pa : Nat) (data : List Byte)

@[simp] theorem State.cpWrite_variant : (s.cpWrite pa data).variant = s.variant := by rw [s.landsTo_cpWrite pa data]
@[simp] theorem State.cpWrite_tick : (s.cpWrite pa data).tick = s.tick := by rw [s.landsTo_cpWrite pa data]
@[simp] theorem State.cpWrite_schedule : (s.cpWrite pa data).schedule = s.schedule := by rw [s.landsTo_cpWrite pa data]
@[simp] theorem State.cpWrite_choices : (s.cpWrite pa data).choices = s.choices := by rw [s.landsTo_cpWrite pa data]
@[simp] theorem State.cpWrite_cur : (s.cpWrite pa data).cur = s.cur := by rw [s.landsTo_cpWrite pa data]
@[simp] theorem State.cpWrite_stall : (s.cpWrite pa data).stall = s.stall := by rw [s.landsTo_cpWrite pa data]
@[simp] theorem State.cpWrite_waves : (s.cpWrite pa data).waves = s.waves := by rw [s.landsTo_cpWrite pa data]
@[simp] theorem State.cpWrite_wgs : (s.cpWrite pa data).wgs = s.wgs := by rw [s.landsTo_cpWrite pa data]
@[simp] theorem State.cpWrite_gangs : (s.cpWrite pa data).gangs = s.gangs := by rw [s.landsTo_cpWrite pa data]
@[simp] theorem State.cpWrite_batches : (s.cpWrite pa data).batches = s.batches := by rw [s.landsTo_cpWrite pa data]
@[simp] theorem State.cpWrite_nodes : (s.cpWrite pa data).nodes = s.nodes := by rw [s.landsTo_cpWrite pa data]
@[simp] theorem State.cpWrite_nodeStarts : (s.cpWrite pa data).nodeStarts = s.nodeStarts := by rw [s.landsTo_cpWrite pa data]
@[simp] theorem State.cpWrite_succs : (s.cpWrite pa data).succs = s.succs := by rw [s.landsTo_cpWrite pa data]
@[simp] theorem State.cpWrite_ctxs : (s.cpWrite pa data).ctxs = s.ctxs := by rw [s.landsTo_cpWrite pa data]
@[simp] theorem State.cpWrite_regions : (s.cpWrite pa data).regions = s.regions := by rw [s.landsTo_cpWrite pa data]
@[simp] theorem State.cpWrite_clusters : (s.cpWrite pa data).clusters = s.clusters := by rw [s.landsTo_cpWrite pa data]
@[simp] theorem State.cpWrite_rings : (s.cpWrite pa data).rings = s.rings := by rw [s.landsTo_cpWrite pa data]
@[simp] theorem State.cpWrite_ioWrites : (s.cpWrite pa data).ioWrites = s.ioWrites := by rw [s.landsTo_cpWrite pa data]
@[simp] theorem State.cpWrite_tlb : (s.cpWrite pa data).tlb = s.tlb := by rw [s.landsTo_cpWrite pa data]
@[simp] theorem State.cpWrite_filters : (s.cpWrite pa data).filters = s.filters := by rw [s.landsTo_cpWrite pa data]
@[simp] theorem State.cpWrite_nextFault : (s.cpWrite pa data).nextFault = s.nextFault := by rw [s.landsTo_cpWrite pa data]
@[simp] theorem State.cpWrite_faultRings : (s.cpWrite pa data).faultRings = s.faultRings := by rw [s.landsTo_cpWrite pa data]
@[simp] theorem State.cpWrite_copies : (s.cpWrite pa data).copies = s.copies := by rw [s.landsTo_cpWrite pa data]
@[simp] theorem State.cpWrite_walks : (s.cpWrite pa data).walks = s.walks := by rw [s.landsTo_cpWrite pa data]
@[simp] theorem State.cpWrite_passes : (s.cpWrite pa data).passes = s.passes := by rw [s.landsTo_cpWrite pa data]
@[simp] theorem State.cpWrite_admitTick : (s.cpWrite pa data).admitTick = s.admitTick := by rw [s.landsTo_cpWrite pa data]
@[simp] theorem State.cpWrite_admitCount : (s.cpWrite pa data).admitCount = s.admitCount := by rw [s.landsTo_cpWrite pa data]
@[simp] theorem State.cpWrite_mail : (s.cpWrite pa data).mail = s.mail := by rw [s.landsTo_cpWrite pa data]
@[simp] theorem State.cpWrite_cores : (s.cpWrite pa data).cores = s.cores := by rw [s.landsTo_cpWrite pa data]
@[simp] theorem State.cpWrite_views : (s.cpWrite pa data).views = s.views := by rw [s.landsTo_cpWrite pa data]
@[simp] theorem State.cpWrite_parts : (s.cpWrite pa data).parts = s.parts := by rw [s.landsTo_cpWrite pa data]
@[simp] theorem State.cpWrite_used : (s.cpWrite pa data).used = s.used := by rw [s.landsTo_cpWrite pa data]
@[simp] theorem State.cpWrite_moved : (s.cpWrite pa data).moved = s.moved := by rw [s.landsTo_cpWrite pa data]
@[simp] theorem State.cpWrite_power : (s.cpWrite pa data).power = s.power := by rw [s.landsTo_cpWrite pa data]
@[simp] theorem State.cpWrite_fw : (s.cpWrite pa data).fw = s.fw := by rw [s.landsTo_cpWrite pa data]
@[simp] theorem State.cpWrite_board : (s.cpWrite pa data).board = s.board := by rw [s.landsTo_cpWrite pa data]
@[simp] theorem State.cpWrite_snap : (s.cpWrite pa data).snap = s.snap := by rw [s.landsTo_cpWrite pa data]
@[simp] theorem State.cpWrite_pins : (s.cpWrite pa data).pins = s.pins := by rw [s.landsTo_cpWrite pa data]
@[simp] theorem State.cpWrite_rejected : (s.cpWrite pa data).rejected = s.rejected := by rw [s.landsTo_cpWrite pa data]
@[simp] theorem State.cpWrite_sent : (s.cpWrite pa data).sent = s.sent := by rw [s.landsTo_cpWrite pa data]
@[simp] theorem State.cpWrite_mem : (s.cpWrite pa data).mem = putBytes (s.share pa).mem pa data := rfl
@[simp] theorem State.cpWrite_vers : (s.cpWrite pa data).vers = bumpVersions (s.share pa).vers (sectors pa data.length) := rfl

end

end Sys2Proof.Machine
end

