-- ==== Sys2Proof/Laws/Table.lean ====
section
/-! SUPPORT. The laws of sparse tables: reading after writing, for every list, and that writing keeps the canonical form. -/

namespace Sys2Proof.Machine

theorem Map.get_above {α : Type} (d : α) (n m : Nat) (t : Map α) :
    Map.get d (Map.above n t) m = if n < m then Map.get d t m else d := by
  induction t with
  | nil => simp [Map.above, Map.get]
  | cons e t ih =>
    obtain ⟨k, v⟩ := e
    by_cases hk : k ≤ n
    · simp only [Map.above, hk, if_true, ih, Map.get]
      by_cases hm : n < m
      · have h1 : m ≠ k := by omega
        have h2 : ¬ m < k := by omega
        simp [hm, h1, h2]
      · simp [hm]
    · simp only [Map.above, hk, if_false, Map.get]
      by_cases hm : n < m
      · simp [hm]
      · have h1 : m ≠ k := by omega
        have h2 : m < k := by omega
        simp [hm, h1, h2]

/-- Reading a table after a write: the value written at that key, the old value at every other. -/
theorem Map.get_put {α : Type} [DecidableEq α] (d : α) (t : Map α) (n m : Nat) (x : α) :
    Map.get d (Map.put d t n x) m = if m = n then x else Map.get d t m := by
  induction t with
  | nil =>
    by_cases hx : x = d
    · simp [Map.put, hx, Map.get]
    · simp only [Map.put, hx, if_false, Map.get]
      by_cases hm : m = n
      · simp [hm]
      · simp only [hm, if_false]; split <;> rfl
  | cons e t ih =>
    obtain ⟨k, v⟩ := e
    simp only [Map.put]
    by_cases h1 : n < k
    · simp only [h1, if_true]
      by_cases hx : x = d
      · simp only [hx, if_true, Map.get]
        by_cases hm : m = n
        · subst hm
          have h3 : m ≠ k := by omega
          simp [h3, h1]
        · simp [hm]
      · simp only [hx, if_false, Map.get]
        by_cases hm : m = n
        · simp [hm]
        · simp only [hm, if_false]
          by_cases h2 : m < n
          · have h3 : m ≠ k := by omega
            have h4 : m < k := by omega
            simp [h2, h3, h4]
          · simp [h2]
    · simp only [h1, if_false]
      by_cases h2 : n = k
      · subst h2
        simp only [if_true]
        by_cases hx : x = d
        · simp only [hx, if_true, Map.get_above, Map.get]
          by_cases hm : m = n
          · simp [hm]
          · by_cases h3 : m < n
            · have : ¬ n < m := by omega
              simp [hm, h3, this]
            · have : n < m := by omega
              simp [hm, h3, this]
        · simp only [hx, if_false, Map.get]
          by_cases hm : m = n <;> simp [hm]
      · simp only [h2, if_false, Map.get, ih]
        by_cases hm : m = n
        · have h3 : m ≠ k := by omega
          have h4 : ¬ m < k := by omega
          subst hm
          simp [h3, h4]
        · simp [hm]

theorem Map.wfFrom_above {α : Type} [DecidableEq α] (d : α) (n : Nat) (t : Map α) (lo : Option Nat)
    (h : Map.wfFrom d lo t = true) : Map.wfFrom d lo (Map.above n t) = true := by
  induction t generalizing lo with
  | nil => simp [Map.above, Map.wfFrom]
  | cons e t ih =>
    obtain ⟨k, v⟩ := e
    simp only [Map.above]
    split
    · apply ih
      simp only [Map.wfFrom, Bool.and_eq_true] at h
      cases t with
      | nil => rfl
      | cons e2 t2 =>
        obtain ⟨k2, v2⟩ := e2
        have h2 := h.2
        simp only [Map.wfFrom, Bool.and_eq_true, decide_eq_true_eq] at h2 ⊢
        refine ⟨⟨?_, h2.1.2⟩, h2.2⟩
        cases lo with
        | none => rfl
        | some l =>
          have h3 := h.1.1
          simp only [decide_eq_true_eq] at h3 ⊢
          omega
    · exact h

/-- A write above the lower bound keeps the canonical form. -/
theorem Map.wfFrom_put {α : Type} [DecidableEq α] (d : α) (t : Map α) (n : Nat) (x : α) (lo : Option Nat)
    (h : Map.wfFrom d lo t = true) (hn : ∀ l, lo = some l → l < n) : Map.wfFrom d lo (Map.put d t n x) = true := by
  induction t generalizing lo with
  | nil =>
    simp only [Map.put]
    split
    · rfl
    · rename_i hx
      cases lo with
      | none => simp [Map.wfFrom, hx]
      | some l => simp [Map.wfFrom, hx, hn l rfl]
  | cons e t ih =>
    obtain ⟨k, v⟩ := e
    simp only [Map.put]
    have h0 := h
    simp only [Map.wfFrom, Bool.and_eq_true] at h0
    split
    · rename_i h1
      split
      · exact h
      · rename_i hx
        simp only [Map.wfFrom, Bool.and_eq_true, decide_eq_true_eq]
        refine ⟨⟨?_, hx⟩, ⟨h1, by simpa using h0.1.2⟩, h0.2⟩
        cases lo with
        | none => rfl
        | some l => simpa using hn l rfl
    · rename_i h1
      split
      · rename_i h2
        subst h2
        split
        · have := Map.wfFrom_above d n t (some n) h0.2
          cases hu : Map.above n t with
          | nil => rfl
          | cons e2 t2 =>
            obtain ⟨k2, v2⟩ := e2
            rw [hu] at this
            simp only [Map.wfFrom, Bool.and_eq_true, decide_eq_true_eq] at this ⊢
            refine ⟨⟨?_, this.1.2⟩, this.2⟩
            cases lo with
            | none => rfl
            | some l =>
              have := hn l rfl
              simp only [decide_eq_true_eq]; omega
        · rename_i hx
          simp only [Map.wfFrom, Bool.and_eq_true, decide_eq_true_eq]
          exact ⟨⟨h0.1.1, hx⟩, h0.2⟩
      · rename_i h2
        simp only [Map.wfFrom, Bool.and_eq_true]
        refine ⟨h0.1, ih (some k) h0.2 ?_⟩
        intro l hl
        cases hl
        omega

/-- A write keeps the canonical form. -/
theorem Map.wf_put {α : Type} [DecidableEq α] (d : α) (t : Map α) (n : Nat) (x : α) (h : Map.wf d t = true) :
    Map.wf d (Map.put d t n x) = true :=
  Map.wfFrom_put d t n x none h (by simp)

/-- A canonical table reads as the unlisted value at and below its lower bound. -/
theorem Map.get_low {α : Type} [DecidableEq α] (d : α) (t : Map α) (l n : Nat) (h : Map.wfFrom d (some l) t = true) (hn : n ≤ l) :
    Map.get d t n = d := by
  cases t with
  | nil => rfl
  | cons e t =>
    obtain ⟨k, v⟩ := e
    simp only [Map.wfFrom, Bool.and_eq_true, decide_eq_true_eq] at h
    have h1 : n ≠ k := by omega
    have h2 : n < k := by omega
    simp [Map.get, h1, h2]

theorem Map.ext_from {α : Type} [DecidableEq α] (d : α) (t u : Map α) (lo : Option Nat) (ht : Map.wfFrom d lo t = true)
    (hu : Map.wfFrom d lo u = true) (h : ∀ n, Map.get d t n = Map.get d u n) : t = u := by
  induction t generalizing u lo with
  | nil =>
    cases u with
    | nil => rfl
    | cons e u =>
      obtain ⟨k, v⟩ := e
      simp only [Map.wfFrom, Bool.and_eq_true, decide_eq_true_eq] at hu
      have := h k
      simp only [Map.get, if_true] at this
      exact absurd this.symm hu.1.2
  | cons e t ih =>
    obtain ⟨k, v⟩ := e
    have ht2 := ht
    simp only [Map.wfFrom, Bool.and_eq_true, decide_eq_true_eq] at ht2
    cases u with
    | nil =>
      have := h k
      simp only [Map.get, if_true] at this
      exact absurd this ht2.1.2
    | cons e u =>
      obtain ⟨m, w⟩ := e
      have hu2 := hu
      simp only [Map.wfFrom, Bool.and_eq_true, decide_eq_true_eq] at hu2
      have hk : k = m := by
        by_contra hne
        rcases Nat.lt_or_gt_of_ne hne with hl | hl
        · have := h k
          simp only [Map.get, if_true, hne, if_false, hl] at this
          exact ht2.1.2 this
        · have := h m
          have e1 : ¬ m = k := fun e => hne e.symm
          simp only [Map.get, if_true, e1, if_false, hl] at this
          exact hu2.1.2 this.symm
      subst hk
      have hv : v = w := by
        have := h k
        simpa only [Map.get, if_true] using this
      subst hv
      rw [ih u (some k) ht2.2 hu2.2]
      intro n
      by_cases hn : n ≤ k
      · rw [Map.get_low d t k n ht2.2 hn, Map.get_low d u k n hu2.2 hn]
      · have := h n
        have h1 : n ≠ k := by omega
        have h2 : ¬ n < k := by omega
        simpa only [Map.get, h1, if_false, h2] using this

/-- TABLES THAT READ ALIKE ARE ALIKE, where both have the canonical form. -/
theorem Map.ext_wf {α : Type} [DecidableEq α] (d : α) (t u : Map α) (ht : Map.wf d t = true) (hu : Map.wf d u = true)
    (h : ∀ n, Map.get d t n = Map.get d u n) : t = u := Map.ext_from d t u none ht hu h

end Sys2Proof.Machine
end

