-- ==== Sys2Proof/Laws/Memory.lean ====
section
/-! SUPPORT. Device memory: every operation on it keeps its canonical form, and what reading a byte gives after a write. -/

namespace Sys2Proof.Machine

/-- Writing bytes keeps the canonical form. -/
theorem Memory.wf_putBytes (bs : List Byte) (m : Map Byte) (a : Nat) (h : Memory.wf m = true) : Memory.wf (putBytes m a bs) = true := by
  induction bs generalizing m a with
  | nil => exact h
  | cons b t ih => exact ih _ _ (Map.wf_put _ _ _ _ h)

theorem Memory.wf_setBytes (s : State) (a : Nat) (bs : List Byte) (h : Memory.wf s.mem = true) :
    Memory.wf (s.setBytes a bs).mem = true := Memory.wf_putBytes bs s.mem a h

theorem Memory.wf_setNum (s : State) (a n x : Nat) (h : Memory.wf s.mem = true) : Memory.wf (s.setNum a n x).mem = true :=
  Memory.wf_putBytes _ s.mem a h

theorem Memory.wf_homeWrite (s : State) (wave op pa : Nat) (bs : List Byte) (h : Memory.wf s.mem = true) :
    Memory.wf (s.homeWrite wave op pa bs).mem = true := by
  have go : ∀ (l : List Nat) (t : State), Memory.wf t.mem = true → Memory.wf (l.foldl (fun t e =>
      let r := t.derived e
      if r.isEmpty then t
      else { t with ptPend := t.ptPend ++ [{ num := t.fresh, pte := e, ranges := r, wave := wave, op := op }], fresh := t.fresh + 1 })
      t).mem = true := by
    intro l
    induction l with
    | nil => exact fun _ h => h
    | cons e l ih =>
      intro t ht
      refine ih _ ?_
      dsimp only
      split <;> exact ht
  exact go _ _ (Memory.wf_putBytes bs s.mem pa h)

theorem Memory.writeBack_mem (s : State) (x : Write) : (s.writeBack x).1.mem = s.mem := by
  unfold State.writeBack
  split
  · simp only [State.freeBytes, State.reportBad, State.report, State.postEvent, State.count]
    split <;> rfl
  · rfl

theorem Memory.wf_land (s : State) (x : Write) (h : Memory.wf s.mem = true) : Memory.wf (s.land x).mem = true := by
  refine Memory.wf_homeWrite _ _ _ _ _ ?_
  change Memory.wf (s.writeBack x).1.mem = true
  rw [Memory.writeBack_mem]
  exact h

theorem Memory.wf_landAll (s : State) (sel : Write → Bool) (h : Memory.wf s.mem = true) : Memory.wf (s.landAll sel).mem = true := by
  have go : ∀ (l : List Write) (t : State), Memory.wf t.mem = true → Memory.wf (l.foldl State.land t).mem = true := by
    intro l
    induction l with
    | nil => exact fun _ h => h
    | cons x l ih => exact fun t ht => ih _ (Memory.wf_land t x ht)
  exact go _ _ (go _ _ h)

theorem Memory.wf_share (s : State) (pa : Nat) (h : Memory.wf s.mem = true) : Memory.wf (s.share pa).mem = true := by
  rw [State.share]
  split
  · exact h
  · exact Memory.wf_landAll s _ h
  · exact h

theorem Memory.wf_cpWrite (s : State) (a : Nat) (bs : List Byte) (h : Memory.wf s.mem = true) :
    Memory.wf (s.cpWrite a bs).mem = true := Memory.wf_putBytes bs _ a (Memory.wf_share s a h)

/-- The memory that reset leaves has the canonical form. -/
theorem Memory.wf_reset : Memory.wf State.reset.mem = true := rfl

/-- Reading a byte after bytes are written: theirs inside the range, the old byte outside. -/
theorem get_putBytes (bs : List Byte) (m : Map Byte) (a x : Nat) :
    Map.get memUnlisted (putBytes m a bs) x = if a ≤ x ∧ x < a + bs.length then bs.getD (x - a) 0 else Map.get memUnlisted m x := by
  induction bs generalizing m a with
  | nil =>
    have : ¬ (a ≤ x ∧ x < a + ([] : List Byte).length) := by simp only [List.length_nil]; omega
    simp only [this, if_false, putBytes]
  | cons b t ih =>
    rw [putBytes, ih, Map.get_put]
    simp only [List.length_cons]
    by_cases h1 : a + 1 ≤ x ∧ x < a + 1 + t.length
    · have h2 : a ≤ x ∧ x < a + (t.length + 1) := by omega
      have h3 : x - a = (x - (a + 1)) + 1 := by omega
      simp [h1, h2, h3]
    · by_cases h2 : x = a
      · subst h2; simp
      · have h3 : ¬ (a ≤ x ∧ x < a + (t.length + 1)) := by omega
        simp only [h1, h2, h3, if_false]

theorem byteAt_setBytes (s : State) (a x : Nat) (bs : List Byte) :
    (s.setBytes a bs).byteAt x = if a ≤ x ∧ x < a + bs.length then bs.getD (x - a) 0 else s.byteAt x := get_putBytes bs s.mem a x

theorem byteAt_cpWrite (s : State) (a x : Nat) (bs : List Byte) :
    (s.cpWrite a bs).byteAt x = if a ≤ x ∧ x < a + bs.length then bs.getD (x - a) 0 else (s.share a).byteAt x :=
  get_putBytes bs _ a x

/-- TWO MEMORIES THAT READ ALIKE ARE ALIKE, where both have the canonical form. -/
theorem Memory.ext {s t : State} (hs : Memory.wf s.mem = true) (ht : Memory.wf t.mem = true) (h : ∀ a, s.byteAt a = t.byteAt a) :
    s.mem = t.mem := Map.ext_wf memUnlisted s.mem t.mem hs ht h

theorem byteAt_congr {s t : State} (h : s.mem = t.mem) (a : Nat) : s.byteAt a = t.byteAt a := by
  unfold State.byteAt; rw [h]

end Sys2Proof.Machine
end

