-- ==== Sys2Proof/Laws/Register.lean ====
section
/-! SUPPORT. What the issue of a word of each kind answers when the word may issue, and what the register writes of a result do. -/

namespace Sys2Proof.Machine

/-- A WORD THAT MAY ISSUE passes the gate. -/
theorem Ready.go {s : State} {i : Issue} {mem : Bool} {regs held : List RegId} (h : Ready s i mem regs held) :
    s.gate i.w mem regs = .go := by
  have hc : s.copies.any (fun c => c.wave == i.w.uid && c.dead) = false := by
    rw [List.any_eq_false]
    intro c hc
    by_cases hw : c.wave = i.w.uid
    · simp [h.copies c hc hw]
    · simp [hw]
  have hk : s.walks.any (fun c => c.wave == i.w.uid && c.dead) = false := by
    rw [List.any_eq_false]
    intro c hc
    by_cases hw : c.wave = i.w.uid
    · simp [h.walks c hc hw]
    · simp [hw]
  have hm : i.w.marked regs = false := by
    unfold Wave.marked
    rw [List.any_eq_false]
    intro m hm
    simp only [List.any_eq_true, not_exists, not_and, List.contains_iff_mem]
    exact fun r hr => h.marks m hm r hr
  have ht : i.w.tokenBlocked regs = false := by
    unfold Wave.tokenBlocked
    rw [List.any_eq_false]
    intro r hr
    cases r with
    | v n => simp [h.tokens n hr]
    | s _ | p _ | fpstat | seed => simp
  have ha : (i.w.behind && (mem || decide (64 ≤ i.w.beyond))) = false := by
    cases hb : i.w.behind with
    | false => rfl
    | true =>
      have := h.ahead hb
      have : ¬ 64 ≤ i.w.beyond := by omega
      simp [*]
  have hf : (mem && i.w.fencing) = false := by
    cases hb : mem with
    | false => rfl
    | true => simp [h.fences hb]
  unfold State.gate State.gateAny
  simp [h.unhitched, h.onCore, hc, hk, hm, ht, ha, hf]

/-- Registers without an uncorrectable error are read as they are (R391). -/
theorem RegFile.spoilt_none {rf : RegFile} (h : rf.bad = []) (l : List RegId) (q : LaneMask) : rf.spoilt l q = false := by
  simp [RegFile.spoilt, h]

theorem Ready.whole {s : State} {i : Issue} {mem : Bool} {regs held : List RegId} (h : Ready s i mem regs held) (l : List RegId)
    (q : LaneMask) : i.w.rf.spoilt l q = false := RegFile.spoilt_none h.sound l q

theorem Ready.free {s : State} {i : Issue} {mem : Bool} {regs held : List RegId} (h : Ready s i mem regs held) :
    i.w.readMarked held = false := by
  unfold Wave.readMarked
  rw [List.any_eq_false]
  intro m hm
  simp only [List.any_eq_true, not_exists, not_and, List.contains_iff_mem]
  exact fun r hr => h.reads m hm r hr

theorem Wave.still_bind (w : Wave) (op : Nat) (f : Option Nat) : (w.bind op f).still = w.still := by
  cases f <;> rfl

/-- A word moves past: the wave with the registers, marks and flags it is given. -/
theorem retire_issued {s s1 : State} {i : Issue} (w : Wave) (hi : s.issue? = some i) (hs : s1.waves = s.waves)
    (hc : s1.clusters = s.clusters) (hst : s1.still = s.still) (hu : w.uid = i.w.uid) (hw : w.still = i.w.still)
    (hq : i.w.trap.pend = none → i.w.dbgWant = false → w.trap = i.w.trap ∧ w.dbgWant = false ∧ w.paths = i.w.paths) :
    ∃ w', Issued s (s1.retire i w) i w' ∧ Advanced i w' ∧ w'.rf = w.rf ∧ w'.marks = w.marks ∧ w'.bound = w.bound := by
  have h0 : s1.wave? w.uid = some i.w := by
    rw [hu]
    have := issue?_wave s i hi
    unfold State.wave? at *
    rw [hs]; exact this
  obtain ⟨w', a, b, c, d, e, f, g1, g2, _, k⟩ := replace_spec s1 i w i.w [i.p.advance i.c] h0
  have hst2 : (s1.retire i w).still = s.still := c.trans hst
  refine ⟨w', ⟨by rw [← hu]; exact a, fun v hv => ?_, (still_iff _ _).1 hst2, fun x => ?_, fun n => ?_, (Wave.still_iff _ _).1 (e.trans hw)⟩, fun ⟨hp, hd, hsp⟩ => ?_, f, g1, g2⟩
  · have := b v (by omega)
    unfold State.wave? at *
    rw [hs] at this
    exact this
  · have : (s1.retire i w).still.mem = s.still.mem := by rw [hst2]
    have : (s1.retire i w).mem = s.mem := this
    unfold State.byteAt
    rw [this]
  · have := d n
    unfold State.cluster at *
    rw [hc] at this
    exact this
  · obtain ⟨h1, h2, h3⟩ := hq hp hd
    have := k (by rw [h1]; exact hp) h2 hsp
    rw [h1, h3] at this
    exact this

/-- A REGISTER WORD THAT MAY ISSUE, and whose flags meet no enabled trap, answers the next state with its results. -/
theorem regIssue_ready {g : Guard} {reads writes : List RegId} {long : Bool} {f : RegIn → RegFile × BitVec 6} {s : State}
    {i : Issue} (h : Ready s i false (g.regs ++ reads ++ writes) writes)
    (ht : trapHit (s.descOf i.w).trapEn (f { rf := i.w.rf, lit := i.c.head.lit, act := i.p.lanes, q := i.lanes g }).2 = false) :
    ∃ t w', regIssue g reads writes long f s = .next t ∧ Issued s t i w' ∧ Advanced i w'
      ∧ w'.rf = (f { rf := i.w.rf, lit := i.c.head.lit, act := i.p.lanes, q := i.lanes g }).1.orFlags
          (f { rf := i.w.rf, lit := i.c.head.lit, act := i.p.lanes, q := i.lanes g }).2 := by
  have hg := h.go
  have hf := h.free
  have hs := fun l q => h.whole l q
  unfold Issue.lanes at *
  simp only [regIssue, h.here, hg, hf, hs, Bool.false_eq_true, if_false, ht]
  refine (?_ : ∃ t w', _)
  cases long with
  | false =>
    obtain ⟨w', a, a2, b, _, _⟩ := retire_issued (s := s) (s1 := { s with fresh := s.fresh + 1 }) (i := i)
      (hi := h.here) (hs := rfl) (hc := rfl) (hst := rfl) (hu := rfl) (hw := rfl) (hq := fun _ h => ⟨rfl, h, rfl⟩)
      (w := { i.w with
          rf := (f { rf := i.w.rf, lit := i.c.head.lit, act := i.p.lanes, q := qualify i.w.rf g i.p.lanes }).1.orFlags
            (f { rf := i.w.rf, lit := i.c.head.lit, act := i.p.lanes, q := qualify i.w.rf g i.p.lanes }).2
          marks := if writes.isEmpty && !false then i.w.marks else i.w.marks ++ [⟨s.fresh, writes⟩]
          beyond := if i.w.behind then i.w.beyond + 1 else i.w.beyond })
    exact ⟨_, w', rfl, a, a2, b⟩
  | true =>
    obtain ⟨w', a, a2, b, _, _⟩ := retire_issued (s := s) (s1 := { s with fresh := s.fresh + 1 }) (i := i)
      (w := Wave.bind { i.w with
          rf := (f { rf := i.w.rf, lit := i.c.head.lit, act := i.p.lanes, q := qualify i.w.rf g i.p.lanes }).1.orFlags
            (f { rf := i.w.rf, lit := i.c.head.lit, act := i.p.lanes, q := qualify i.w.rf g i.p.lanes }).2
          marks := if writes.isEmpty && !true then i.w.marks else i.w.marks ++ [⟨s.fresh, writes⟩]
          beyond := if i.w.behind then i.w.beyond + 1 else i.w.beyond } s.fresh i.flag)
      h.here rfl rfl rfl (by cases i.flag <;> rfl) (by rw [Wave.still_bind]; rfl)
      (fun _ h => by cases i.flag <;> exact ⟨rfl, h, rfl⟩)
    refine ⟨_, w', rfl, a, a2, ?_⟩
    rw [b]
    cases i.flag <;> rfl

end Sys2Proof.Machine
end

