-- ==== Sys2Proof/Laws/Opened.lean ====
section
/-! SUPPORT. The issue of a word that reaches beyond registers: what the shared forms answer when the word may issue, and what the
machine is after the operation is recorded and the path has moved. -/

namespace Sys2Proof.Machine

/-- No mark of a wave names one of some registers. -/
theorem Wave.unmarked {w : Wave} {regs : List RegId} (h : ∀ m ∈ w.marks, ∀ r ∈ m.regs, r ∉ regs) : w.marked regs = false := by
  unfold Wave.marked
  rw [List.any_eq_false]
  intro m hm
  simp only [List.any_eq_true, not_exists, not_and, List.contains_iff_mem]
  exact fun r hr => h m hm r hr

/-- A WORD THAT MAY RUN passes the gate that does not ask about a tenure. -/
theorem MayRun.go {s : State} {i : Issue} {mem : Bool} {regs held : List RegId} (h : MayRun s i mem regs held) :
    s.gateAny i.w mem regs = .go := by
  have hc : s.copies.any (fun c => c.wave == i.w.uid && c.dead) = false := by
    rw [List.any_eq_false]
    intro c hc
    by_cases hw : c.wave = i.w.uid
    · simp [h.copies c hc hw]
    · simp [hw]
  have hk : s.walks.any (fun c => c.wave == i.w.uid && c.dead) = false := by
    rw [List.any_eq_false]
    intro c hc
    by_cases hw : c.wave = i.w.uid
    · simp [h.walks c hc hw]
    · simp [hw]
  have hm := Wave.unmarked h.marks
  have ht : i.w.tokenBlocked regs = false := by
    unfold Wave.tokenBlocked
    rw [List.any_eq_false]
    intro r hr
    cases r with
    | v n => simp [h.tokens n hr]
    | s _ | p _ | fpstat | seed => simp
  have ha : (i.w.behind && (mem || decide (64 ≤ i.w.beyond))) = false := by
    cases hb : i.w.behind with
    | false => rfl
    | true =>
      have := h.ahead hb
      have : ¬ 64 ≤ i.w.beyond := by omega
      simp [*]
  have hf : (mem && i.w.fencing) = false := by
    cases hb : mem with
    | false => rfl
    | true => simp [h.fences hb]
  unfold State.gateAny
  simp [h.onCore, hc, hk, hm, ht, ha, hf]

theorem MayRun.whole {s : State} {i : Issue} {mem : Bool} {regs held : List RegId} (h : MayRun s i mem regs held) (l : List RegId)
    (q : LaneMask) : i.w.rf.spoilt l q = false := RegFile.spoilt_none h.sound l q

theorem MayRun.free {s : State} {i : Issue} {mem : Bool} {regs held : List RegId} (h : MayRun s i mem regs held) :
    i.w.readMarked held = false := by
  unfold Wave.readMarked
  rw [List.any_eq_false]
  intro m hm
  simp only [List.any_eq_true, not_exists, not_and, List.contains_iff_mem]
  exact fun r hr => h.reads m hm r hr

/-- A memory word that may issue, with a qualifying lane, is its own effect. -/
theorem memIssue_ready {g : Guard} {regs dests : List RegId} {f : State → Issue → LaneMask → Option State} {s : State} {i : Issue}
    (h : Ready s i true (g.regs ++ (regs ++ dests)) (regs ++ dests)) (hq : i.lanes g ≠ 0) :
    memIssue g regs dests f s = match f s i (i.lanes g) with | none => .next s | some t => .next t := by
  have hg := h.go
  have hf := h.free
  have hs := fun l q => h.whole l q
  unfold Issue.lanes at *
  simp only [memIssue, h.here, hg, hf, hs, Bool.false_eq_true, if_false, hq] <;> rfl

/-- A memory word of which no lane qualifies moves past (R63). -/
theorem memIssue_none {g : Guard} {regs dests : List RegId} {f : State → Issue → LaneMask → Option State} {s : State} {i : Issue}
    (h : Ready s i true (g.regs ++ (regs ++ dests)) (regs ++ dests)) (hq : i.lanes g = 0) : memIssue g regs dests f s = .next (s.retire i i.w) := by
  have hg := h.go
  have hf := h.free
  have hs := fun l q => h.whole l q
  unfold Issue.lanes at *
  simp only [memIssue, h.here, hg, hf, hs, Bool.false_eq_true, if_false, hq, if_true]

/-- The issue with its count of words beyond the checkpoint (R372). -/
def Issue.counted (i : Issue) : Issue := { i with w := { i.w with beyond := if i.w.behind then i.w.beyond + 1 else i.w.beyond } }

/-- A word that moves paths, with a qualifying lane, is its own effect. -/
theorem pathIssue_ready {g : Guard} {toks reads writes : List RegId} {f : State → Issue → LaneMask → Option State} {s : State} {i : Issue}
    (h : ReadyPath s i g toks reads writes) (hq : i.lanes g ≠ 0) :
    pathIssue g toks reads writes f s = match f s i.counted (i.lanes g) with | none => .next s | some t => .next t := by
  have hg := h.go
  have hf := h.free
  have hm := Wave.unmarked h.plain
  have hs := fun l q => h.whole l q
  unfold Issue.lanes Issue.counted at *
  simp only [pathIssue, h.here, hg, hf, hm, hs, Bool.or_self, Bool.false_eq_true, if_false, hq] <;> rfl

theorem pathIssue_none {g : Guard} {toks reads writes : List RegId} {f : State → Issue → LaneMask → Option State} {s : State} {i : Issue}
    (h : ReadyPath s i g toks reads writes) (hq : i.lanes g = 0) :
    pathIssue g toks reads writes f s = .next (s.retire i.counted i.counted.w) := by
  have hg := h.go
  have hf := h.free
  have hm := Wave.unmarked h.plain
  have hs := fun l q => h.whole l q
  unfold Issue.lanes Issue.counted at *
  simp only [pathIssue, h.here, hg, hf, hm, hs, Bool.or_self, Bool.false_eq_true, if_false, hq, if_true]

/-- A span word that may run is its own effect, whether or not its cluster is hitched. -/
theorem spanIssue_ready {g : Guard} {regs dests held : List RegId} {f : State → Issue → LaneMask → Option State} {s : State} {i : Issue}
    (h : MayRun s i true (g.regs ++ (regs ++ dests)) held) :
    spanIssue g regs dests f s = match f s i (i.lanes g) with | none => .next s | some t => .next t := by
  have hg := h.go
  have hs := fun l q => h.whole l q
  unfold Issue.lanes at *
  simp only [spanIssue, h.here, hg, hs, Bool.false_eq_true, if_false] <;> rfl

/-- THE PATH OF THE ISSUING WORD IS REPLACED, its wave being given as `base`: the machine has opened the operation. -/
theorem replace_opened {s s1 : State} {i : Issue} (base : Wave) (ps : List Path) (hi : s.issue? = some i) (hs : s1.waves = s.waves)
    (hc : s1.clusters = s.clusters) (hst : s1.still = s.still) (hu : base.uid = i.w.uid)
    (hq : i.quiet → base.trap = i.w.trap ∧ base.dbgWant = false ∧ base.paths = i.w.paths) :
    ∃ w', Opened s (s1.replace i base ps) i base ps w' := by
  have h0 : s1.wave? base.uid = some i.w := by
    rw [hu]
    have := issue?_wave s i hi
    unfold State.wave? at *
    rw [hs]; exact this
  obtain ⟨w', a, b, c, d, e, f, g1, g2, g3, k⟩ := replace_spec s1 i base i.w ps h0
  have hst2 : (s1.replace i base ps).still = s.still := c.trans hst
  refine ⟨w', by rw [← hu]; exact a, fun v hv => ?_, (still_iff _ _).1 hst2, fun x => ?_, fun n => ?_, ?_, fun q => ?_⟩
  · have := b v (by omega)
    unfold State.wave? at *
    rw [hs] at this
    exact this
  · have : (s1.replace i base ps).still.mem = s.still.mem := by rw [hst2]
    exact byteAt_congr (s := s1.replace i base ps) (t := s) this x
  · have := d n
    unfold State.cluster at *
    rw [hc] at this
    exact this
  · have := (Wave.still_iff _ _).1 e
    rw [this, f, g1, g2, g3]
  · obtain ⟨h1, h2, h3⟩ := hq q
    have := k (by rw [h1]; exact q.1) h2 q.2.2
    rw [h1, h3] at this
    exact this

theorem Wave.bind_bound (w : Wave) (op : Nat) (f : Option Nat) :
    w.bind op f = { w with bound := match f with | some n => w.bound ++ [⟨op, n⟩] | none => w.bound } := by
  cases f <;> rfl

/-- THE OPERATION BECOMES THE OUTSTANDING ACCESS (R372). -/
theorem issueAccess_opened {s : State} {i : Issue} (a : Access) (writes : List RegId) (hi : s.issue? = some i) :
    ∃ w', Opened s (s.issueAccess i a writes) i { i.w with
      access := some a, ckpt := some { rf := i.w.rf, paths := i.w.paths, op := s.fresh, bar := i.w.bar }
      marks := i.w.marks ++ [⟨s.fresh, writes⟩], bound := i.boundTo s.fresh } i.past w' := by
  have := replace_opened (s := s) (s1 := { s with fresh := s.fresh + 1 }) (i := i) (Wave.bind { i.w with
      access := some a, ckpt := some { rf := i.w.rf, paths := i.w.paths, op := s.fresh, bar := i.w.bar }
      marks := i.w.marks ++ [⟨s.fresh, writes⟩] } s.fresh i.flag) i.past hi rfl rfl rfl (by rw [Wave.bind_bound])
      (fun q => by rw [Wave.bind_bound]; exact ⟨rfl, q.2.1, rfl⟩)
  obtain ⟨w', h⟩ := this
  refine ⟨w', ?_⟩
  rw [Wave.bind_bound] at h
  unfold State.issueAccess State.retire
  simp only [Wave.bind_bound]
  exact h

/-- THE OPERATION RUNS ON BESIDE ITS WAVE (R57, R209). -/
theorem issueOp_opened {s : State} {i : Issue} (a : Access) (writes : List RegId) (hi : s.issue? = some i) :
    ∃ w', Opened s (s.issueOp i a writes true) i { i.w with
      ops := i.w.ops ++ [a], marks := if writes.isEmpty then i.w.marks else i.w.marks ++ [⟨s.fresh, writes⟩]
      bound := i.boundTo s.fresh } i.past w' := by
  have := replace_opened (s := s) (s1 := { s with fresh := s.fresh + 1 }) (i := i) (Wave.bind { i.w with
      ops := i.w.ops ++ [a], marks := if writes.isEmpty then i.w.marks else i.w.marks ++ [⟨s.fresh, writes⟩] } s.fresh i.flag) i.past
      hi rfl rfl rfl (by rw [Wave.bind_bound]) (fun q => by rw [Wave.bind_bound]; exact ⟨rfl, q.2.1, rfl⟩)
  obtain ⟨w', h⟩ := this
  refine ⟨w', ?_⟩
  rw [Wave.bind_bound] at h
  unfold State.issueOp State.retire
  simp only [Wave.bind_bound, if_true]
  exact h

/-- A word that moves past with nothing else done. -/
theorem retire_opened {s : State} {i : Issue} (hi : s.issue? = some i) : ∃ w', Opened s (s.retire i i.w) i i.w i.past w' :=
  replace_opened i.w i.past hi rfl rfl rfl rfl (fun q => ⟨rfl, q.2.1, rfl⟩)

end Sys2Proof.Machine
end

