-- ==== Sys2Proof/Laws/Registers.lean ====
section
/-! SUPPORT. Reading a register file after a result is written: lane registers, scalar registers and predicates. -/

namespace Sys2Proof.Machine

theorem mem_lanesOf (q : LaneMask) (l : Nat) : l ∈ lanesOf q ↔ l < 32 ∧ q.getLsbD l = true := by
  simp [lanesOf]

/-- A fold of writes at distinct keys, read at one of them. -/
theorem get_foldl_put (ls : List Nat) (m : Map Word) (b : Nat) (f : Nat → Word) (n : Nat) :
    Map.get 0 (ls.foldl (fun m l => Map.put 0 m (b + l) (f l)) m) n
      = if b ≤ n ∧ n - b ∈ ls then f (n - b) else Map.get 0 m n := by
  induction ls generalizing m with
  | nil => simp
  | cons x t ih =>
    rw [List.foldl_cons, ih, Map.get_put]
    by_cases h1 : b ≤ n ∧ n - b ∈ t
    · have h2 : b ≤ n ∧ n - b ∈ x :: t := ⟨h1.1, List.mem_cons_of_mem _ h1.2⟩
      simp [h1.1, h1.2]
    · by_cases h3 : n = b + x
      · subst h3
        have : b + x - b = x := by omega
        by_cases h4 : x ∈ t
        · simp [this, h4] at h1
        · simp [this, h4]
      · by_cases h5 : b ≤ n
        · have h6 : ¬ n - b ∈ t := fun h => h1 ⟨h5, h⟩
          have h7 : ¬ n - b = x := by omega
          simp [h3, h6, h7]
        · simp [h3, h5]

/-- A lane register after a write of one register. -/
theorem vreg_putV (rf : RegFile) (n : Nat) (q : LaneMask) (f : Nat → Word) (r l : Nat) (hl : l < 32) :
    (rf.putV n q f).vreg r l = if r = n ∧ q.getLsbD l = true then f l else rf.vreg r l := by
  unfold RegFile.vreg RegFile.putV
  rw [get_foldl_put]
  by_cases h : r = n
  · subst h
    have h1 : 32 * r + l - 32 * r = l := by omega
    simp [h1, mem_lanesOf, hl]
  · have h1 : ¬ (32 * n ≤ 32 * r + l ∧ 32 * r + l - 32 * n ∈ lanesOf q) := by
      rintro ⟨a, b⟩
      have := ((mem_lanesOf q _).1 b).1
      omega
    simp [h1, h]

theorem sreg_putV (rf : RegFile) (n : Nat) (q : LaneMask) (f : Nat → Word) (r : Nat) : (rf.putV n q f).sreg r = rf.sreg r := rfl

theorem vreg_putS (rf : RegFile) (n : Nat) (q : LaneMask) (f : Nat → Word) (r l : Nat) : (rf.putS n q f).vreg r l = rf.vreg r l := by
  unfold RegFile.putS
  split <;> rfl

/-- A scalar register after a write of one register. -/
theorem sreg_putS (rf : RegFile) (n : Nat) (q : LaneMask) (f : Nat → Word) (r : Nat) :
    (rf.putS n q f).sreg r = match lowestLane q with
      | some l => if r = n then f l else rf.sreg r
      | none => rf.sreg r := by
  unfold RegFile.putS
  cases lowestLane q with
  | none => rfl
  | some l =>
    unfold RegFile.sreg
    simp only [Map.get_put]

theorem writesRun_zero (rf : RegFile) (d : Dst) (q : LaneMask) (f : Nat → Nat → Word) : WritesRun rf rf d 0 q f 0 where
  lanes r l _ := by
    cases d with
    | v m =>
      have : ¬ (m.val ≤ r ∧ r < m.val + 0 ∧ q.getLsbD l = true) := by omega
      simp only [RegFile.laneAfter, this, if_false]
    | s _ | zero => rfl
  scalars r := by
    cases d with
    | s m =>
      have : ¬ (m.val ≤ r ∧ r < m.val + 0) := by omega
      simp only [RegFile.scalarAfter, this, if_false]
      cases lowestLane q <;> rfl
    | v _ | zero => rfl
  rest := by simp
  errors _ h := h

/-- Writing one more register of a run. -/
theorem writesRun_succ {rf rf' : RegFile} {d : Dst} {n : Nat} {q : LaneMask} {f : Nat → Nat → Word} (h : WritesRun rf rf' d n q f 0) :
    WritesRun rf (rf'.writeRun d n q (f n)) d (n + 1) q f 0 where
  lanes r l hl := by
    have h1 := h.lanes r l hl
    cases d with
    | v m =>
      simp only [RegFile.writeRun, RegFile.laneAfter] at h1 ⊢
      rw [vreg_putV _ _ _ _ _ _ hl, h1]
      by_cases hr : r = m.val + n
      · subst hr
        have a1 : m.val + n - m.val = n := by omega
        cases hq : q.getLsbD l <;> simp [a1]
      · have a1 : (m.val ≤ r ∧ r < m.val + (n + 1) ∧ q.getLsbD l = true) ↔ (m.val ≤ r ∧ r < m.val + n ∧ q.getLsbD l = true) := by
          constructor
          · rintro ⟨a, b, c⟩; exact ⟨a, by omega, c⟩
          · rintro ⟨a, b, c⟩; exact ⟨a, by omega, c⟩
        simp only [hr, false_and, if_false, a1]
    | s m => simp only [RegFile.writeRun]; rw [vreg_putS]; exact h1
    | zero => exact h1
  scalars r := by
    have h1 := h.scalars r
    cases d with
    | v m => exact h1
    | zero => exact h1
    | s m =>
      simp only [RegFile.writeRun, RegFile.scalarAfter] at h1 ⊢
      rw [sreg_putS, h1]
      cases lowestLane q with
      | none => rfl
      | some l =>
        simp only
        by_cases hr : r = m.val + n
        · subst hr
          have a1 : m.val + n - m.val = n := by omega
          simp [a1]
        · have a1 : (m.val ≤ r ∧ r < m.val + (n + 1)) ↔ (m.val ≤ r ∧ r < m.val + n) := by omega
          simp only [hr, if_false, a1]
  rest := by
    have h1 := h.rest
    cases d with
    | v m => simp only [RegFile.writeRun, RegFile.putV]; rw [h1]
    | zero => exact h1
    | s m =>
      simp only [RegFile.writeRun, RegFile.putS]
      split
      · rw [h1]
      · exact h1
  errors x hx := by
    refine h.errors x ?_
    cases d with
    | v m => exact (List.mem_filter.mp hx).1
    | zero => exact hx
    | s m =>
      simp only [RegFile.writeRun, RegFile.putS] at hx
      split at hx
      · exact (List.mem_filter.mp hx).1
      · exact hx

theorem writesRun_flags {rf rf' : RegFile} {d : Dst} {n : Nat} {q : LaneMask} {f : Nat → Nat → Word} (h : WritesRun rf rf' d n q f 0)
    (fl : BitVec 6) : WritesRun rf (rf'.orFlags fl) d n q f fl where
  lanes r l hl := h.lanes r l hl
  scalars r := h.scalars r
  rest := by
    have h1 := h.rest
    unfold RegFile.orFlags
    rw [h1]
    simp
  errors := h.errors

theorem writesRun_congr {rf rf' : RegFile} {d : Dst} {n : Nat} {q : LaneMask} {f g : Nat → Nat → Word} {fl : BitVec 6}
    (h : WritesRun rf rf' d n q f fl) (e : ∀ k l, k < n → f k l = g k l) : WritesRun rf rf' d n q g fl where
  lanes r l hl := by
    rw [h.lanes r l hl]
    cases d with
    | v m =>
      simp only [RegFile.laneAfter]
      split
      · exact e _ _ (by omega)
      · rfl
    | s m => rfl
    | zero => rfl
  scalars r := by
    rw [h.scalars r]
    cases d with
    | v m => rfl
    | zero => rfl
    | s m =>
      simp only [RegFile.scalarAfter]
      cases lowestLane q with
      | none => rfl
      | some l =>
        simp only
        split
        · exact e _ _ (by omega)
        · rfl
  rest := h.rest
  errors := h.errors

/-- A 32-bit result. -/
theorem writesRun_write (rf : RegFile) (d : Dst) (q : LaneMask) (f : Nat → Word) :
    WritesRun rf (rf.write d q f) d 1 q (fun _ => f) 0 := by
  have := writesRun_succ (writesRun_zero rf d q (fun _ => f))
  cases d <;> exact this

/-- A 64-bit result. -/
theorem writesRun_write64 (rf : RegFile) (d : Dst) (q : LaneMask) (f : Nat → Word64) :
    WritesRun rf (rf.write64 d q f) d 2 q (fun k l => halves (f l) k) 0 := by
  have h0 := writesRun_zero rf d q (fun k l => halves (f l) k)
  exact writesRun_succ (writesRun_succ h0)

/-- A run written register by register. -/
theorem writesRun_fold (rf : RegFile) (d : Dst) (q : LaneMask) (f : Nat → Nat → Word) (n : Nat) :
    WritesRun rf ((List.range n).foldl (fun r k => r.writeRun d k q (f k)) rf) d n q f 0 := by
  induction n with
  | zero => exact writesRun_zero rf d q f
  | succ n ih =>
    rw [List.range_succ, List.foldl_append]
    exact writesRun_succ ih

theorem getLsbD_maskOf_aux (f : Nat → Bool) (n : Nat) (hn : n ≤ 32) (l : Nat) :
    ((List.range n).foldl (fun m l => if f l then m ||| laneBit l else m) (0 : LaneMask)).getLsbD l = (decide (l < n) && f l) := by
  induction n with
  | zero => simp
  | succ n ih =>
    rw [List.range_succ, List.foldl_append, List.foldl_cons, List.foldl_nil]
    have h1 := ih (by omega)
    have hb : (laneBit n).getLsbD l = decide (l = n) := by
      unfold laneBit
      rw [BitVec.getLsbD_ofNat]
      simp only [Nat.testBit_two_pow, eq_comm]
      by_cases hl : l = n
      · subst hl; simp; omega
      · simp [hl]
    by_cases hf : f n = true
    · simp only [hf, if_true, BitVec.getLsbD_or, h1, hb]
      by_cases hl : l = n
      · subst hl; simp [hf]
      · have : (l < n + 1) ↔ l < n := by omega
        simp [hl, this]
    · rw [if_neg hf, h1]
      by_cases hl : l = n
      · subst hl; simp [hf]
      · have : (l < n + 1) ↔ l < n := by omega
        simp [this]

/-- A lane of a mask that is made from a test. -/
theorem getLsbD_maskOf (f : Nat → Bool) (l : Nat) : (maskOf f).getLsbD l = (decide (l < 32) && f l) :=
  getLsbD_maskOf_aux f 32 (Nat.le_refl _) l

/-- A predicate result. -/
theorem writesPred_write (rf : RegFile) (n : Nat) (q : LaneMask) (f : Nat → Bool) (fl : BitVec 6) :
    WritesPred rf ((rf.writePred n q f).orFlags fl) n q f fl where
  preds p l hl := by
    unfold RegFile.writePred RegFile.orFlags RegFile.pred
    by_cases hn : n = 7
    · simp [hn]
    · simp only [hn, if_false, Map.get_put, ne_eq, not_false_eq_true, true_and]
      by_cases hp : p = n
      · subst hp
        have h7 : (p == 7) = false := by simp [hn]
        simp only [if_true, BitVec.getLsbD_or, BitVec.getLsbD_and, BitVec.getLsbD_not, getLsbD_maskOf, hl, decide_true,
          Bool.true_and, h7, Bool.false_or]
        cases hq : q.getLsbD l <;> simp
      · simp [hp]
  rest := by
    unfold RegFile.writePred RegFile.orFlags
    split <;> simp

end Sys2Proof.Machine
end

