-- ==== Sys2Proof/Laws/Results.lean ====
section
/-! SUPPORT. Each shared form of a register instruction completes: one lemma for each, to be cited instead of unfolding it. -/

namespace Sys2Proof.Machine

theorem foldl_or_low (ls : List Nat) (f : Nat → BitVec 6) (a : BitVec 6) (en : BitVec 5)
    (ha : a.extractLsb' 0 5 &&& en = 0) (h : ∀ l ∈ ls, (f l).extractLsb' 0 5 &&& en = 0) :
    (ls.foldl (fun a l => a ||| f l) a).extractLsb' 0 5 &&& en = 0 := by
  induction ls generalizing a with
  | nil => exact ha
  | cons x t ih =>
    rw [List.foldl_cons]
    apply ih
    · have hx := h x (by simp)
      have e : (a ||| f x).extractLsb' 0 5 = a.extractLsb' 0 5 ||| (f x).extractLsb' 0 5 := by
        ext k hk
        simp only [BitVec.getElem_extractLsb', BitVec.getLsbD_or, BitVec.getElem_or]
      have e2 : (a.extractLsb' 0 5 ||| (f x).extractLsb' 0 5) &&& en
          = (a.extractLsb' 0 5 &&& en) ||| ((f x).extractLsb' 0 5 &&& en) := by
        ext k hk
        simp only [BitVec.getElem_and, BitVec.getElem_or, Bool.and_or_distrib_right]
      rw [e, e2, ha, hx]
      rfl
    · exact fun l hl => h l (List.mem_cons_of_mem _ hl)

/-- A word none of whose lanes meets an enable takes no trap. -/
theorem Untrapped.no_trap {s : State} {i : Issue} {g : Guard} {fl : Nat → BitVec 6} (h : Untrapped s i g fl) :
    trapHit (s.descOf i.w).trapEn (orLanes (i.lanes g) fl) = false := by
  unfold trapHit orLanes
  have := foldl_or_low (lanesOf (i.lanes g)) fl 0 (s.descOf i.w).trapEn (by simp) (fun l hl => h l ((mem_lanesOf _ _).1 hl).2)
  rw [this]
  rfl

/-- SATC and no flag at all have no enable (R114). -/
theorem untrapped_satc {s : State} {i : Issue} {g : Guard} {fl : Nat → BitVec 6} (h : ∀ l, fl l = 0 ∨ fl l = 32) :
    Untrapped s i g fl := by
  intro l _
  rcases h l with e | e <;> rw [e] <;> exact BitVec.zero_and

theorem orLanes_zero (q : LaneMask) : orLanes q (fun _ => 0) = 0 := by
  unfold orLanes
  generalize lanesOf q = ls
  suffices h : ∀ a : BitVec 6, ls.foldl (fun a _ => a ||| 0) a = a from h 0
  induction ls with
  | nil => intro a; rfl
  | cons x t ih => intro a; rw [List.foldl_cons, ih]; exact BitVec.or_zero

theorem orLanes_congr (q : LaneMask) (f h : Nat → BitVec 6) (e : ∀ l, f l = h l) : orLanes q f = orLanes q h := by
  have : f = h := funext e
  rw [this]

theorem regIssue_completes {ins : Instr} {g : Guard} {reads writes : List RegId} {long : Bool}
    {f : RegIn → RegFile × BitVec 6} {s : State} {i : Issue} (hx : exec ins s = regIssue g reads writes long f s)
    (h : Ready s i false (g.regs ++ reads ++ writes) writes) {post : RegFile → Prop}
    (ht : trapHit (s.descOf i.w).trapEn (f { rf := i.w.rf, lit := i.c.head.lit, act := i.p.lanes, q := i.lanes g }).2 = false)
    (hp : post ((f { rf := i.w.rf, lit := i.c.head.lit, act := i.p.lanes, q := i.lanes g }).1.orFlags
      (f { rf := i.w.rf, lit := i.c.head.lit, act := i.p.lanes, q := i.lanes g }).2)) : Completes s i ins post := by
  obtain ⟨t, w', a, b, b2, c⟩ := regIssue_ready (f := f) (long := long) h ht
  exact ⟨t, w', hx.trans a, b, b2, by rw [c]; exact hp⟩

theorem no_trap_zero (en : BitVec 5) : trapHit en 0 = false := by
  unfold trapHit
  have : (0 : BitVec 6).extractLsb' 0 5 &&& en = 0 := BitVec.zero_and
  rw [this]
  rfl

/-- One 32-bit result. -/
theorem reg32_completes {ins : Instr} {g : Guard} {reads : List RegId} {d : Dst} {long : Bool} {s : State} {i : Issue}
    {f : RegIn → RegFile × BitVec 6} (v : Nat → Word × BitVec 6)
    (hx : exec ins s = regIssue g reads d.regs long f s)
    (hf : f { rf := i.w.rf, lit := i.c.head.lit, act := i.p.lanes, q := i.lanes g }
      = (i.w.rf.write d (i.lanes g) (fun l => (v l).1), orLanes (i.lanes g) (fun l => (v l).2)))
    (h : Ready s i false (g.regs ++ reads ++ d.regs) d.regs) (hu : Untrapped s i g (fun l => (v l).2)) :
    Completes32 s i g ins d v := by
  refine regIssue_completes hx h ?_ ?_
  · rw [hf]; exact hu.no_trap
  · rw [hf]
    exact writesRun_flags (writesRun_write _ _ _ _) _

/-- One 64-bit result. -/
theorem reg64_completes {ins : Instr} {g : Guard} {reads : List RegId} {d : Dst} {long : Bool} {s : State} {i : Issue}
    {f : RegIn → RegFile × BitVec 6} (v : Nat → Word64 × BitVec 6)
    (hx : exec ins s = regIssue g reads (d.regsRun 2) long f s)
    (hf : f { rf := i.w.rf, lit := i.c.head.lit, act := i.p.lanes, q := i.lanes g }
      = (i.w.rf.write64 d (i.lanes g) (fun l => (v l).1), orLanes (i.lanes g) (fun l => (v l).2)))
    (h : Ready s i false (g.regs ++ reads ++ d.regsRun 2) (d.regsRun 2)) (hu : Untrapped s i g (fun l => (v l).2)) :
    Completes64 s i g ins d v := by
  refine regIssue_completes hx h ?_ ?_
  · rw [hf]; exact hu.no_trap
  · rw [hf]
    exact writesRun_flags (writesRun_write64 _ _ _ _) _

/-- One predicate. -/
theorem regPred_completes {ins : Instr} {g : Guard} {reads : List RegId} {d : Nat} {long : Bool} {s : State} {i : Issue}
    {f : RegIn → RegFile × BitVec 6} (v : Nat → Bool × BitVec 6)
    (hx : exec ins s = regIssue g reads (predReg d) long f s)
    (hf : f { rf := i.w.rf, lit := i.c.head.lit, act := i.p.lanes, q := i.lanes g }
      = (i.w.rf.writePred d (i.lanes g) (fun l => (v l).1), orLanes (i.lanes g) (fun l => (v l).2)))
    (h : Ready s i false (g.regs ++ reads ++ predReg d) (predReg d)) (hu : Untrapped s i g (fun l => (v l).2)) :
    CompletesPred s i g ins d v := by
  refine regIssue_completes hx h ?_ ?_
  · rw [hf]; exact hu.no_trap
  · rw [hf]
    exact writesPred_write _ _ _ _ _

/-- A result stated with equal values is the same result. -/
theorem completes32_congr {s : State} {i : Issue} {g : Guard} {ins : Instr} {d : Dst} {v w : Nat → Word × BitVec 6}
    (h : Completes32 s i g ins d v) (e : ∀ l, v l = w l) : Completes32 s i g ins d w := by
  have : v = w := funext e
  rw [← this]; exact h

theorem completes64_congr {s : State} {i : Issue} {g : Guard} {ins : Instr} {d : Dst} {v w : Nat → Word64 × BitVec 6}
    (h : Completes64 s i g ins d v) (e : ∀ l, v l = w l) : Completes64 s i g ins d w := by
  have : v = w := funext e
  rw [← this]; exact h

theorem completesPred_congr {s : State} {i : Issue} {g : Guard} {ins : Instr} {d : Nat} {v w : Nat → Bool × BitVec 6}
    (h : CompletesPred s i g ins d v) (e : ∀ l, v l = w l) : CompletesPred s i g ins d w := by
  have : v = w := funext e
  rw [← this]; exact h

/-- An instruction of one source. -/
theorem op1_completes {ins : Instr} {g : Guard} {d : Dst} {a : Src} {long : Bool} {f : Word → Word × BitVec 6} {s : State} {i : Issue}
    (hx : exec ins s = op1 g d a long f s) (h : Ready s i false (g.regs ++ a.regs ++ d.regs) d.regs)
    (hu : Untrapped s i g (fun l => (f (i.val a l)).2)) : Completes32 s i g ins d (fun l => f (i.val a l)) :=
  reg32_completes (fun l => f (i.val a l)) hx rfl h hu

/-- An instruction of two sources. -/
theorem op2_completes {ins : Instr} {g : Guard} {d : Dst} {a b : Src} {f : Word → Word → Word × BitVec 6} {s : State} {i : Issue}
    (hx : exec ins s = op2 g d a b f s) (h : Ready s i false (g.regs ++ (a.regs ++ b.regs) ++ d.regs) d.regs)
    (hu : Untrapped s i g (fun l => (f (i.val a l) (i.val b l)).2)) :
    Completes32 s i g ins d (fun l => f (i.val a l) (i.val b l)) :=
  reg32_completes (fun l => f (i.val a l) (i.val b l)) hx rfl h hu

/-- An instruction of three sources. -/
theorem op3_completes {ins : Instr} {g : Guard} {d : Dst} {a b c : Src} {f : Word → Word → Word → Word × BitVec 6} {s : State}
    {i : Issue} (hx : exec ins s = op3 g d a b c f s)
    (h : Ready s i false (g.regs ++ (a.regs ++ b.regs ++ c.regs) ++ d.regs) d.regs)
    (hu : Untrapped s i g (fun l => (f (i.val a l) (i.val b l) (i.val c l)).2)) :
    Completes32 s i g ins d (fun l => f (i.val a l) (i.val b l) (i.val c l)) :=
  reg32_completes (fun l => f (i.val a l) (i.val b l) (i.val c l)) hx rfl h hu

/-- An instruction of two pairs. -/
theorem op2w_completes {ins : Instr} {g : Guard} {d : Dst} {a b : Src} {wd : Widen} {f : Word64 → Word64 → Word64 × BitVec 6}
    {s : State} {i : Issue} (hx : exec ins s = op2w g d a b wd f s)
    (h : Ready s i false (g.regs ++ (a.regsRun 2 ++ b.regsRun 2) ++ d.regsRun 2) (d.regsRun 2))
    (hu : Untrapped s i g (fun l => (f (i.val64 a wd l) (i.val64 b wd l)).2)) :
    Completes64 s i g ins d (fun l => f (i.val64 a wd l) (i.val64 b wd l)) :=
  reg64_completes (fun l => f (i.val64 a wd l) (i.val64 b wd l)) hx rfl h hu

end Sys2Proof.Machine
end

