-- ==== Sys2Proof/Tests/Slice0.lean ====
section
/-! SUPPORT. Tests of the syntax and the decoder: an ill-formed term for each check of WellFormed, and a word of every
instruction written out field by field from the manual's encoding tables (R61, R67, R119, R141, R170, R204, R263, R281, R292,
R320, R385). -/

namespace Sys2Proof.Tests

/-- A full instruction's word from its fields (R61), under the guard p7. -/
def full (op d a b c e mod : Nat) : Word64 :=
  BitVec.ofNat 64 (op * 2 ^ 54 + d * 2 ^ 46 + a * 2 ^ 38 + b * 2 ^ 30 + c * 2 ^ 22 + e * 2 ^ 14 + 7 * 2 ^ 11 + mod)

/-- Every word of a list decodes to the instruction beside it. -/
def reads (l : List (Word64 × Instr)) : Bool :=
  l.all (fun x => match decode .user x.1 with
    | .ok i => i == x.2
    | .error _ => false)

/-- Every word of a list is refused with the reason beside it. -/
def rejects (l : List (Word64 × Nat)) : Bool :=
  l.all (fun x => match decode .user x.1 with
    | .ok _ => false
    | .error r => r == x.2)

abbrev g : Guard := .always
abbrev plain : SMod := { na := false, nb := false, nc := false, aa := false, ab := false, ac := false }
abbrev rne : FpMode := { rnd := .rne, sat := false }
abbrev t7 : PComb := { p := 7, neg := false }
abbrev rlx (sc : Scope) : Attr := { scope := sc, order := .rlx, bit2 := false, hint := .norm }

/-! ## WellFormed refuses -/

/-- Operand classes: a lane register at or above the budget, an odd pair, a run that is not aligned or passes the budget. -/
def badOperands : List Instr := [
  .mov g (.v 96) .zero false, .mov g .zero (.v 96) false, .mov g (.v 1) .zero true, .mov g (.s 3) .zero true,
  .mov g .zero (.s 5) true, .mov g .zero (.v 95) true, .iadd g (.v 0) (.v 96) .zero .wrap, .iadd g (.v 0) .zero (.v 96) .wrap,
  .iadd3 g (.v 0) .zero .zero (.v 96), .bfi g (.v 0) .zero .zero .zero (.v 96), .sel g (.v 1) .zero .zero t7 true,
  .lea g (.v 1) .zero .zero 0 false, .lea g (.v 0) (.v 1) .zero 0 false, .iadd64 g (.v 0) .zero (.v 1) false,
  .isetp g 0 .zero (.v 96) t7 .eq false .and, .fsetp g 0 (.v 96) .zero t7 { cmp := .eq, aa := false, ab := false } .and,
  .dsetp g 0 (.v 1) .zero t7 { cmp := .eq, aa := false, ab := false } .and, .dadd g (.v 1) .zero .zero plain rne,
  .dfma g (.v 0) .zero .zero (.v 1) plain rne, .frnd g (.v 1) .zero .rne true, .fclass g (.v 0) (.v 1) true,
  .dot4fE4m3 g (.v 0) .zero .zero .lit 0 0 rne, .dot4fE4m3 g (.v 0) .zero .zero (.v 1) 0 0 rne,
  .dot8fE2m1 g (.v 0) .zero .zero (.s 1) 0 0 rne, .unpack g (.v 1) .zero .z16, .unpack g .zero .zero .z8, .unpack g (.s 0) .zero .s8,
  .pack g (.v 0) (.n4 .lit), .pack g (.v 0) (.n4 (.v 90)), .pack g (.v 0) (.h16 (.v 96) .zero), .pack g (.v 0) (.b8 .zero .zero .zero (.v 96)),
  .matchLanes g (.v 0) (.v 1) true, .voteBal g (.v 96) t7, .redux g (.v 96) .zero .add, .barArr g 0 (.v 96), .pbarArr g .zero (.v 96) false,
  .pbarWait g (some (.v 96)) .zero .zero false, .brx g (.s 1), .call g 1, .call g 95, .calli g 0 (.v 1), .join g 0 (some (.v 96)),
  .rftTo g (.v 1)]

theorem test_wf_operands : badOperands.all (fun i => !i.wf { budget := 96, postilion := false }) = true := by decide

/-- Modifiers: a negated or absolute third source of a two-source form, a conversion between equal types, stochastic rounding out
of place, rounding between integers, special registers that are not there to read or write. -/
def badModifiers : List Instr := [
  .fadd g (.v 0) .zero .zero { plain with nc := true } rne, .fmin g (.v 0) .zero .zero { plain with ac := true },
  .hmul2F16 g (.v 0) .zero .zero { plain with nc := true } rne, .cvt g (.v 0) (.v 8) .f32 .f32 .rne false false,
  .cvt g (.v 0) (.v 8) .e4m3 .f32 .rz false true, .cvt g (.v 0) (.v 8) .e8m0 .f32 .rne false true,
  .cvt g (.v 0) (.v 8) .s16 .s32 .rz false false, .cvt g (.v 0) (.v 8) .s16 .s32 .rne false true, .cvt g (.v 1) .zero .e4m3 .f32 .rne false false,
  .movs g (.v 0) 0x80, .movs g (.v 0) 0x3B, .mts g .zero 0x00, .mts g .zero 0x38]

theorem test_wf_modifiers : badModifiers.all (fun i => !i.wf .user) = true := by decide

/-- Pair words: a one-source half with a second source, a two-source half without, destinations in one bank, three registers of a
bank read. -/
def badPairs : List Instr := [
  .pair (.op .mov (.v 0) .zero (some .zero)) .empty, .pair (.op .iadd (.v 0) .zero none) .empty, .pair .empty (.op .iadd (.v 96) .zero (some .zero)),
  .pair (.op .mov (.v 0) .zero none) (.op .mov (.v 4) .zero none), .pair (.op .mov (.s 1) .zero none) (.op .mov (.s 5) .zero none),
  .pair (.op .iadd (.v 0) (.v 0) (some (.v 4))) (.op .mov (.v 1) (.v 8) none)]

theorem test_wf_pairs : badPairs.all (fun i => !i.wf { budget := 96, postilion := false }) = true := by decide

/-- Memory: shapes of runs, attribute values each space excludes, a third operand without CAS, operations a reduction lacks. -/
def badMemory : List Instr := [
  .lds g (.s 0) .zero .zero (rlx .wg) .b128, .lds g (.v 2) .zero .zero (rlx .wg) .b128, .lds g (.v 1) .zero .zero (rlx .wg) .b64,
  .sts g .zero .zero .lit (rlx .wg) .b128, .sts g .zero .zero (.v 1) (rlx .wg) .b64, .ldf g (.v 0) .zero .zero { rlx .wave with bit2 := true } .b32,
  .stf g .zero .zero .zero { rlx .wave with bit2 := true } .b32, .lds g (.v 0) .zero .zero { rlx .wg with order := .rel } .b32,
  .lds g (.v 0) .zero .zero { rlx .wg with hint := .keep } .b32, .ldc g (.v 0) .zero .zero { rlx .clu with bit2 := true } .b32,
  .sts g .zero .zero .zero { rlx .wg with order := .acq } .b32, .stc g .zero .zero .zero { rlx .clu with hint := .strm } .b32,
  .ldg g (.v 0) .zero .zero { rlx .dev with order := .ar } .b32, .ldg g (.v 0) (.v 1) .zero (rlx .dev) .b32,
  .stg g .zero .zero .zero { rlx .dev with bit2 := true } .b32, .ldt g (.v 0) .zero .zero { rlx .dev with order := .acq } .b32,
  .ldt g (.v 0) .zero .zero (rlx .dev) .z8, .ldh g (.v 0) .zero .zero { rlx .sys with bit2 := true } .b32,
  .sth g .zero .zero .zero { rlx .sys with order := .acq } .b32, .ats g (.v 0) .zero .zero none { rlx .wg with hint := .keep } .add,
  .ats g (.v 0) .zero .zero none (rlx .wg) .cas, .ats g (.v 0) .zero .zero (some .zero) (rlx .wg) .add,
  .atg g (.v 1) .zero .zero none { rlx .dev with bit2 := true } .add, .ath g (.v 0) .zero (.v 1) none { rlx .sys with bit2 := true } .add,
  .redg g .zero .zero (rlx .dev) .exch, .redh g .zero .zero { rlx .sys with order := .acq } .add, .pf g (.v 1) .zero false,
  .cpy g (.v 1) .zero none 0 .d2s false, .cpy g .zero (.v 1) none 0 .s2d false, .cpy g .zero .zero none 1 .d2s false,
  .cpy g .zero .zero none 0 .d2s true, .cpy g .zero .zero (some (.v 96)) 0 .d2s false, .cpyx g 1 .zero none false 0, .synci g .zero (.v 96) none false,
  .syncw g (some (.v 96)) .zero .zero false, .fence g (rlx .dev), .fence g { rlx .dev with order := .ar, bit2 := true },
  .fenceXp g { rlx .dev with order := .acq }, .publish g (.v 1) .zero .zero .zero]

theorem test_wf_memory : badMemory.all (fun i => !i.wf { budget := 96, postilion := false }) = true := by decide

/-- The span, the rasteriser and system words: blocks, runs, pairs and tiles out of class; runs of SAVEW.V. -/
def badSpan : List Instr := [
  .spanAcq g 16, .spanAcq g 96, .spanRelSt g 0 1 .lit false, .spanRelSt g 0 0 (.v 0) false, .spanStat g (.v 96) 0, .spanRbox g 1 0 0 0,
  .spanRbox g 0 4 0 0, .spanRbox g 0 0 1 0, .spanLoop g 0 0 1 0 0, .spanMmaBf16 g { d := 0, a := .run 4, b := .desc 0, bTile := 0, aTile := 0 },
  .spanMmaBf16 g { d := 0, a := .run 0, b := .desc 0, bTile := 0, aTile := 1 }, .spanMmaBf16 g { d := 0, a := .desc 1, b := .desc 0, bTile := 0, aTile := 0 },
  .spanMmaBf16 g { d := 0, a := .desc 0, b := .run 72, bTile := 0, aTile := 0 }, .spanMmaE4m3 g { d := 0, a := .desc 0, b := .desc 0, bTile := 0, aTile := 0 } 1,
  .spanMmaE2m1B32 g { d := 0, a := .desc 0, b := .desc 0, bTile := 0, aTile := 0 } 2, .spanMmaW4bf g { d := 0, a := .desc 0, b := .run 92, bTile := 0, aTile := 0 } 0,
  .rastEmit g 4 0 0 t7, .rastEmit g 0 1 0 t7, .rastEmit g 0 0 1 t7, .pixBlend g 2 .rep, .pixLd g 1, .enq g (.v 1) .zero .zero .zero .any false,
  .enqg g (.v 96) .zero, .dhops g (.v 0) (.v 96) .zero, .savewV g 0 0, .savewV g 0 25, .savewV g 4 1, .restwV g 88 2, .savewS g (.v 96) .zero]

theorem test_wf_span : badSpan.all (fun i => !i.wf { budget := 96, postilion := false }) = true := by decide

/-! ## Words of the manual's encoding tables, the fields in the order D, A, B, C, E, MOD. Lane registers are 0x00 to 0xBF, scalar
registers 0xC0 to 0xEF, zero 0xF0, the literal 0xF1, the lane number 0xF2 (R64); an unused field is 0xFF (R62). -/

/-- R119, integer, addresses and moves. -/
theorem test_words_integer : reads [
  (full 0x000 8 9 10 0xFF 0xFF 0, .iadd g (.v 8) (.v 9) (.v 10) .wrap), (full 0x000 8 9 10 0xFF 0xFF 3, .iadd g (.v 8) (.v 9) (.v 10) .satZ),
  (full 0x001 8 0xC1 0xF0 0xF1 0xFF 0, .iadd3 g (.v 8) (.s 1) .zero .lit), (full 0x002 8 9 10 0xFF 0xFF 1, .isub g (.v 8) (.v 9) (.v 10) .sat),
  (full 0x003 8 9 0xFF 0xFF 0xFF 1, .ineg g (.v 8) (.v 9) true), (full 0x004 0xF0 9 0xFF 0xFF 0xFF 0, .iabs g .zero (.v 9) false),
  (full 0x005 8 9 10 0xFF 0xFF 1, .imul24 g (.v 8) (.v 9) (.v 10) true), (full 0x006 8 9 10 0xFF 0xFF 0, .imul24h g (.v 8) (.v 9) (.v 10) false),
  (full 0x007 8 9 10 11 0xFF 1, .imad24 g (.v 8) (.v 9) (.v 10) (.v 11) true), (full 0x008 8 9 10 0xFF 0xFF 0, .imul g (.v 8) (.v 9) (.v 10)),
  (full 0x009 8 9 10 0xFF 0xFF 1, .imulh g (.v 8) (.v 9) (.v 10) true), (full 0x00A 8 9 10 11 0xFF 0, .imad g (.v 8) (.v 9) (.v 10) (.v 11)),
  (full 0x00B 8 9 10 0xFF 0xFF 1, .imin g (.v 8) (.v 9) (.v 10) true), (full 0x00C 8 9 10 0xFF 0xFF 0, .imax g (.v 8) (.v 9) (.v 10) false),
  (full 0x00D 3 9 10 0x0A 0x0C 2, .isetp g 3 (.v 9) (.v 10) { p := 2, neg := true } .gt true .xor),
  (full 0x00E 8 10 0xF1 0x01 0xFF 1, .sel g (.v 8) (.v 10) .lit { p := 1, neg := false } true),
  (full 0x00F 8 9 10 11 0x96 0, .lop3 g (.v 8) (.v 9) (.v 10) (.v 11) 0x96), (full 0x010 8 9 10 0xFF 0xFF 0, .shl g (.v 8) (.v 9) (.v 10)),
  (full 0x011 8 9 10 0xFF 0xFF 0, .shr g (.v 8) (.v 9) (.v 10)), (full 0x012 8 9 10 0xFF 0xFF 0, .sha g (.v 8) (.v 9) (.v 10)),
  (full 0x013 8 9 10 11 0xFF 1, .shf g (.v 8) (.v 9) (.v 10) (.v 11) true), (full 0x014 8 9 10 11 0xFF 1, .bfe g (.v 8) (.v 9) (.v 10) (.v 11) true),
  (full 0x015 8 9 10 11 12 0, .bfi g (.v 8) (.v 9) (.v 10) (.v 11) (.v 12)), (full 0x016 8 0xF2 0xFF 0xFF 0xFF 0, .brev g (.v 8) .lane),
  (full 0x017 8 9 0xFF 0xFF 0xFF 0, .popc g (.v 8) (.v 9)), (full 0x018 8 9 0xFF 0xFF 0xFF 0, .clz g (.v 8) (.v 9)),
  (full 0x019 8 9 0xFF 0xFF 0xFF 0, .ctz g (.v 8) (.v 9)), (full 0x01A 8 9 10 11 0xFF 0, .prmt g (.v 8) (.v 9) (.v 10) (.v 11)),
  (full 0x01B 8 0xC4 11 0xFF 31 1, .lea g (.v 8) (.s 4) (.v 11) 31 true), (full 0x01C 8 10 12 0xFF 0xFF 1, .iadd64 g (.v 8) (.v 10) (.v 12) true),
  (full 0x01D 0xE0 10 0xFF 0xFF 0xFF 1, .mov g (.s 32) (.v 10) true), (full 0x01E 8 0xFF 0xFF 0xFF 0x80 1, .movi g (.v 8) 0x80 true),
  (full 0x01F 8 0xFF 0xFF 0xFF 0x30 0, .movs g (.v 8) 0x30), (full 0x020 0xFF 3 0xFF 0xFF 0x10 0, .mts g (.v 3) 0x10),
  (full 0x021 1 2 3 4 0xE8 0, .plop3 g 1 2 3 4 0xE8)] = true := by decide

/-- R119, floating point; the source modifiers of R131 are active at 0. -/
theorem test_words_float : reads [
  (full 0x040 8 9 10 0xFF 0xDF 5, .fadd g (.v 8) (.v 9) (.v 10) { plain with na := true } { rnd := .rz, sat := true }),
  (full 0x041 8 9 10 0xFF 0xEF 2, .fmul g (.v 8) (.v 9) (.v 10) { plain with nb := true } { rnd := .rp, sat := false }),
  (full 0x042 8 9 10 0xFF 0xFB 0, .fmin g (.v 8) (.v 9) (.v 10) { plain with aa := true }),
  (full 0x043 8 9 10 0xFF 0xFD 0, .fmax g (.v 8) (.v 9) (.v 10) { plain with ab := true }),
  (full 0x044 8 9 10 11 0xF6 3, .ffma g (.v 8) (.v 9) (.v 10) (.v 11) { plain with nc := true, ac := true } { rnd := .rm, sat := false }),
  (full 0x045 3 9 10 0x07 0x2C 1, .fsetp g 3 (.v 9) (.v 10) t7 { cmp := .gtu, aa := true, ab := false } .or),
  (full 0x046 8 10 0xFF 0xFF 0xFF 1, .fclass g (.v 8) (.v 10) true), (full 0x047 8 10 0xFF 0xFF 0xFF 6, .frnd g (.v 8) (.v 10) .rp true),
  (full 0x048 8 10 12 0xFF 0xFF 0, .dadd g (.v 8) (.v 10) (.v 12) plain rne), (full 0x049 8 10 12 0xFF 0xFF 4, .dmul g (.v 8) (.v 10) (.v 12) plain { rnd := .rne, sat := true }),
  (full 0x04A 8 10 12 14 0xFF 1, .dfma g (.v 8) (.v 10) (.v 12) (.v 14) plain { rnd := .rz, sat := false }),
  (full 0x04B 0 10 12 0x0F 0x17 2, .dsetp g 0 (.v 10) (.v 12) { p := 7, neg := true } { cmp := .nan, aa := false, ab := true } .xor)] = true := by decide

/-- R141, packed halves, dot products, conversions and the special functions. -/
theorem test_words_narrow : reads [
  (full 0x080 8 9 10 0xFF 0xFF 0, .hadd2F16 g (.v 8) (.v 9) (.v 10) plain rne), (full 0x081 8 9 10 0xFF 0xFF 0, .hadd2Bf16 g (.v 8) (.v 9) (.v 10) plain rne),
  (full 0x082 8 9 10 0xFF 0xFF 1, .hmul2F16 g (.v 8) (.v 9) (.v 10) plain { rnd := .rz, sat := false }),
  (full 0x083 8 9 10 0xFF 0xDF 0, .hmul2Bf16 g (.v 8) (.v 9) (.v 10) { plain with na := true } rne),
  (full 0x084 8 9 10 11 0xF7 0, .hfma2F16 g (.v 8) (.v 9) (.v 10) (.v 11) { plain with nc := true } rne),
  (full 0x085 8 9 10 11 0xFF 0, .hfma2Bf16 g (.v 8) (.v 9) (.v 10) (.v 11) plain rne),
  (full 0x086 8 9 10 0xFF 0xFF 0, .hmin2F16 g (.v 8) (.v 9) (.v 10) plain), (full 0x087 8 9 10 0xFF 0xFF 0, .hmin2Bf16 g (.v 8) (.v 9) (.v 10) plain),
  (full 0x088 8 9 10 0xFF 0xFF 0, .hmax2F16 g (.v 8) (.v 9) (.v 10) plain), (full 0x089 8 9 10 0xFF 0xFF 0, .hmax2Bf16 g (.v 8) (.v 9) (.v 10) plain),
  (full 0x08A 6 9 10 0x07 0x02 0, .hsetp2F16 g 3 (.v 9) (.v 10) t7 { cmp := .lt, aa := false, ab := false } .and),
  (full 0x08B 2 9 10 0x07 0x05 1, .hsetp2Bf16 g 1 (.v 9) (.v 10) t7 { cmp := .ge, aa := false, ab := false } .or),
  (full 0x08C 8 9 10 11 0xFF 1, .dot4S8 g (.v 8) (.v 9) (.v 10) (.v 11) true false), (full 0x08D 8 9 10 11 0xFF 2, .dot4Z8 g (.v 8) (.v 9) (.v 10) (.v 11) false true),
  (full 0x08E 8 9 10 11 0xFF 0, .dot8S4 g (.v 8) (.v 9) (.v 10) (.v 11) false false), (full 0x08F 8 9 10 11 0xFF 3, .dot8Z4 g (.v 8) (.v 9) (.v 10) (.v 11) true true),
  (full 0x090 10 4 5 20 0x0D 0, .dot4fE4m3 g (.v 10) (.v 4) (.v 5) (.v 20) 1 3 rne), (full 0x091 10 4 5 0xC4 0x02 0, .dot4fE5m2 g (.v 10) (.v 4) (.v 5) (.s 4) 2 0 rne),
  (full 0x092 10 4 5 20 0x00 4, .dot8fE2m1 g (.v 10) (.v 4) (.v 5) (.v 20) 0 0 { rnd := .rne, sat := true }),
  (full 0x093 8 9 10 0xFF 0x02 9, .scale g (.v 8) (.v 9) (.v 10) (some 2) { rnd := .rz, sat := false }), (full 0x093 8 9 10 0xFF 0xFF 0, .scale g (.v 8) (.v 9) (.v 10) none rne),
  (full 0x094 8 0 0xFF 0xFF 0xCA 0, .cvt g (.v 8) (.v 0) .e4m3 .f32 .rne false false), (full 0x094 8 16 0xFF 0xFF 0xEB 0xC, .cvt g (.v 8) (.v 16) .e2m1 .f64 .rne true true),
  (full 0x095 8 9 10 0xFF 0xFF 0, .pack g (.v 8) (.h16 (.v 9) (.v 10))), (full 0x095 8 9 10 11 12 1, .pack g (.v 8) (.b8 (.v 9) (.v 10) (.v 11) (.v 12))),
  (full 0x095 8 16 0xFF 0xFF 0xFF 7, .pack g (.v 8) (.z4sat (.v 16))), (full 0x096 8 9 0xFF 0xFF 0xFF 3, .unpack g (.v 8) (.v 9) .s8),
  (full 0x0A0 8 9 0xFF 0xFF 0xFF 0, .rcp g (.v 8) (.v 9)), (full 0x0A1 8 9 0xFF 0xFF 0xFF 0, .rsq g (.v 8) (.v 9)), (full 0x0A2 8 9 0xFF 0xFF 0xFF 0, .sqrt g (.v 8) (.v 9)),
  (full 0x0A3 8 9 0xFF 0xFF 0xFF 0, .ex2 g (.v 8) (.v 9)), (full 0x0A4 8 9 0xFF 0xFF 0xFF 0, .lg2 g (.v 8) (.v 9)), (full 0x0A5 8 9 0xFF 0xFF 0xFF 0, .sin g (.v 8) (.v 9)),
  (full 0x0A6 8 9 0xFF 0xFF 0xFF 0, .cos g (.v 8) (.v 9)), (full 0x0A7 8 9 0xFF 0xFF 0xFF 0, .tanh g (.v 8) (.v 9))] = true := by decide

/-- R67, R93: the pair word and every pair opcode. -/
def pairWord (o1 d1 a1 b1 o2 d2 a2 b2 : Nat) : Word64 :=
  BitVec.ofNat 64 (2 * 2 ^ 62 + o1 * 2 ^ 55 + d1 * 2 ^ 47 + a1 * 2 ^ 39 + b1 * 2 ^ 31 + o2 * 2 ^ 24 + d2 * 2 ^ 16 + a2 * 2 ^ 8 + b2)

theorem test_words_pair :
    reads [(pairWord 0x01 8 9 10 0x21 13 1 2, .pair (.op .iadd (.v 8) (.v 9) (some (.v 10))) (.op .fmul (.v 13) (.v 1) (some (.v 2)))),
      (pairWord 0x7F 0xFF 0xFF 0xFF 0x00 0xC1 0xF1 0xFF, .pair .empty (.op .mov (.s 1) .lit none))] = true
    ∧ ([(0x01, .iadd), (0x02, .isub), (0x05, .imul24), (0x06, .imul24h), (0x08, .imin), (0x09, .imax), (0x0A, .shl), (0x0B, .shr), (0x0C, .sha),
        (0x20, .fadd), (0x21, .fmul), (0x22, .fmin), (0x23, .fmax), (0x40, .hadd2F16), (0x41, .hadd2Bf16), (0x42, .hmul2F16), (0x43, .hmul2Bf16),
        (0x44, .hmin2F16), (0x45, .hmin2Bf16), (0x46, .hmax2F16), (0x47, .hmax2Bf16)] : List (Nat × PairOp)).all (fun x =>
          reads [(pairWord x.1 8 9 10 0x7F 0xFF 0xFF 0xFF, .pair (.op x.2 (.v 8) (.v 9) (some (.v 10))) .empty)]) = true
    ∧ ([(0x00, .mov), (0x03, .ineg), (0x04, .iabs), (0x0D, .brev), (0x0E, .popc), (0x0F, .clz), (0x10, .ctz)] : List (Nat × PairOp)).all (fun x =>
          reads [(pairWord x.1 8 9 0xFF 0x7F 0xFF 0xFF 0xFF, .pair (.op x.2 (.v 8) (.v 9) none) .empty)]) = true := by decide

/-- R292, cross-lane instructions and barriers. -/
theorem test_words_cross : reads [
  (full 0x0C0 4 2 3 0xFF 0xFF 0, .shflIdx g (.v 4) (.v 2) (.v 3) none .w32), (full 0x0C1 4 2 0xF1 7 0xFF 1, .shflUp g (.v 4) (.v 2) .lit (some 7) .w16),
  (full 0x0C2 4 2 3 0 0xFF 5, .shflDn g (.v 4) (.v 2) (.v 3) (some 0) .w1), (full 0x0C3 4 2 3 1 0xFF 2, .shflXor g (.v 4) (.v 2) (.v 3) (some 1) .w8),
  (full 0x0C4 3 0x09 0xFF 0xFF 0xFF 0, .voteAny g 3 { p := 1, neg := true }), (full 0x0C5 3 1 0xFF 0xFF 0xFF 0, .voteAll g 3 { p := 1, neg := false }),
  (full 0x0C6 3 1 0xFF 0xFF 0xFF 0, .voteEq g 3 { p := 1, neg := false }), (full 0x0C7 8 1 0xFF 0xFF 0xFF 0, .voteBal g (.v 8) { p := 1, neg := false }),
  (full 0x0C8 8 9 0xFF 0xFF 0xFF 0, .redux g (.v 8) (.v 9) .add), (full 0x0C8 8 9 0xFF 0xFF 0xFF 0xA, .redux g (.v 8) (.v 9) .fmax),
  (full 0x0C9 8 9 0xFF 0xFF 1 4, .scan g (.v 8) (.v 9) true .maxZ), (full 0x0CA 8 10 0xFF 0xFF 0xFF 1, .matchLanes g (.v 8) (.v 10) true),
  (full 0x0D0 0xFF 0xF0 0xFF 0xFF 0x3F 0, .barArr g 63 .zero), (full 0x0D1 0xFF 0xFF 0xFF 0xFF 2 0, .barWait g 2), (full 0x0D2 0xFF 9 0xFF 0xFF 2 0, .barSync g 2 (.v 9)),
  (full 0x0D3 0xFF 9 10 0xFF 0xFF 1, .pbarArr g (.v 9) (.v 10) true), (full 0x0D4 0xFF 9 10 0xFF 0xFF 0, .pbarWait g none (.v 9) (.v 10) false),
  (full 0x0D4 8 9 10 0xFF 0xFF 1, .pbarWait g (some (.v 8)) (.v 9) (.v 10) true), (full 0x0D5 0xFF 0xFF 0xFF 0xFF 0xFF 0, .gbarGrid g),
  (full 0x0D5 0xFF 0xFF 0xFF 0xFF 0xFF 1, .gbarGang g)] = true := by decide

/-- R281, control. -/
theorem test_words_control : reads [
  (full 0x100 0xFF 0xF1 0xFF 0xFF 0xFF 0, .bra g), (full 0x101 0xFF 10 0xFF 0xFF 0xFF 0, .brx g (.v 10)), (full 0x102 8 0xF1 0xFF 0xFF 0xFF 0, .call g 8),
  (full 0x103 8 0xC2 0xFF 0xFF 0xFF 0, .calli g 8 (.s 2)), (full 0x104 0xFF 8 0xFF 0xFF 0xFF 0, .ret g (.v 8)), (full 0x105 0xFF 0xFF 0xFF 0xFF 15 0, .join g 15 none),
  (full 0x105 0xFF 9 0xFF 0xFF 2 0, .join g 2 (some (.v 9))), (full 0x106 0xFF 0xFF 0xFF 0xFF 3 0, .waitj g 3), (full 0x107 0xFF 0xFF 0xFF 0xFF 4 0, .dropj g 4 none),
  (full 0x108 0xFF 0xFF 0xFF 0xFF 0xFF 0, .exit g), (full 0x109 0xFF 0xFF 0xFF 0xFF 0xFF 0, .yield g), (full 0x10A 0xFF 0xFF 0xFF 0xFF 0xFF 0, .nop g),
  (full 0x10B 0xFF 0xFF 0xFF 0xFF 0xFF 0, .bpt g 255), (full 0x10C 0xFF 0xFF 0xFF 0xFF 7 0, .trap g 7), (full 0x10D 0xFF 0xFF 0xFF 0xFF 0xFF 0, .rftResume g),
  (full 0x10D 0xFF 8 0xFF 0xFF 0xFF 1, .rftTo g (.v 8))] = true := by decide

/-- R202 to R204, memory: the attribute byte is scope, order, bit 2, hint. -/
theorem test_words_memory : reads [
  (full 0x140 8 9 0xF1 0xFF 0x00 2, .ldf g (.v 8) (.v 9) .lit (rlx .wave) .b32), (full 0x150 8 9 10 0xFF 0x28 9, .lds g (.v 8) (.v 9) (.v 10) { rlx .wg with order := .acq } .s16),
  (full 0x160 8 9 10 0xFF 0x40 4, .ldc g (.v 8) (.v 9) (.v 10) (rlx .clu) .b128), (full 0x141 0xFF 9 10 11 0x03 0, .stf g (.v 9) (.v 10) (.v 11) { rlx .wave with hint := .nol1 } .b8),
  (full 0x151 0xFF 9 10 12 0x20 4, .sts g (.v 9) (.v 10) (.v 12) (rlx .wg) .b128), (full 0x161 0xFF 9 10 11 0x50 2, .stc g (.v 9) (.v 10) (.v 11) { rlx .clu with order := .rel } .b32),
  (full 0x170 8 10 9 0xFF 0x8D 3, .ldg g (.v 8) (.v 10) (.v 9) { scope := .dev, order := .acq, bit2 := true, hint := .strm } .b64),
  (full 0x190 8 10 9 0xFF 0xA0 8, .ldh g (.v 8) (.v 10) (.v 9) (rlx .sys) .s8), (full 0x171 0xFF 10 9 11 0x92 1, .stg g (.v 10) (.v 9) (.v 11) { rlx .dev with order := .rel, hint := .keep } .b16),
  (full 0x191 0xFF 10 9 12 0xA0 3, .sth g (.v 10) (.v 9) (.v 12) (rlx .sys) .b64), (full 0x180 8 10 9 0xFF 0x80 2, .ldt g (.v 8) (.v 10) (.v 9) (rlx .dev) .b32),
  (full 0x152 8 9 10 0xFF 0x20 0, .ats g (.v 8) (.v 9) (.v 10) none (rlx .wg) .add), (full 0x162 8 9 10 12 0x44 0xA, .atc g (.v 8) (.v 9) (.v 10) (some (.v 12)) { rlx .clu with bit2 := true } .cas),
  (full 0x172 8 10 9 0xFF 0x98 9, .atg g (.v 8) (.v 10) (.v 9) none { rlx .dev with order := .ar } .exch), (full 0x192 8 10 9 0xFF 0xA0 3, .ath g (.v 8) (.v 10) (.v 9) none (rlx .sys) .minZ),
  (full 0x173 0xFF 10 9 0xFF 0x80 1, .redg g (.v 10) (.v 9) (rlx .dev) .fadd), (full 0x193 0xFF 10 12 0xFF 0xB4 8, .redh g (.v 10) (.v 12) { rlx .sys with order := .rel, bit2 := true } .xor),
  (full 0x174 0xFF 10 9 0xFF 0xFF 1, .pf g (.v 10) (.v 9) true), (full 0x1A0 0xFF 10 9 0xFF 0xE6 0, .cpy g (.v 10) (.v 9) none 38 .d2s false),
  (full 0x1A0 0xFF 0xE6 0xE8 0xF0 0xEA 0xC, .cpy g (.s 38) (.s 40) (some .zero) 42 .d2d true), (full 0x1A1 0xFF 10 9 11 1 8, .cpyx g 10 (.v 9) (some (.v 11)) true 8),
  (full 0x1A2 0xFF 9 10 0xFF 0xFF 0, .synci g (.v 9) (.v 10) none false), (full 0x1A3 0xFF 9 10 0xFF 0xFF 1, .syncw g none (.v 9) (.v 10) true),
  (full 0x1A8 0xFF 0xFF 0xFF 0xFF 0x98 0, .fence g { rlx .dev with order := .ar }), (full 0x1A9 0xFF 0xFF 0xFF 0xFF 0x80 0, .fenceXp g (rlx .dev)),
  (full 0x1AA 0xFF 0xFF 0xFF 0xFF 0xFF 0, .fencePt g), (full 0x1AB 8 10 12 14 0xFF 0, .publish g (.v 8) (.v 10) (.v 12) (.v 14))] = true := by decide

/-- R170, the span: E is the tile of B above the tile of A. -/
theorem test_words_span : reads [
  (full 0x1C0 0xFF 0xFF 0xFF 0xFF 0xFF 0, .hitch g), (full 0x1C1 0xFF 0xFF 0xFF 0xFF 0xFF 0, .unhitch g), (full 0x1C2 96 0xFF 0xFF 0xFF 0xFF 0, .spanAcq g 96),
  (full 0x1C3 160 0xFF 0xFF 0xFF 0xFF 0, .spanRel g 160), (full 0x1C3 32 0xE0 0xF1 0xFF 0xFF 3, .spanRelSt g 32 32 .lit true), (full 0x1C4 0 0xFF 0xFF 0xFF 0xFF 0, .spanZero g 0),
  (full 0x1C5 8 0xFF 0xFF 0xFF 6 0, .spanStat g (.v 8) 6), (full 0x1C6 2 8 0xC4 0xFF 0x50 0, .spanRbox g 2 8 4 5), (full 0x1C7 64 0xE0 0xE2 0xE4 0xFF 0, .spanLoop g 64 32 34 36 255),
  (full 0x1C8 64 0 0xE4 0xFF 0x10 0, .spanMmaBf16 g { d := 64, a := .run 0, b := .desc 36, bTile := 1, aTile := 0 }),
  (full 0x1C9 64 0xE2 0xE4 2 0x21 0, .spanMmaE4m3 g { d := 64, a := .desc 34, b := .desc 36, bTile := 2, aTile := 1 } 2),
  (full 0x1CA 64 0 0xE4 2 0x10 0, .spanMmaE5m2 g { d := 64, a := .run 0, b := .desc 36, bTile := 1, aTile := 0 } 2),
  (full 0x1CB 64 0 32 2 0x00 0, .spanMmaE2m1 g { d := 64, a := .run 0, b := .run 32, bTile := 0, aTile := 0 } 2),
  (full 0x1CC 64 0 40 3 0x00 0, .spanMmaW4bf g { d := 64, a := .run 0, b := .run 40, bTile := 0, aTile := 0 } 3),
  (full 0x1CD 64 0xE2 40 3 0x0F 0, .spanMmaWf4bf g { d := 64, a := .desc 34, b := .run 40, bTile := 0, aTile := 15 } 3),
  (full 0x1D0 64 0 0xE4 2 0x10 0, .spanMmaE4m3B32 g { d := 64, a := .run 0, b := .desc 36, bTile := 1, aTile := 0 } 2),
  (full 0x1D1 64 0 0xE4 2 0x10 0, .spanMmaE5m2B32 g { d := 64, a := .run 0, b := .desc 36, bTile := 1, aTile := 0 } 2),
  (full 0x1D2 64 0 0xE4 4 0x10 0, .spanMmaE2m1B32 g { d := 64, a := .run 0, b := .desc 36, bTile := 1, aTile := 0 } 4)] = true := by decide

/-- R263, R320, R385: the rasteriser, enqueues and the save instructions. -/
theorem test_words_system : reads [
  (full 0x1E0 0xFF 8 0xC4 2 0x0F 0, .rastEmit g 8 4 2 { p := 7, neg := true }), (full 0x1E1 0xFF 0xFF 0xFF 0xFF 0xFF 0, .pixOrd g),
  (full 0x1E2 0xFF 8 0xFF 0xFF 0xFF 1, .pixBlend g 8 .over), (full 0x1E3 2 0xFF 0xFF 0xFF 0xFF 0, .pixLd g 2),
  (full 0x1F0 4 0xE2 0xE4 0xE6 8 0, .enq g (.v 4) (.s 34) (.s 36) (.s 38) .any false), (full 0x1F0 4 0xE2 9 0xE6 7 1, .enq g (.v 4) (.s 34) (.v 9) (.s 38) (.vd 7) true),
  (full 0x1F0 0xF0 0xE2 9 0xE6 9 0, .enq g .zero (.s 34) (.v 9) (.s 38) .own false), (full 0x1F1 8 9 0xFF 0xFF 0xFF 0, .enqg g (.v 8) (.v 9)),
  (full 0x1F2 8 9 10 0xFF 0xFF 0, .dhops g (.v 8) (.v 9) (.v 10)), (full 0x1F3 0xFF 0xFF 0xFF 0xFF 0xFF 0, .savewC g), (full 0x1F3 0xFF 8 0xFF 0xFF 23 1, .savewV g 8 23),
  (full 0x1F3 0xFF 9 10 0xFF 0xFF 2, .savewS g (.v 9) (.v 10)), (full 0x1F4 0xFF 0xFF 0xFF 0xFF 0xFF 0, .restwC g), (full 0x1F4 0xFF 0 0xFF 0xFF 24 1, .restwV g 0 24),
  (full 0x1F4 0xFF 9 10 0xFF 0xFF 2, .restwS g (.v 9) (.v 10)), (full 0x1F5 0xFF 0xFF 0xFF 0xFF 0xFF 0, .yieldSaved g)] = true := by decide

/-- R61, R63: the guard's fields. -/
theorem test_words_guard : reads [
  (BitVec.ofNat 64 (0x10A * 2 ^ 54 + (2 ^ 40 - 1) * 2 ^ 14 + 3 * 2 ^ 11 + 2 ^ 10 + 1 * 2 ^ 8 + 5 * 2 ^ 5 + 2 ^ 4), .nop { p := 3, neg := true, comb := .and 5 true }),
  (BitVec.ofNat 64 (0x10A * 2 ^ 54 + (2 ^ 40 - 1) * 2 ^ 14 + 6 * 2 ^ 11 + 2 * 2 ^ 8), .nop { p := 6, neg := false, comb := .or 0 false })] = true := by decide

/-- R72: what is rejected, by its reason: no opcode, a used field out of class, an odd pair, a block out of line, a
register only a postilion has, an unused operand field, E or MOD out of range. A guard combination of 11 and the pair conflicts of R69. -/
theorem test_words_rejected : rejects [
  (full 0x1FF 0xFF 0xFF 0xFF 0xFF 0xFF 0, 0x01), (full 0x040 0xF3 0xF0 0xF0 0xFF 0xFF 0, 0x05), (full 0x01C 9 10 12 0xFF 0xFF 0, 0x07), (full 0x01C 8 11 12 0xFF 0xFF 0, 0x07),
  (full 0x1C2 176 0xFF 0xFF 0xFF 0xFF 0, 0x07), (full 0x01F 8 0xFF 0xFF 0xFF 0x80 0, 0x12), (full 0x000 8 9 10 0 0xFF 0, 0x03), (full 0x000 8 9 10 0xFF 0 0, 0x0F), (full 0x000 8 9 10 0xFF 0xFF 2, 0x0F),
  (full 0x00D 3 9 10 7 6 0, 0x0F), (full 0x150 8 9 10 0xFF 0xC0 2, 0x0F), (full 0x1F0 4 0xE2 9 0xE6 0x0A 0, 0x0F),
  (BitVec.ofNat 64 (0x10A * 2 ^ 54 + (2 ^ 40 - 1) * 2 ^ 14 + 3 * 2 ^ 8), 0x04), (pairWord 0x03 8 9 0xFF 0x00 12 9 0xFF, 0x0C),
  (pairWord 0x01 8 0 4 0x00 9 8 0xFF, 0x0D), (pairWord 0x07 8 9 10 0x7F 0xFF 0xFF 0xFF, 0x02)] = true := by decide

end Sys2Proof.Tests
end

