-- ==== Sys2Proof/Tests/Witnesses.lean ====
section
/-! SUPPORT. For each statement about the issue of a word, states and operands that meet its hypotheses: a wave of 32 lanes on the first
core whose word may issue, in the variants that the clauses ask for. -/

namespace Sys2Proof.Tests

open Sys2Proof.Machine

/-! ## A wave whose word may issue -/

/-- The word of NOP. -/
def nopWord : Word64 := (encode (.nop .always)).getD 0

/-- One wave, alone on the first core, about to issue. -/
def seat : State := State.reset.withWord nopWord

/-- A guard that is true in no lane. -/
def never : Guard := { p := 7, neg := true, comb := .only }

def onWave (s : State) (f : Wave → Wave) : State := { s with waves := s.waves.map f }
def onDesc (s : State) (f : Desc → Desc) : State := { s with batches := s.batches.map (fun b => { b with desc := f b.desc }) }
def onWg (s : State) (f : Workgroup → Workgroup) : State := { s with wgs := s.wgs.map f }

/-- The path of the wave: `m` lanes at word `idx` of a clause of `n` words, the other lanes at a header of their own. -/
def placed (s : State) (m : LaneMask) (n idx : Nat) : State :=
  onWave s (fun w => { w with paths :=
    { Path.at m 0x1000 with slot := true, clause := some { addr := 0x1000, head := plainHeader, words := List.replicate n nopWord, idx := idx } }
      :: (if m = allLanes then [] else [Path.at (~~~m) 0x2000]) })

/-- A lane register with one value in every lane. -/
def laneReg (r : Nat) (x : Word) : Map Word := (List.range 32).map (fun l => (32 * r + l, x))

/-- The issue of a state that has one. -/
def issueOf (s : State) : Issue :=
  s.issue?.getD { w := fetchWave 0, p := Path.at 0 0, c := { addr := 0, head := plainHeader, words := [], idx := 0 } }

/-- Nothing holds back the word of the path that issues. -/
def clear (s : State) : Bool :=
  let i := issueOf s
  s.issue?.isSome && s.running i.w && !s.hitchedAt i.w.core && s.copies.isEmpty && s.walks.isEmpty && i.w.marks.isEmpty
    && i.w.reads.isEmpty && i.w.spanHeld == 0 && !i.w.behind && !i.w.fencing && i.w.rf.bad.isEmpty

theorem ready_of_clear (s : State) (h : clear s = true) (mem : Bool) (regs held : List RegId) : Ready s (issueOf s) mem regs held := by
  simp only [clear, Bool.and_eq_true, Bool.not_eq_true', List.isEmpty_iff, beq_iff_eq] at h
  obtain ⟨⟨⟨⟨⟨⟨⟨⟨⟨⟨h1, h2⟩, h3⟩, h4⟩, h5⟩, h6⟩, h7⟩, h8⟩, h9⟩, h10⟩, h11⟩ := h
  refine ⟨⟨?_, h2, by simp [h4], by simp [h5], by simp [h6], by simp [h7], by simp [h8], by simp [h9], by simp [h10], h11⟩, h3⟩
  obtain ⟨i, hi⟩ := Option.isSome_iff_exists.mp h1
  simp [issueOf, hi]

/-- A word that moves paths may issue too. -/
theorem readyPath_of_clear (s : State) (h : clear s = true) (g : Guard) (toks srcs dests : List RegId) :
    ReadyPath s (issueOf s) g toks srcs dests := by
  refine ⟨ready_of_clear s h _ _ _, ?_⟩
  simp only [clear, Bool.and_eq_true, List.isEmpty_iff] at h
  simp [h.1.1.1.1.1.2]

/-! ## Instructions over registers -/

/-- For IntegerTwoSources, IntegerOneSource, IntegerThreeSources, IntegerPredicates, SelectMoveAddress, Float32, Float64, FloatCompares,
PackedAndDotProducts, ConvertAndPack, SpecialFunctions, PairWord, Shuffles, Votes, ReductionsAndScans and SpecialRegisterReads: every word
may issue, no flag traps, and every lane qualifies. -/
theorem witness_registers : (∀ mem regs held, Ready seat (issueOf seat) mem regs held) ∧ (∀ g fl, Untrapped seat (issueOf seat) g fl)
    ∧ (seat.descOf (issueOf seat).w).trapEn = 0 ∧ (issueOf seat).lanes .always = allLanes ∧ (issueOf seat).quiet := by
  have h : (seat.descOf (issueOf seat).w).trapEn = 0 := by decide
  refine ⟨ready_of_clear seat (by decide), fun g fl l _ => ?_, h, by decide, by unfold Issue.quiet; decide⟩
  rw [h]; simp

/-- For Rounding: `2 ^ k` with k > 0, and an encoding of each format that is no NaN. -/
theorem witness_Rounding : 0 < 1 ∧ ∀ f ∈ [fp64, fp32, fp16, bf16, e5m2, e4m3, e2m1], 1 < 2 ^ (f.eb + f.mb + 1) ∧ (f.value 1).isNan = false := by
  decide

/-- A postilion of the hub about to write a register of its site. -/
def seatPost : State := onWave seat (fun w => { w with post := some 8, core := 264, rf := { w.rf with v := laneReg 8 5 } })

/-- For SpecialRegisterWrites: a postilion's site, its lowest lane and the value there. -/
theorem witness_SpecialRegisterWrites : clear seatPost = true ∧ (issueOf seatPost).w.post = some 8
    ∧ lowestLane ((issueOf seatPost).lanes .always) = some 0 ∧ (issueOf seatPost).val (.v 8) 0 = 5
    ∧ seatPost.posts[8]? = some (Post.reset 8) := by decide

/-- For NoLaneQualifies. -/
theorem witness_NoLaneQualifies : clear seat = true ∧ (issueOf seat).lanes never = 0 := by decide

/-! ## Control transfer -/

/-- Sixteen lanes at the second word of three, the last lane registers holding an address. -/
def seatAt (target : Word) : State :=
  { onWave (placed seat 0x0000FFFF 3 1) (fun w => { w with rf := { w.rf with v := laneReg 8 target } }) with cur := some (6, 3) }

/-- For Branches: a target that is aligned in every lane, and one that is not. -/
theorem witness_Branches : clear (seatAt 0x4000) = true ∧ (issueOf (seatAt 0x4000)).lanes .always ≠ 0
    ∧ (∀ l, l < 32 → ((issueOf (seatAt 0x4000)).val64 (.v 8) .zext l).toNat % 8 = 0)
    ∧ clear (seatAt 0x4004) = true ∧ ((issueOf (seatAt 0x4004)).val64 (.v 8) .zext 0).toNat % 8 ≠ 0 := by decide

/-- Page tables of three levels that map the first GiB to the first GiB of pd0, for every access. -/
def withPages (s : State) : State :=
  let root := devBase + 0x100000
  ((s.setNum root 8 ((root + 0x1000) / 4096 * 1024 + 1)).setNum (root + 0x1000) 8 ((root + 0x2000) / 4096 * 1024 + 1)).setNum
    (root + 0x2000) 8 (devBase / 4096 * 1024 + 0xDF)

/-- A subroutine at 0x4000 whose budget word is its caller's budget. -/
def seatCall (budget : Nat) : State := (withPages (seatAt 0x4000)).setNum (devBase + 0x3FF8) 8 budget

/-- For Calls: the least and the greatest budget that its caller can give. -/
theorem witness_Calls : ∀ b ∈ [8, 192], clear (seatCall b) = true ∧ (issueOf (seatCall b)).lanes .always ≠ 0
    ∧ (seatCall b).codeWord (issueOf (seatCall b)).w 0x3FF8 = .ok (BitVec.ofNat 64 b, devBase + 0x3FF8) ∧ (seatCall b).bad = []
    ∧ 8 ≤ b ∧ b ≤ min 192 (issueOf (seatCall b)).w.budget ∧ b % 8 = 0 := by decide

/-- For Calls: budgets that no caller can give, in a wave that has a handler. -/
theorem witness_Calls_budget : ∀ b ∈ [0, 7, 12, 200],
    let s := onDesc (seatCall b) (fun d => { d with handler := 0x3000 })
    clear s = true ∧ Trappable s (issueOf s) ∧ (issueOf s).w.behind = false
      ∧ s.codeWord (issueOf s).w 0x3FF8 = .ok (BitVec.ofNat 64 b, devBase + 0x3FF8) ∧ s.bad = []
      ∧ ¬ (8 ≤ b ∧ b ≤ min 192 (issueOf s).w.budget ∧ b % 8 = 0) := by
  unfold Trappable; decide

/-- Lanes 16 to 31 wait at j0 for the lanes that issue. -/
def seatJoin : State :=
  let head : Header := plainHeader
  let waitj : Word64 := (encode (.waitj .always 0)).getD 0
  onWave (seatAt 0) (fun w => { w with
    rf := { w.rf with j := [(0, 0xFFFFFFFF), (1, 0x3)], a := [(0, 0xFFFF0000)] }
    paths := w.paths.take 1 ++ [{ Path.at 0xFFFF0000 0x2000 with
      clause := some { addr := 0x2000, head := head, words := [waitj], idx := 0 }, waiting := true }] })

/-- For RejoinMasks: WAITJ brings the last lanes, and another path waits. -/
theorem witness_RejoinMasks : clear seatJoin = true ∧ (issueOf seatJoin).quiet ∧ (issueOf seatJoin).lanes .always ≠ 0
    ∧ ((issueOf seatJoin).w.rf.join 0 &&& ~~~((issueOf seatJoin).w.rf.came 0 ||| (issueOf seatJoin).lanes .always)) = 0
    ∧ ∃ p ∈ (issueOf seatJoin).w.paths, p.lanes &&& (issueOf seatJoin).p.lanes = 0 ∧ p.lanes ≠ 0 ∧ p.waitsAt 0 = true := by
  unfold Issue.quiet; decide

/-- For ExitYieldNop: some lanes of a wave, and the last word of a clause. -/
theorem witness_ExitYieldNop : clear seat = true ∧ (issueOf seat).c.idx + 1 = (issueOf seat).c.words.length ∧ clear (seatAt 0) = true
    ∧ (issueOf (seatAt 0)).c.idx + 1 ≠ (issueOf (seatAt 0)).c.words.length ∧ (issueOf seat).lanes .always ≠ 0 := by decide

/-! ## Traps -/

/-- A launch with a handler, every cause enabled; the operands of an addition that overflows. -/
def seatTrap : State :=
  onWave (onDesc (seatAt 0x7F7FFFFF) (fun d => { d with handler := 0x3000, trapEn := 0x1F })) (fun w => w)

/-- The same wave inside its handler, every lane's trap point a header. -/
def seatHandler : State :=
  onWave seatTrap (fun w => { w with trap := { w.trap with
    inHandler := true, code := 3, cause := 3, pts := (List.range 32).map (fun l => (l, { hdr := 0x4000, idx := 1, waitOnly := false })) } })

/-- For UserTraps: a wave that may trap, flags that meet an enable, a token that is with the span, the handler itself, no handler. -/
theorem witness_UserTraps : clear seatTrap = true ∧ Trappable seatTrap (issueOf seatTrap) ∧ (issueOf seatTrap).lanes .always ≠ 0
    ∧ (seatTrap.descOf (issueOf seatTrap).w).dbgAttach = false ∧ (issueOf seatTrap).w.behind = false
    ∧ (fp32.add .rne false 0x7F7FFFFF 0x7F7FFFFF).fl.extractLsb' 0 5 &&& (seatTrap.descOf (issueOf seatTrap).w).trapEn ≠ 0
    ∧ (issueOf seatTrap).val (.v 8) 0 = 0x7F7FFFFF
    ∧ (issueOf (onWave seatTrap (fun w => { w with spanHeld := 1 }))).w.spanHeld.getLsbD (8 / 32) = true
    ∧ clear seatHandler = true ∧ (issueOf seatHandler).w.trap.inHandler = true
    ∧ clear seat = true ∧ (issueOf seat).w.trap.inHandler = false ∧ (seat.descOf (issueOf seat).w).handler = 0 := by
  unfold Trappable; decide

/-- For ReturnFromTrap: lanes in the handler, by their trap points and to an address; and lanes that are not in it. -/
theorem witness_ReturnFromTrap :
    let s := onWave seatHandler (fun w => { w with rf := { w.rf with v := laneReg 8 0x4000 } })
    clear s = true ∧ (issueOf s).quiet ∧ (issueOf s).w.trap.inHandler = true ∧ (issueOf s).lanes .always &&& (issueOf s).w.trap.returned = 0
      ∧ (issueOf s).lanes .always ≠ 0 ∧ (issueOf s).w.trap.preempt = false
      ∧ (∀ l, l < 32 → (Map.find (issueOf s).w.trap.pts l).map (fun p => p.hdr.toNat % 8) = some 0)
      ∧ (∀ l, l < 32 → (issueOf s).val64 (.v 8) .zext l = 0x4000)
      ∧ clear seatTrap = true ∧ (issueOf seatTrap).w.trap.inHandler = false := by
  unfold Issue.quiet; decide

/-- For Breakpoints: a launch with a debugger attached. -/
theorem witness_Breakpoints :
    let s := onDesc seatTrap (fun d => { d with dbgAttach := true })
    clear s = true ∧ (issueOf s).quiet ∧ (issueOf s).lanes .always ≠ 0 ∧ (s.descOf (issueOf s).w).dbgAttach = true
      ∧ (s.descOf (issueOf s).w).stopScope = 0 := by
  unfold Issue.quiet; decide

end Sys2Proof.Tests
end

