-- ==== Sys2Proof/Tests/WitnessesMemory.lean ====
section
/-! SUPPORT. For each statement about barriers, memory, copies and the span, states and operands that meet the hypotheses of its
clauses, at the bounds that its clauses name. -/

namespace Sys2Proof.Tests

open Sys2Proof.Machine

/-! ## Barriers -/

/-- A workgroup of four waves; `m` lanes at a word, the count of an arrival in `v8`. -/
def seatBar (m : LaneMask) (count : Word) : State :=
  { onWg (onWave (placed seat m 3 1) (fun w => { w with rf := { w.rf with v := laneReg 8 count } })) (fun g => { g with waves := 4 }) with
    cur := some (6, 3) }

/-- An operation in flight. -/
def inFlight (op : Nat) (ins : Instr) (mask : LaneMask) (ps : List Piece) (aux : List Nat) : Access :=
  { op := op, instr := ins, word := nopWord, addr := 0x1008, hdr := 0x1000, mask := mask, pieces := ps, maps := [], aux := aux
    started := false }

/-- The path waits at its word; the wave's ticket at name 0 is 3 and the generation of name 0 is `gen`. -/
def seatWait (only : Bool) (gen : Nat) : State :=
  onWg (onWave (seatBar 0x0000FFFF 2) (fun w => { w with
    bar := { w.bar with arrived := 1, ticket := [(0, 3)] }
    paths := w.paths.map (fun p => { p with waiting := p.clause.isSome, waitOnly := only && p.clause.isSome }) }))
    (fun g => { g with bars := [(0, { expect := 2, count := 1, gen := gen, held := true })] })

/-- The same path, waiting for generation 3, or with an arrival of the wave at name 0 that is not counted. -/
def seatWaits (k : Option Nat) (ops : List Access) : State :=
  onWave (seatWait true 3) (fun w => { w with ops := ops, paths := w.paths.map (fun p => { p with gen := k }) })

/-- Lanes 0 to 15 at an arrival, of which some have arrived at name 0 or have come there a second time; of the first a generation that has
ended may have freed some. -/
def seatTwice (mask again freed : LaneMask) : State :=
  onWave (seatBar 0x0000FFFF 2) (fun w => { w with
    bar := { w.bar with mask := [(0, mask)], again := [(0, again)], freed := [(0, freed)] } })

/-- For NamedBarriers: an arrival of all lanes, of some, with a count above the workgroup's waves; a wait that ends and one that does not,
at the turn of the 16-bit generation. -/
theorem witness_NamedBarriers :
    (∀ m ∈ [allLanes, 0x0000FFFF], ∀ n ∈ [(0 : Word), 4, 5], clear (seatBar m n) = true ∧ (issueOf (seatBar m n)).lanes .always = m
      ∧ ((seatBar m n).wg? 5).isSome = true ∧ (issueOf (seatBar m n)).w.ops = [] ∧ (issueOf (seatBar m n)).p.waitOnly = false
      ∧ Map.get 0 (issueOf (seatBar m n)).w.bar.mask 0 = 0 ∧ Map.get 0 (issueOf (seatBar m n)).w.bar.again 0 = 0
      ∧ (seatBar m n).barEntries 0 < 64)
    ∧ (∀ x ∈ [((0xFF : LaneMask), (0 : LaneMask), (0 : LaneMask)), (0, 0xFF, 0), (0xFF, 0, 0xFF)], let s := seatTwice x.1 x.2.1 x.2.2
      clear s = true ∧ (Map.get 0 (issueOf s).w.bar.mask 0, Map.get 0 (issueOf s).w.bar.again 0, Map.get 0 (issueOf s).w.bar.freed 0) = x
      ∧ Map.get 0 (issueOf s).w.bar.mask 0 &&& (issueOf s).lanes .always = x.1 ∧ ((issueOf s).lanes .always &&& (x.1 ||| x.2.1)) ≠ 0)
    ∧ (∀ only ∈ [true, false], ∀ gen ∈ [2, 3, 4, 0x8002], clear (seatWait only gen) = true ∧ (issueOf (seatWait only gen)).p.waitOnly = only
      ∧ (issueOf (seatWait only gen)).w.bar.arrived.getLsbD 0 = true ∧ (issueOf (seatWait only gen)).lanes .always ≠ 0)
    ∧ (∀ k ∈ [none, some 2, some 3], clear (seatWaits k []) = true ∧ (issueOf (seatWaits k [])).p.gen = k)
    ∧ (let s := seatWaits none [inFlight 3 (.barArr .always 0 (.v 8)) allLanes [] [3]]
      clear s = true ∧ (issueOf s).w.ops.any (fun o => o.arrives == some 0) = true) := by
  simp only [List.mem_cons, List.not_mem_nil, or_false, forall_eq_or_imp, forall_eq]
  and_intros <;> decide

theorem witness_movedPast : movedPast 4 3 ∧ movedPast 0x8002 3 ∧ ¬ movedPast 3 3 ∧ ¬ movedPast 2 3 ∧ movedPast 0 0xFFFF := by
  unfold movedPast; decide

/-- An arrival in flight at name 2 that asks for 3 waves, where `n` of `expect` have come. -/
def seatArr (n expect : Nat) : State :=
  onWg (onWave (seatBar allLanes 3) (fun w => { w with ops := [inFlight 3 (.barArr .always 2 (.v 8)) allLanes [] [3]] }))
    (fun g => { g with bars := [(2, { expect := expect, count := n, gen := 0xFFFF, held := true })] })

/-- For BarrierGenerations: the first arrival, the last, and one whose count differs. -/
theorem witness_BarrierGenerations : ∀ x ∈ [(0, 0), (2, 3), (1, 4)],
    let s := seatArr x.1 x.2
    let w := (issueOf s).w
    s.accessOf 3 = none ∧ s.opOf 3 = some (w, inFlight 3 (.barArr .always 2 (.v 8)) allLanes [] [3]) ∧ s.wave? w.uid = some w
      ∧ (s.wg? w.wg).map (fun g => (g.uid, (Map.get Bar.zero g.bars 2).held)) = some (w.wg, true) ∧ s.released w 3 1 = true
      ∧ w.mayPerform 3 allLanes true = true ∧ s.powered w = true ∧ w.live ≠ 0 ∧ w.bar.arrived.getLsbD 2 = false ∧ w.post = none := by
  simp only [List.mem_cons, List.not_mem_nil, or_false, forall_eq_or_imp, forall_eq]
  and_intros <;> decide

/-- A phase word at an offset, with a count or a phase in `v9`. -/
def seatPhase (off n : Word) : State :=
  onWave (seatBar 0x0000FFFF 0) (fun w => { w with rf := { w.rf with v := laneReg 8 off ++ laneReg 9 n } })

/-- The path waits for a phase of the word at an offset. -/
def seatPhaseWait (off : Nat) (ph : Word) : State :=
  onWave (seatPhase 12 5) (fun w => { w with
    paths := w.paths.map (fun p => { p with waiting := p.clause.isSome, phase := some (off, ph) }) })

/-- For PhaseBarriers: the last word of the scratchpad, the first beyond it, one that is not aligned; counts at the bounds; both phases. -/
theorem witness_PhaseBarriers :
    (∀ off ∈ [(0 : Word), 0x7FF8, 0x8000, 12], ∀ n ∈ [(0 : Word), 1, 65535, 65536], clear (seatPhase off n) = true
      ∧ (issueOf (seatPhase off n)).val (.v 8) 0 = off ∧ (issueOf (seatPhase off n)).val (.v 9) 0 = n
      ∧ (issueOf (seatPhase off n)).w.ops = [] ∧ (issueOf (seatPhase off n)).lanes .always ≠ 0)
    ∧ (∀ x ∈ [(0x7FF8, (1 : Word)), (0, 0)], clear (seatPhaseWait x.1 x.2) = true
      ∧ (issueOf (seatPhaseWait x.1 x.2)).p.waiting = true ∧ (issueOf (seatPhaseWait x.1 x.2)).p.phase = some x)
    ∧ ((seatPhase 0 0).descOf (issueOf (seatPhase 0 0)).w).scratch * 32768 = 0x8000
    ∧ (toBytes 2 3 ++ toBytes 2 2 ++ [0, 0, 0, 0]).length = 8 := by
  simp only [List.mem_cons, List.not_mem_nil, or_false, forall_eq_or_imp, forall_eq]
  and_intros <;> decide

/-- The path waits at GBAR, its arrival counted with ticket 4; the generations of the gang and of the batch. -/
def seatGbar (gen : Nat) (rel : Option Release) : State :=
  let s := onWave (seatWait true 3) (fun w => { w with
    bar := { w.bar with gcounted := true, gticket := 4, kcounted := true, kticket := 4 } })
  { s with
    tick := 100, gangs := s.gangs.map (fun g => { g with gbarGen := gen })
    batches := s.batches.map (fun b => { b with gbarGen := gen, release := rel }) }

/-- For GridBarriers: arrivals of all lanes and of some; waits whose generation has ended, with the cluster admitted and not, or not ended. -/
theorem witness_GridBarriers :
    (∀ m ∈ [allLanes, 0x0000FFFF], (issueOf (seatBar m 0)).w.bar.gmask = 0 ∧ (issueOf (seatBar m 0)).w.gbarPending = false
      ∧ (issueOf (seatBar m 0)).w.bar.gcounted = false ∧ (issueOf (seatBar m 0)).w.bar.kcounted = false
      ∧ (issueOf (seatBar m 0)).p.waitOnly = false ∧ clear (seatBar m 0) = true)
    ∧ (∀ left ∈ [[], [0, 3]],
      let r : Release := { gen := 5, tick := 90, part := [0, 3], left := left, step := 0, away := [] }
      let s := seatGbar 5 (some r)
      clear s = true ∧ (issueOf s).p.waitOnly = true ∧ (issueOf s).w.bar.gcounted = true ∧ (issueOf s).w.gbarPending = false
        ∧ (issueOf s).w.bar.kcounted = true ∧ (issueOf s).w.bar.gmask &&& (issueOf s).p.lanes = 0 ∧ (s.gang? 4).map (fun x => x.gbarGen) = some 5
        ∧ (s.batch? 3).map (fun b => (b.gbarGen, b.release)) = some (5, some r) ∧ (issueOf s).w.core / 4 ∈ r.part)
    ∧ clear (seatGbar 4 none) = true ∧ 5 = (4 + 1) % 2 ^ 16 := by
  simp only [List.mem_cons, List.not_mem_nil, or_false, forall_eq_or_imp, forall_eq]
  and_intros <;> decide

/-- A batch whose one wave has arrived, last at tick 968; a release in progress. -/
def seatGrid (tick : Nat) (rel : Option Release) (count : Nat) : State :=
  { onWave seat (fun w => { w with
      bar := { w.bar with gcounted := true, gticket := 0xFFFF, kcounted := true, kticket := 0 } }) with
    tick := tick, admitTick := 996, admitCount := count, gangs := seat.gangs.map (fun x => { x with gbarCame := [6] })
    batches := seat.batches.map (fun b => { b with
      gbarCame := [6], gbarLast := 968, gbarGen := 0xFFFF, gbarArr := [(0, 900), (3, 968), (5, 950)], release := rel }) }

/-- For GridCompletions: complete at the 32nd tick and not before it; a release in a new step of 5 ticks and in the same step; a gang's. -/
theorem witness_GridCompletions :
    let find (s : State) : Option Batch := s.batches.find? (fun x => x.node == 2 && x.seq == 0)
    (∀ t ∈ [999, 1000, 1001], let s := seatGrid t none 3
      (find s).map (fun b => (b.gbarCame, b.gbarLast, b.count * b.desc.waveCount, b.gbarGen)) = some ([6], 968, 1, 0xFFFF)
      ∧ (s.gangs.flatMap s.wavesOf).map (fun w => (w.uid, w.bar.gcounted, w.bar.gticket, w.bar.kcounted, w.bar.kticket)) = [(6, true, 0xFFFF, true, 0)]
      ∧ s.spokes.all (fun x => 400 * x.intervals != t + 1) = true ∧ s.batches.all (fun b => b.release.isNone) = true)
      ∧ (∀ n ∈ [0, 3, 7], (find (seatGrid 1000 (some ⟨1, 995, [0, 1], [0, 1], 1, []⟩) n)).bind (fun b => b.release)
        = some ⟨1, 995, [0, 1], [0, 1], 1, []⟩)
      ∧ (seatGrid 1000 (some ⟨1, 995, [0, 1], [0, 1], 1, []⟩) 3).batches.any (seatGrid 1000 none 3).gridDue = false
      ∧ (∀ x ∈ (seatGrid 1000 none 3).batches, x.node = 2) ∧ 995 + 5 * 1 ≤ 1000
      ∧ (seat.gang? 4).map (fun x => (x.gbarCame, x.size)) = some ([], 1)
      ∧ ((seatGrid 1000 none 3).gang? 4).map (fun x => (x.gbarCame, x.gbarGen)) = some ([6], 0) := by
  simp only [List.mem_cons, List.not_mem_nil, or_false, forall_eq_or_imp, forall_eq]
  and_intros <;> decide

/-- For LatenessRanks: the first and the last die. -/
theorem witness_LatenessRanks : 0 < 8 ∧ 7 < 8 ∧ seat.clusters.length = 64 := by
  and_intros <;> decide

/-! ## Loads, stores, atomics -/

/-- The mapping of an address, where it translates. -/
def mapOf (s : State) (va : Nat) : Mapped :=
  match s.xlate (issueOf s).w Want.copyRead va with
  | .ok m => m
  | _ => { pa := 0, pbmt := 0, lease := 0, atom := false, va := 0, size := 0, ptes := [] }

/-- Lanes whose address is in `v8` and `v9`, an offset in `v10`. -/
def seatMem (a hi off : Word) : State :=
  onWave (seatBar 0x0000FFFF 0) (fun w => { w with rf := { w.rf with v := laneReg 8 a ++ laneReg 9 hi ++ laneReg 10 off } })

/-- For Loads, Stores and AtomicsAndPrefetch: the last word of the scratchpad and one beyond it, an aligned and another address of device
memory, below and above 2^32; an empty waybill, one that is not, and a full one. -/
theorem witness_Loads_Stores_Atomics :
    (∀ a ∈ [(0x7FFC : Word), 0x7FFD, 0x4000, 0x4002], ∀ hi ∈ [(0 : Word), 1], clear (seatMem a hi 0) = true
      ∧ (issueOf (seatMem a hi 0)).lanes .always ≠ 0 ∧ (issueOf (seatMem a hi 0)).val (.v 8) 15 = a
      ∧ ((issueOf (seatMem a hi 0)).val64 (.v 8) .zext 0).toNat = a.toNat + hi.toNat * 2 ^ 32
      ∧ (issueOf (seatMem a hi 0)).w.waybill = [] ∧ (issueOf (seatMem a hi 0)).w.post = none)
    ∧ (∀ n ∈ [1, 7, 8], let s := onWave (seatMem 0x4000 0 0) (fun w => { w with waybill := List.replicate n (inFlight 3 (.stg .always (.v 8)
        .zero .zero { scope := .dev, order := .rlx, bit2 := false, hint := .norm } .b32) 1 [] []) })
      clear s = true ∧ (issueOf s).w.waybillLoad = n ∧ (issueOf s).w.waybill ≠ []) := by
  simp only [List.mem_cons, List.not_mem_nil, or_false, forall_eq_or_imp, forall_eq]
  and_intros <;> decide

/-- What a translation comes to: 0 a mapping, 1 a fault, 2 an unbound virtual die, 3 a wait. -/
def trKind (t : Tr) : Nat :=
  match t with
  | .ok _ => 0
  | .bad _ _ _ => 1
  | .unbound => 2
  | .refused => 3

/-- For the clauses of StoreIssues, in Stores and AtomicsAndPrefetch: a store whose address is mapped, to no page, to no die, and to a page
that is changing; a mapping that carries no atomic at system scope; an IO access that is not aligned. -/
theorem witness_StoreIssues :
    let s := withPages (seatMem 0x4000 0 0)
    let changing := { s with ptPend := [{ num := 1, pte := 0, ranges := [(1, 0, 0x10000)], wave := 6, op := 1 }] }
    let want := Want.store false
    clear s = true ∧ clear changing = true ∧ s.xlate (issueOf s).w want 0x4000 = .ok (mapOf s 0x4000) ∧ s.isIo (mapOf s 0x4000) = false
      ∧ trKind ((seatMem 0x4000 0 0).xlate (issueOf (seatMem 0x4000 0 0)).w want 0x4000) = 1
      ∧ trKind (s.xlate (issueOf s).w want (2 ^ 53 + 0x4000)) = 2 ∧ trKind (changing.xlate (issueOf changing).w want 0x4000) = 3
      ∧ s.pathCause ⟨.device, { scope := .sys, order := .rlx, bit2 := false, hint := .norm }, 4⟩ .add (mapOf s 0x4000) = some 1
      ∧ s.pathCause ⟨.device, { scope := .dev, order := .rlx, bit2 := false, hint := .norm }, 4⟩ .add (mapOf s 0x4000) = none
      ∧ s.isIo { mapOf s 0x4000 with pa := 0 } = true
      ∧ badIo ⟨.host, { scope := .sys, order := .rlx, bit2 := false, hint := .norm }, 4⟩
          { lane := 0, addr := 0x4002, len := 4, x := [], y := [], got := [], done := false } = true := by
  and_intros <;> decide

/-- For AccessPieces: aligned, across a boundary, at the top of the space. -/
theorem witness_AccessPieces : ∀ x ∈ [(16, 16), (13, 4), (2 ^ 64 - 4, 4)], x.2 ∈ [1, 2, 4, 8, 16] ∧ x.1 + x.2 ≤ 2 ^ 64 := by
  simp only [List.mem_cons, List.not_mem_nil, or_false, forall_eq_or_imp, forall_eq]
  and_intros <;> decide

/-- A load, a store and an atomic of the scratchpad in flight. -/
def seatPad (load store : Option Access) : State :=
  onWave (seatBar allLanes 0) (fun w => { w with access := load, ops := store.toList })

/-- For ScratchAccesses. -/
theorem witness_ScratchAccesses :
    let rlx : Attr := { scope := .wg, order := .rlx, bit2 := false, hint := .norm }
    let pieces (b : List Byte) : List Piece := (lanesOf 0x00000003).reverse.map (fun l =>
      { lane := l, addr := 4 * l, len := 4, x := b, y := [], got := [], done := false })
    let ld := inFlight 3 (.lds .always (.v 20) (.v 8) .zero rlx .b32) 3 (pieces []) []
    let st := inFlight 3 (.sts .always (.v 8) .zero .zero rlx .b32) 3 (pieces [1, 2, 3, 4]) []
    let at_ := inFlight 3 (.ats .always (.v 20) (.v 8) .zero (some .zero) rlx .cas) 1
      [{ lane := 0, addr := 4, len := 4, x := [1, 2, 3, 4], y := [0, 0, 0, 0], got := [], done := false }] []
    (∀ a ∈ [ld, at_], let s := seatPad (some a) none
      s.accessOf 3 = some ((issueOf s).w, a) ∧ (issueOf s).w.ops = [] ∧ s.powered (issueOf s).w = true ∧ (issueOf s).w.unconf = [])
    ∧ (seatPad none (some st)).accessOf 3 = none ∧ (seatPad none (some st)).opOf 3 = some ((issueOf (seatPad none (some st))).w, st)
    ∧ (issueOf (seatPad none (some st))).w.live ≠ 0 ∧ ((seatPad none none).wg? 5).isSome = true := by
  simp only [List.mem_cons, List.not_mem_nil, or_false, forall_eq_or_imp, forall_eq]
  and_intros <;> decide

/-- For AtomicOperations: the greatest word and doubleword. -/
theorem witness_AtomicOperations : ∀ n ∈ [4, 8], 2 ^ (8 * n) - 1 < 2 ^ (8 * n) := by
  simp only [List.mem_cons, List.not_mem_nil, or_false, forall_eq_or_imp, forall_eq]
  and_intros <;> decide

/-- A write at stage 2 whose bytes cross a sector. -/
def seatHome : State :=
  { seat with writes := [{ op := 9, wave := 6, ctx := 1, l1 := 0, spoke := 0, va := 0x103E, pa := devBase + 0x103E, data := [5, 0, 0, 1], lane := 0, stage := 2
                           need := 3, frame := false, shown := 0 }] }

/-- For StoresReachHome. -/
theorem witness_StoresReachHome : seatHome.accessOf 9 = none ∧ seatHome.opOf 9 = none ∧ seatHome.billOf 9 = none
    ∧ seatHome.writes.filter (fun y => y.op == 9) = seatHome.writes ∧ seatHome.writes.length = 1
    ∧ ∀ x ∈ seatHome.writes, x.stage = 2 ∧ x.frame = false ∧ x.data ≠ [] ∧ seatHome.writes.count x = 1 := by
  and_intros <;> decide

/-! ## Copies, fences, PUBLISH -/

/-- A loop descriptor of one level: bound, strides. -/
def loopBytes (n src dst : Nat) : List Byte := [1, 0, 0, 0] ++ toBytes 4 n ++ toBytes 4 src ++ toBytes 4 dst ++ List.replicate 48 0

/-- Pages mapped; a descriptor at 0x8000, named by `s2`; the addresses of a copy in `v8`, `v9` and `v10`, its sync word in `s4`. -/
def seatCopy (src dst sync desc : Word) : State :=
  onWave ((withPages (seatBar 0x0000FFFF 0)).setBytes (devBase + 0x8000) (loopBytes 4 16 16)) (fun w => { w with rf := { w.rf with
    v := laneReg 8 src ++ laneReg 10 dst, s := [(2, desc), (4, sync)] } })

/-- Where a copy of the wave reads, 0 where it does not translate. -/
def pageOf (s : State) (va : Nat) : Nat := (mapOf s va).pa

/-- The copy that such a wave starts. -/
def copyOf (s : State) : CopyOp :=
  let i := issueOf s
  { op := 7, wave := 6, core := 0, instr := .cpy .always (.v 8) (.v 10) (some (.s 4)) 2 .d2s false, word := i.word, addr := i.addr, hdr := i.c.addr
    src := (i.val64 (.v 8) .zext 0).toNat, dst := (i.val (.v 10) 0).toNat, desc := 0x8000, sync := some (i.val (.s 4) 0).toNat
    levels := some [(4, 16, 16)], rows := [], upto := 0, done := [], counted := 0, stopped := false, dead := false
    mask := i.lanes .always }

/-- For CopiesFencesPublish: room for a copy and none; a copy that ends with the scratchpad and one unit beyond it, operands that are not aligned, a descriptor that is
not; row addresses, sync words and PUBLISH at their bounds. -/
theorem witness_CopiesFencesPublish :
    let full := { seatCopy 0x4000 0x7FC0 0x7FF0 0x8000 with copies := List.replicate 4 { copyOf (seatCopy 0 0 0 0) with stopped := true } }
    (∀ x ∈ [(0x4000, 0x7FC0, 0x7FF0, true), (0x4000, 0x7FD0, 0x7FF0, false), (0x4004, 0x7FC0, 0x7FF0, true)],
      let s := seatCopy x.1 x.2.1 x.2.2.1 0x8000
      clear s = true ∧ s.mayCopy (issueOf s).w = true ∧ s.copyClear (issueOf s).w s.fresh .device 0x8000 64 = true ∧ (issueOf s).val64 (.s 2) .zext 0 = 0x8000 ∧ (issueOf s).lanes .always ≠ 0
        ∧ pageOf s 0x8000 = devBase + 0x8000
        ∧ s.bad = [] ∧ parseLoop (s.bytesAt (devBase + 0x8000) 64) 16 = some [(4, 16, 16)]
        ∧ s.copyFits (issueOf s).w (copyOf s) = x.2.2.2)
    ∧ full.mayCopy (issueOf full).w = false ∧ clear { full with copies := [] } = true
    ∧ (issueOf (seatCopy 0 0 0 0x8010)).val64 (.s 2) .zext 0 = 0x8010 ∧ clear (seatCopy 0 0 0 0x8010) = true
    ∧ (issueOf (seatCopy 0x4000 0x7F00 0x7FF0 0)).val (.v 10) 0 = 0x7F00 ∧ 0x7F00 + 16 * 16 ≤ 0x8000 := by
  simp only [List.mem_cons, List.not_mem_nil, or_false, forall_eq_or_imp, forall_eq]
  and_intros <;> decide

/-- A copy of four units with a sync word, of which `n` are done, in a direction: from and to device memory or a scratchpad. -/
def unitOf (dir : CpyDir) (n : Nat) : CopyOp :=
  { copyOf (seatCopy 0x4000 0x100 0x7FF0 0x8000) with
    instr := .cpy .always (.v 8) (.v 10) (some (.s 4)) 2 dir false, src := if dir.srcDev then 0x4000 else 0x200
    dst := if dir.dstDev then 0x5000 else 0x100, upto := n, counted := n }
def seatUnit (dir : CpyDir) (n : Nat) : State := { seatCopy 0x4000 0x100 0x7FF0 0x8000 with copies := [unitOf dir n] }

/-- For CopyUnits: a descriptor at the bounds of its fields, a sync word, and the first and last unit of a copy in each direction. -/
theorem witness_CopyUnits :
    (∀ x ∈ ([(2 ^ 32 - 1, -(2 ^ 31), 2 ^ 31 - 16), (1, 0, 16)] : List (Nat × Int × Int)), 0 < x.1 ∧ x.1 < 2 ^ 32
      ∧ ∀ y ∈ [x.2.1, x.2.2], -(2 ^ 31) ≤ y ∧ y < 2 ^ 31 ∧ y % 16 = 0)
    ∧ (2 ^ 32 - 1) * 1 < 2 ^ 32
    ∧ ∀ dir ∈ [CpyDir.d2s, .d2c, .s2d, .c2d, .d2d], ∀ n ∈ [0, 3],
      let s := seatUnit dir n
      let w := (issueOf s).w
      s.copies = [unitOf dir n] ∧ w.uid = (unitOf dir n).wave ∧ ((s.wg? 5).map (fun g => g.padBad)) = some []
      ∧ (s.walks, w.ops, w.waybill, w.access, w.unconf) = ([], [], [], none, []) ∧ (unitOf dir n).sync = some 0x7FF0
      ∧ (s.writes, s.lines, s.ptPend, s.tlb) = ([], [], [], []) ∧ (s.filters, s.choices, s.bad) = ([], [], []) ∧ s.powered w = true
      ∧ (unitOf dir n).levels = some [(4, 16, 16)] ∧ n < 4 ∧ (s.gang? 4).map (fun x => x.state) = some .resident
      ∧ (s.wgs.map (fun x => x.uid)).Nodup ∧ (s.wgs.find? (fun x => x.gang == w.gang && x.member == 0)).map (fun x => x.uid) = some 5
      ∧ s.xlate w Want.copyRead (0x4000 + 16 * n) = .ok (mapOf s (0x4000 + 16 * n))
      ∧ trKind (s.xlate w (Want.copyWrite false) (0x5000 + 16 * n)) = 0 ∧ s.isIo (mapOf s (0x5000 + 16 * n)) = false
      ∧ 0x100 + 16 * n + 16 ≤ 0x7FF0 := by
  simp only [List.mem_cons, List.not_mem_nil, or_false, forall_eq_or_imp, forall_eq]
  and_intros <;> decide

end Sys2Proof.Tests
end

