-- ==== Sys2Proof/Tests/WitnessesSpan.lean ====
section
/-! SUPPORT. For each statement about steps of the memory system, the span, the rasteriser, work and its saving, states and operands
that meet the hypotheses of its clauses. -/

namespace Sys2Proof.Tests

open Sys2Proof.Machine

/-! ## Steps of the memory system -/

/-- A fault that waits for its record, in a ring of 64 records. -/
def fault1 : Filter :=
  { id := 0xFFFFFFFF, ctx := 1, page := 0x5000, cluster := 0, cores := [0], waiters := [(6, 3)], access := 1, cause := 2, level := 0, pte := 0
    iter := some [1, 2], rep := true, written := false, replayed := false, todo := [], kinds := [] }
def ring1 (tail : Nat) : FaultRing := { base := devBase + 0x9000, enable := true, sizeLog := 6, head := 0, tail := tail }
def seatFault (tail : Nat) : State := { seat with filters := [fault1], faultRings := ring1 tail :: seat.faultRings.tail }

/-- A value consumed after its lease, read as version `v`, expired at tick 0; the checkpoint behind it. -/
def lapsed (v : Nat) : Unconfirmed := { va := 0x4000, pa := devBase + 0x4000, version := v, lease := 64, expired := 0, sent := 0 }
def behind : Snapshot := { rf := { RegFile.zero with fpstat := 3 }, paths := [Path.at allLanes 0x5000], op := 3, bar := .zero }
def seatLapsed (v tick : Nat) : State :=
  onWave { seat with
    tick := tick, vers := [((devBase + 0x4000) / 64, 7)]
    lines := [{ place := .l2 0, ctx := 1, va := 0x4000, pa := devBase + 0x4000, data := List.replicate 64 0, born := 1, grant := 0, expiry := some 0
                version := 7, bad := false }] } (fun w => { w with unconf := [lapsed v], ckpt := some behind })

/-- A store at the head of a waybill; a fence beside its wave. -/
def storePiece : Piece := { lane := 0, addr := 0x4000, len := 4, x := [1, 2, 3, 4], y := [], got := [], done := false }
def billStore : Access :=
  inFlight 3 (.stg .always (.v 8) .zero .zero { scope := .die, order := .rlx, bit2 := false, hint := .norm } .b32) 1 [storePiece] []
def seatBill : State := onWave (withPages seat) (fun w => { w with waybill := [billStore] })
def fenceDev : Access := inFlight 4 (.fence .always { scope := .dev, order := .ar, bit2 := false, hint := .norm }) allLanes [] []
def seatFence (first : List Access) : State := onWave seat (fun w => { w with ops := first ++ [fenceDev] })

/-- A page-table write short of its completion, beside what was derived from the old entry. -/
def seatPt : State :=
  { seat with
    ptPend := [{ num := 3, pte := devBase + 0x102000, ranges := [(1, 0, 0x40000000)], wave := 6, op := 9 }]
    tlb := [{ spoke := 0, ctx := 1, va := 0, size := 0x40000000, pa := devBase, ptes := [devBase + 0x100000, devBase + 0x102000], dies := [0] }]
    lines := [{ place := .l2 0, ctx := 1, va := 0x4000, pa := devBase + 0x4000, data := List.replicate 64 0, born := 1, grant := 0, expiry := none
                version := 0, bad := false }] }

/-- For MemorySystemSteps: a record at the last free place and at another place of a ring, a renewal of an unchanged and of a changed value and one
that comes too late, a store that translates at the head of a waybill, a fence with nothing and with a store before it, a page-table write. -/
theorem witness_MemorySystemSteps :
    (∀ n ∈ [5, 62], (seatFault (n + 64)).filters.find? (fun x => x.id == 0xFFFFFFFF && !x.written && !x.replayed) = some fault1
      ∧ ((seatFault (n + 64)).ctx? 1).map (fun c => c.faultRing) = some 0 ∧ (seatFault (n + 64)).faultRings[0]? = some (ring1 (n + 64))
      ∧ (n + 64 + 1) % 2 ^ 6 ≠ 0 ∧ (seatFault (n + 64)).writes = [])
    ∧ (seatFault 127).faultRings[0]? = some (ring1 127) ∧ (127 + 1) % 2 ^ 6 = (ring1 127).head
    ∧ (∀ x ∈ [(7, 100000, true), (7, 100001, false), (6, 0, false)],
      let s := seatLapsed x.1 x.2.1
      (s.wave? 6).map (fun w => (w.unconf, w.ckpt, w.access)) = some ([lapsed x.1], some behind, none)
        ∧ (s.wave? 6).map (fun w => (w.trap.pend, w.dbgWant, w.core, w.ctx)) = some (none, false, 0, 1)
        ∧ (s.lines.map (fun l => (l.ctx, l.va, l.place))) = [(1, (lapsed x.1).va, .l2 0)]
        ∧ (s.version (lapsed x.1).pa = (lapsed x.1).version ∧ s.tick ≤ (lapsed x.1).expired + 100000 ↔ x.2.2 = true))
    ∧ ((seatBill.wave? 6).map (fun w => (w.waybill, w.ops)) = some ([billStore], []) ∧ seatBill.blocked 6 3 = false
      ∧ (seatBill.wave? 6).map (fun w => (w.unconf, w.post, seatBill.powered w)) = some ([], none, true) ∧ seatBill.lines = []
      ∧ seatBill.classes = [] ∧ (mapOf seatBill 0x4000).pbmt = 0 ∧ billStore.pieces = [storePiece] ∧ storePiece.done = false ∧ billStore.started = false
      ∧ pageOf seatBill 0x4000 = devBase + 0x4000 ∧ seatBill.physKind (devBase + 0x4000) = .device)
    ∧ (seatFence []).opOf 4 = some ((issueOf (seatFence [])).w, fenceDev) ∧ (seatFence []).accessOf 4 = none ∧ (seatFence []).writes = []
    ∧ (seatFence []).powered (issueOf (seatFence [])).w = true ∧ (issueOf (seatFence [])).w.unconf = [] ∧ (issueOf (seatFence [])).w.access = none
    ∧ (seatFence []).ioWrites = [] ∧ (∀ o ∈ (issueOf (seatFence [])).w.ops, o.op < 4 → o.writes = false) ∧ (issueOf (seatFence [])).w.waybill = []
    ∧ (seatFence [billStore]).opOf 4 = some ((issueOf (seatFence [billStore])).w, fenceDev) ∧ billStore.op < 4 ∧ billStore.writes = true
    ∧ seatPt.ptPend.find? (fun x => x.num == 3) = seatPt.ptPend.head? ∧ seatPt.ptPend.length = 1 ∧ seatPt.writes = []
    ∧ (∀ w ∈ seatPt.waves, ∀ x ∈ w.inHand, x.partly = false) := by
  simp only [List.mem_cons, List.not_mem_nil, or_false, forall_eq_or_imp, forall_eq]
  and_intros <;> decide

/-! ## The span -/

def onSpan (s : State) (f : Span → Span) : State := s.updCluster 0 (fun c => { c with span := f c.span })

/-- The wave of `seatMem`, the span owned by it or not, with tokens of the blocks in `held`. -/
def seatSpan (owner : Option Nat) (held : BitVec 6) (a : Word) : State :=
  onSpan (onWave (onDesc (withPages (seatMem a 0 128)) (fun d => { d with handler := 0x3000 })) (fun w => { w with
      spanHeld := held, rf := { w.rf with s := [(2, a), (4, 0x08000000), (5, 0x800), (6, 0x9000), (8, 0x8000)] } }))
    (fun k => { k with owner := owner, hitched := owner.isSome })

/-- The word of the path that issues may run, the tokens of the blocks in `held` with the span. -/
def runs (s : State) (held : BitVec 6) : Bool :=
  let i := issueOf s
  s.issue?.isSome && s.running i.w && s.copies.isEmpty && s.walks.isEmpty && i.w.marks.isEmpty && i.w.reads.isEmpty && i.w.spanHeld == held
    && !i.w.behind && !i.w.fencing && i.w.rf.bad.isEmpty

theorem mayRun_of_runs (s : State) (held : BitVec 6) (h : runs s held = true) (mem : Bool) (regs kept : List RegId)
    (ht : ∀ n, RegId.v n ∈ regs → held.getLsbD (n / 32) = false) : MayRun s (issueOf s) mem regs kept := by
  simp only [runs, Bool.and_eq_true, Bool.not_eq_true', List.isEmpty_iff, beq_iff_eq] at h
  obtain ⟨⟨⟨⟨⟨⟨⟨⟨⟨h1, h2⟩, h3⟩, h4⟩, h5⟩, h6⟩, h7⟩, h8⟩, h9⟩, h10⟩ := h
  obtain ⟨i, hi⟩ := Option.isSome_iff_exists.mp h1
  exact ⟨by simp [issueOf, hi], h2, by simp [h3], by simp [h4], by simp [h5], by simp [h6], fun n hn => by rw [h7]; exact ht n hn, by simp [h8],
    by simp [h9], h10⟩

/-- An operation of the span in flight, and its entry. -/
def spanOp (ins : Instr) (aux : List Nat) (m : LaneMask) : Access :=
  inFlight 3 ins m ((List.range 32).map (fun l =>
    { lane := l, addr := 0, len := 0, x := (List.range 128).map (fun k => BitVec.ofNat 8 (k * 7 + l)), y := (List.range 128).map (fun k =>
        BitVec.ofNat 8 (k * 5 + 3 * l)), got := List.replicate 16 0x7F, done := false })) aux
def spanEntry (kind : SpanKind) (block : Option Nat) : SpanEntry :=
  { op := 3, wave := 6, prio := 4, block := block, kind := kind, order := 3, skipped := 0 }
def seatPass (e : SpanEntry) (x : Access) (running : Bool) : State :=
  onSpan (onWave seat (fun w => { w with ops := [x], spanHeld := 1, bound := [⟨3, 2⟩] }))
    (fun k => { k with entries := [e], hitched := running, pass := if running then [e] else [], passes := if running then 1 else 0 })
def mmaBf16 : Instr := .spanMmaBf16 .always { d := 0, a := .run 32, b := .run 64, bTile := 0, aTile := 0 }
def boxTest : Instr := .spanRbox .always 8 16 4 0

/-- An open tenure without a pass, its last pass over at tick 100. -/
def seatIdle (tick : Nat) : State := onSpan { seat with tick := tick } (fun k => { k with hitched := true, owner := some 6, idle := 100 })

/-- A loop walk that a pre-emption has stopped. -/
def walk1 : Walk :=
  { op := 3, wave := 6, core := 0, word := nopWord, addr := 0x1008, hdr := 0x1000, instr := .spanLoop .always 32 2 4 6 0, block := 1, mask := allLanes
    a := 0, b := 0, c := 0, stage := 0, levels := some [(4, 128, 128)], n := 0, fetch := 0, done := [], posted := false, stopped := true
    stopping := false, dead := false, flags := 0 }
def seatWalk : State := { seat with walks := [walk1] }

/-- The state of `seatSpan` with a loop descriptor of one level at 0x8000. -/
def seatLoop (owner : Option Nat) (held : BitVec 6) (a : Word) : State :=
  (seatSpan owner held a).setBytes (devBase + 0x8000) (loopBytes 4 128 128)

/-- For SpanWords: words that may run with the tenure and without it, tokens with the span and with the wave, operand descriptors and
buffers that pass their checks and that do not, at the bound of the scratchpad. -/
theorem witness_SpanWords :
    (∀ x ∈ ([(none, 1, 0x8000), (some 6, 1, 0x8000), (some 9, 0x3E, 0x8010)] : List (Option Nat × BitVec 6 × Word)),
      let s := seatLoop x.1 x.2.1 x.2.2
      runs s x.2.1 = true ∧ (issueOf s).lanes .always ≠ 0 ∧ (s.cluster 0).span.owner = x.1 ∧ (s.cluster 0).span.entries.length + 4 ≤ 32
        ∧ (issueOf s).w.uid = 6 ∧ (issueOf s).w.core / 4 = 0 ∧ (issueOf s).w.waybillLoad < 8 ∧ (s.descOf (issueOf s).w).scratch = 1
        ∧ (s.descOf (issueOf s).w).gang = 0 ∧ (issueOf s).val64 (.s 2) .zext 0 = x.2.2.zeroExtend 64 ∧ (issueOf s).val (.v 10) 0 = 128
        ∧ (issueOf s).val64 (.s 4) .zext 0 = 0x80008000000 ∧ (issueOf s).val64 (.s 6) .zext 0 = 0x9000
        ∧ s.copyRoom 0 2 = true ∧ s.copyClear (issueOf s).w s.fresh .device 0x8000 64 = true ∧ s.bad = [])
    ∧ (issueOf (seatLoop none 1 0x8000)).val64 (.s 8) .zext 0 = 0x8000
    ∧ (match (seatLoop none 1 0x8000).xlate (issueOf (seatLoop none 1 0x8000)).w Want.loopRead 0x8000 with
      | .ok m => parseLoop ((seatLoop none 1 0x8000).bytesAt m.pa 64) 128
      | _ => none) = some [(4, 128, 128)]
    ∧ (let v := 0x80008000000
      v / 2 ^ 60 = 0 ∧ v % 2 ^ 20 % 16 = 0 ∧ v / 2 ^ 20 % 2 ^ 16 = 128 ∧ v / 2 ^ 36 % 2 ^ 20 = 128
        ∧ v % 2 ^ 20 + 15 * (v / 2 ^ 36 % 2 ^ 20) + 31 * 128 + 127 < 32768)
    ∧ 4 * 4096 + 16384 ≤ 32768 ∧ ¬ 5 * 4096 + 16384 ≤ 32768 ∧ ¬ (128 ≤ 0x8000 / 2 ^ 20 % 2 ^ 16) := by
  simp only [List.mem_cons, List.not_mem_nil, or_false, forall_eq_or_imp, forall_eq]
  and_intros <;> decide

/-- For SpanWords: a word with no lane, a row bound to no die, and a postilion. -/
theorem witness_SpanWords_forms :
    runs (seatLoop none 1 0x8000) 1 = true ∧ (issueOf (seatLoop none 1 0x8000)).lanes never = 0
    ∧ (let s := seatLoop none 1 0x8000
      trKind (s.xlate (issueOf s).w (Want.store false) (2 ^ 53 + 0x8000)) = 2 ∧ trKind (s.xlate (issueOf s).w (Want.store false) 0x8000) = 0)
    ∧ (let s := onWave (seatLoop none 1 0x8000) (fun w => { w with post := some 0, core := 256 })
      runs s 1 = true ∧ s.blockBusy (issueOf s).w 0 s.fresh = false ∧ (issueOf s).w.post ≠ none) := by
  and_intros <;> decide

/-- For SpanWords: a core with 1,023 copies in flight, none of them dead, which has no room for a walk's two. -/
theorem witness_SpanLoop_full :
    let s := { seatLoop none 1 0x8000 with copies := List.replicate 1023 (copyOf (seatCopy 0 0 0 0)) }
    s.copyRoom 0 2 = false ∧ (∀ c ∈ s.copies, c.dead = false) ∧ runs { s with copies := [] } 1 = true := by
  refine ⟨?_, fun c hc => ?_, by decide⟩
  · have h : (copyOf (seatCopy 0 0 0 0)).core = 0 := rfl
    have w : (seatLoop none 1 0x8000).walks = [] := rfl
    have hf : (List.replicate 1023 (copyOf (seatCopy 0 0 0 0))).filter (fun c => c.core == 0)
        = List.replicate 1023 (copyOf (seatCopy 0 0 0 0)) := List.filter_replicate_of_pos (by rw [h]; rfl)
    simp only [State.copyRoom, w, hf, List.length_replicate, List.filter_nil, List.length_nil]; decide
  · rw [List.eq_of_mem_replicate hc]; rfl

/-- The entries of the passes below. -/
def quarter3 : SpanEntry := spanEntry (.quarter 3) (some 0)
def boxEntry : SpanEntry := spanEntry .rbox none
def seatQuarter (running : Bool) : State := seatPass quarter3 (spanOp mmaBf16 [1, 0, 0, 0] 0xFF000000) running
def seatBox (running : Bool) : State := seatPass boxEntry (spanOp boxTest [1, 0, 0, 0x08000000] 0xF0F1) running

/-- For SpanSteps: an entry that is ready, a pass of the last quarter and a pass of a box test, a tenure that has idled 10 ticks and one
that has not, a stopped walk. -/
theorem witness_SpanSteps :
    ((seatQuarter false).cluster 0).span.hitched = false ∧ ((seatQuarter false).cluster 0).span.coolUntil ≤ (seatQuarter false).tick
    ∧ ((seatQuarter false).cluster 0).modeTo = none ∧ ((seatQuarter false).cluster 0).span.entries = [quarter3]
    ∧ (seatQuarter false).entryReady quarter3 = true ∧ 0 < (seatQuarter false).clusters.length
    ∧ (let s := seatQuarter true
      (s.cluster 0).span.hitched = true ∧ (s.cluster 0).span.entries = [quarter3] ∧ (s.cluster 0).span.pass = [quarter3]
        ∧ (s.cluster 0).span.owner = none ∧ s.waves.length = 1 ∧ (issueOf s).w.ops.map (fun x => (x.op, x.mask, x.aux)) = [(3, 0xFF000000, [1, 0, 0, 0])]
        ∧ (issueOf s).w.ckpt = none ∧ (issueOf s).w.uid = 6 ∧ (issueOf s).w.live ≠ 0)
    ∧ (mmaForm mmaBf16).isSome = true ∧ (mmaOps mmaBf16).isSome = true
    ∧ (∀ l < 32, (0xFF000000 : LaneMask).getLsbD l = true → l / 8 = 3)
    ∧ (let s := seatBox true
      (s.cluster 0).span.hitched = true ∧ (s.cluster 0).span.entries = [boxEntry] ∧ (s.cluster 0).span.pass = [boxEntry]
        ∧ (s.cluster 0).span.owner = none ∧ s.waves.length = 1 ∧ (issueOf s).w.ops.map (fun x => (x.op, x.mask, x.aux)) = [(3, 0xF0F1, [1, 0, 0, 0x08000000])]
        ∧ (issueOf s).w.ckpt = none ∧ (issueOf s).w.uid = 6)
    ∧ ((seatIdle 110).cluster 0).span.hitched = true ∧ ((seatIdle 110).cluster 0).span.owner = some 6
    ∧ ((seatIdle 110).cluster 0).span.pass = [] ∧ ((seatIdle 110).cluster 0).span.idle + 10 ≤ (seatIdle 110).tick
    ∧ (seatIdle 109).tick < ((seatIdle 109).cluster 0).span.idle + 10 ∧ (issueOf (seatIdle 109)).w.ops = []
    ∧ seatWalk.walks = [walk1] ∧ (seatWalk.wave? 6).map (fun w => (w.uid, w.marks, w.reads)) = some (6, [], [])
    ∧ seatWalk.copyRoom 0 2 = true ∧ walk1.levels.isSome = true ∧ (seatWalk.gang? (issueOf seatWalk).w.gang).map (fun x => x.state) = some .resident ∧ seatWalk.blocked 6 3 = false := by
  and_intros <;> decide

end Sys2Proof.Tests
end

