-- ==== Sys2Proof/Tests/WitnessesWork.lean ====
section
/-! SUPPORT. For each statement about the rasteriser, new work, saving and the start of clauses, states and operands that meet the
hypotheses of its clauses. -/

namespace Sys2Proof.Tests

open Sys2Proof.Machine

/-! ## The rasteriser -/

/-- A pass of the node with two draws of one and two primitives, one of which covers pixels of its only tile. -/
def pass1 : Pass :=
  { num := 3, block := 0x8000, pa := devBase + 0x8000, node := 2, ctx := 1, tilesX := 1, tilesY := 1, drawBase := 0, counts := [1, 2], desc := fetchDesc
    descAddr := 0x7000, target := 0x100000, pitch := 256, format := 0, owners := [0], emitted := [(0, 1)]
    prims := [{ seq := 0, draw := 0, prim := 0, payload := 5, xs := [0, 0, 1024, 0, 0, 1024], dies := [0] }], released := [], queue := [], turns := []
    blended := [] }

/-- A fragment of it. -/
def frag1 (x y : Nat) : Fragment :=
  { id := 9, pass := 3, seq := 0, draw := 0, prim := 0, x := x, y := y, payload := 5, b1 := 0, b2 := 0, turn := false, done := false }

/-- A wave that emits the pass's second draw, its lanes' primitives in `v8` to `v15`. -/
def seatEmit (block prim : Word) (wait : Bool) : State :=
  { onWave (seatBar 1 0) (fun w => { w with
      rf := { w.rf with v := [(32 * 14, prim), (32 * 15, 1)], s := [(2, block)] }
      paths := w.paths.map (fun p => { p with waitOnly := wait && p.clause.isSome }) }) with passes := [pass1], cur := some (6, 0) }

/-- A fragment wave of it. -/
def seatFrag : State :=
  { onWave (placed seat 0x3 3 1) (fun w => { w with frags := [(0, frag1 1 2), (1, frag1 2 1)] }) with passes := [pass1] }

/-- A pass whose draws are all released, with fragments left and without. -/
def seatRast (queue : List (Nat × Fragment)) : State :=
  { seat with passes := [{ pass1 with released := [(0, 2)], queue := queue, prims := [] }] }

/-- What the emissions of such a wave are refused for, on the pass of a node. -/
def emitted (s : State) (node : Nat) : Option Nat :=
  s.emitReason { pass1 with node := node } (issueOf s).w.node ((lanesOf ((issueOf s).lanes .always)).map (fun l => (issueOf s).w.rf.laneRun 8 8 l))

/-- For Raster: emissions that are accepted, one behind a count and one of a block that is not aligned; fragment waves; two triangles with
one edge; draws that are closed and open; fragments left, and none; a pass whose fragments are done and one whose are not. -/
theorem witness_Raster :
    (∀ x ∈ [((0x8000 : Word), (0 : Word), false), (0x8000, 2, false), (0x8010, 0, false), (0x8000, 0, true)],
      let s := seatEmit x.1 x.2.1 x.2.2
      clear s = true ∧ (issueOf s).lanes .always ≠ 0 ∧ (issueOf s).p.waitOnly = x.2.2 ∧ (issueOf s).val64 (.s 2) .zext 0 = x.1.zeroExtend 64
        ∧ (s.node? (issueOf s).w.node).isSome = true ∧ pass1.node = (issueOf s).w.node
        ∧ s.passes.find? (fun p => p.block.toNat == 0x8000 && p.ctx == (issueOf s).w.ctx) = some pass1
        ∧ (issueOf s).w.emitting (issueOf s).p.lanes = false ∧ (issueOf s).w.frags = [])
    ∧ emitted (seatEmit 0x8000 0 false) 2 = none ∧ emitted (seatEmit 0x8000 2 false) 2 = some 0x18
    ∧ emitted (seatEmit 0x8000 0 false) 9 = some 0x19 ∧ emitted (seatEmit 0x8000 2 false) 9 = some 0x18
    ∧ clear seatFrag = true ∧ (issueOf seatFrag).w.frags = [(0, frag1 1 2), (1, frag1 2 1)] ∧ (issueOf seatFrag).lanes .always = 0x3
    ∧ (let t := triOf [0, 0, 1024, 0, 0, 1024]
      let u := triOf [1024, 0, 1024, 1024, 0, 1024]
      t.x 1 = u.x 3 ∧ t.y 1 = u.y 3 ∧ t.x 2 = u.x 2 ∧ t.y 2 = u.y 2 ∧ t.covers 1 1 = true)
    ∧ (let s := { seat with passes := [pass1] }
      s.pass? 3 = some pass1 ∧ (s.node? 2).map (fun n => n.spawn != 0) = some true ∧ 0 ∈ pass1.owners ∧ Map.get 0 pass1.released 0 = 0 ∧ pass1.counts.getD 0 0 ≤ Map.get 0 pass1.emitted 0
        ∧ (triOf [0, 0, 1024, 0, 0, 1024]).covers 1 1 = true)
    ∧ (let p := { pass1 with released := [(0, 1)] }
      Map.get 0 p.released 0 < p.counts.length ∧ Map.get 0 p.emitted 1 < p.counts.getD 1 0)
    ∧ (let q := [(0, frag1 1 2), (0, frag1 2 1), (0, frag1 1 2)]
      ((seatRast q).pass? 3).map (fun p => (p.queue.filter (fun x => x.1 == 0)).map (fun x => x.2)) = some (q.map (fun x => x.2))
        ∧ ((seatRast q).node? 2).isSome = true ∧ (seatRast q).choices = [])
    ∧ ((seatRast []).pass? 3).map (fun p => (p.released, p.counts.length, p.queue)) = some ([(0, 2)], 2, [])
    ∧ (∀ b ∈ (seatRast []).batches, b.frags = []) ∧ ((seatRast []).node? 2).map (fun n => n.spawn != 0) = some true := by
  simp only [List.mem_cons, List.not_mem_nil, or_false, forall_eq_or_imp, forall_eq]
  and_intros <;> decide

/-! ## ENQ, ENQG -/

/-- A region below region 0, with a limit of workgroups in flight; region 0 limits nothing. -/
def rgn (num enq watchdog : Nat) : Region :=
  { num := num, parent := 0, valid := true, prio := 4, boostOk := true, faultDomain := num = 1, override := 0xFF, coreLimit := 0xFFFF
    scratchLimit := 0xFFFF, enqLimit := enq, energyLimit := 0, timeSlice := 0, watchdog := watchdog, malformed := false, named := 0
    windowLimit := some 0, energyTotal := 0, windowsCapped := 0, preempts := 0, kills := 0, charge := 0, capped := false }
def withRgns (s : State) (enq watchdog : Nat) : State := { s with regions := [rgn 0 0xFFFFFFFF 0, rgn 1 enq watchdog] }

/-- A launch descriptor at 0x7000 (R32): ENTRY 0x4000, one general wave of 192 registers, the stride of its save record. -/
def descBytes : List Byte :=
  [0, 0x40] ++ List.replicate 0x17 0 ++ [0x75] ++ List.replicate 6 0 ++ [1, 0, 0, 0, 24] ++ List.replicate 0x1B 0 ++ [1] ++ List.replicate 0xBF 0

/-- An ENQ of `n` waves, or an ENQG of a slot, that waits for its answer; `full` is the live count its region's limit allows. -/
def pendEnq (n ref : Nat) (isG : Bool) : PendEnq :=
  { op := 3, instr := if isG then .enqg .always (.v 20) (.v 8) else .enq .always (.v 20) (.v 8) .zero .zero .own false, mask := 0xF0, lane := 4
    desc := 0x7000, count := n, arg := 9, ref := BitVec.ofNat 32 ref, isG := isG }
def seatEnq (e : PendEnq) : State :=
  onWave ((withPages (withRgns seat 3 0)).setBytes (devBase + 0x7000) descBytes) (fun w => { w with
    enqs := [e], marks := [⟨3, [.v 20]⟩], bound := [⟨3, 1⟩] })

/-- A ring of context 1 whose slot 2 holds a WAITING record with `preds` predecessors. -/
def seatSlot (ref preds : Nat) : State :=
  let s := seatEnq (pendEnq 0 ref true)
  ({ s with rings := s.rings.set 3 { Ring.reset with base := devBase + 0xA000, bound := true, sizeLog := 0, ctx := 1 } }.setNum (devBase + 0xA200) 4 1).setNum
    (devBase + 0xA204) 4 preds

set_option maxRecDepth 20000 in
/-- For Enqueues: an ENQ that issues and one behind eight others; ENQs of no wave, of as many as the limit lets in, of one more, and
beyond any count; an unreadable descriptor; ENQGs of slots with 0, 1 and 2 predecessors, of no ring, of no slot and of a record that does not
wait. -/
theorem witness_Enqueues :
    clear (onWave seat (fun w => { w with enqs := List.replicate 8 (pendEnq 1 0 false) })) = true
    ∧ (∀ n ∈ [0, 1, 2, 3, 4],
      let s := seatEnq (pendEnq n 0 false)
      s.wave? 6 = some (issueOf s).w ∧ (issueOf s).w.enqs = [pendEnq n 0 false] ∧ (s.node? (issueOf s).w.node).isSome = true
        ∧ (issueOf s).w.live ≠ 0 ∧ s.released (issueOf s).w 3 3 = true ∧ (issueOf s).w.mayPerform 3 0xF0 true = true
        ∧ (match s.readDesc (s.ctxOf 1) 1 0x7000 with | .ok d => d.region | _ => 9) = 0 ∧ (s.node? (issueOf s).w.node).map (fun x => x.region) = some 1
        ∧ s.enqFits 1 n true = decide (n ≤ 3) ∧ s.enqFits 1 n false = decide (n ≤ 2))
    ∧ (let s := seatEnq (pendEnq 1 0 false)
      let changing := { s with ptPend := [{ num := 1, pte := 0, ranges := [(1, 0, 0x10000)], wave := 6, op := 1 }] }
      (match s.readDesc (s.ctxOf 1) 1 0x7100 with | .error (.reason _) => true | _ => false) = true
        ∧ (match changing.readDesc (s.ctxOf 1) 1 0x7000 with | .error .wait => true | _ => false) = true)
    ∧ (∀ k ∈ [0, 1, 2],
      let s := seatSlot (2 ^ 31 + 3 * 65536 + 2) k
      (s.ring 3).bound = true ∧ (s.ring 3).ctx = 1 ∧ (s.ring 3).size = 16 ∧ s.numAt (s.slotAddr 3 2) 4 % 16 = 1
        ∧ s.numAt (s.slotAddr 3 2 + 4) 4 = k ∧ (issueOf s).w.ctx = 1 ∧ s.released (issueOf s).w 3 3 = true
        ∧ s.numAt (s.slotAddr 3 3) 4 % 16 = 0 ∧ (s.ring 4).bound = false)
    ∧ clear seat = true ∧ (issueOf seat).w.post = none ∧ (0 : Nat) % 256 = 0 ∧ (0 : Nat) / 2 ^ 53 % 8 = 0
    ∧ ((seat.ctx? (issueOf seat).w.ctx).bind (fun c => c.site 0)).isSome = true
    ∧ ((seat.ctx? (issueOf seat).w.ctx).bind (fun c => c.site 7)) = none := by
  simp only [List.mem_cons, List.not_mem_nil, or_false, forall_eq_or_imp, forall_eq]
  and_intros <;> decide

/-! ## Saving -/

/-- A wave in the handler of a PREEMPT it has taken, a save area behind it. -/
def seatSave (cause : Nat) (off len : Word) : State :=
  { onWave (onDesc (seatMem off 0 len) (fun d => { d with handler := 0x3000, saveBase := 0x100000, saveStride := 0x20000 })) (fun w => { w with
      trap := { w.trap with inHandler := cause != 0, code := cause, cause := cause, taken := true
                            pts := (List.range 32).map (fun l => (l, { hdr := 0x4000, idx := 3, waitOnly := l == 5 })) } }) with
    gangs := seat.gangs.map (fun g => { g with state := .handling }) }

/-- The control area of a save record: TRAPCODE 1, every lane unexited at word 8 of the clause at 0x4008. -/
def ctlBytes (info : Nat) : List Byte :=
  (List.range 0x5C8).map (fun k => BitVec.ofNat 8 (if k = 0 then info else if 0x100 ≤ k ∧ k < 0x120 then 8 else if 0x120 ≤ k ∧ k < 0x220 then
    (if k % 8 = 0 then 8 else if k % 8 = 1 then 0x40 else 0) else 0))
def ctlAccess (info : Nat) : Access :=
  inFlight 3 (.restwC .always) allLanes [{ lane := 0, addr := 0x100000, len := 0x5C8, x := [], y := [], got := ctlBytes info, done := true }] []

set_option maxRecDepth 20000 in
/-- For SaveWords: a handler of PREEMPT, of another trap, and none; ranges that end with the scratchpad, that reach beyond it and that are not
in units; a control area that is well formed and three that are not; a wave with a SAVEW in flight and one that is not asked to leave. -/
theorem witness_SaveWords :
    (∀ x ∈ [(1, (0x7F00 : Word), (0x100 : Word)), (1, 0x7F00, 0x200), (1, 0x180, 0x100), (0, 0, 0), (3, 0, 0)],
      let s := seatSave x.1 x.2.1 x.2.2
      clear s = true ∧ (issueOf s).lanes .always ≠ 0 ∧ ((issueOf s).w.trap.inHandler = true ↔ x.1 ≠ 0) ∧ (issueOf s).w.post = none
        ∧ (issueOf s).w.trap.cause = x.1 ∧ (issueOf s).val (.v 8) 0 = x.2.1 ∧ (issueOf s).val (.v 10) 0 = x.2.2
        ∧ s.ctlOf (issueOf s).w + 2 ^ 20 ≤ 2 ^ 64 ∧ s.areaOf (issueOf s).w + 1024 + 0x8000 < 2 ^ 64
        ∧ (s.descOf (issueOf s).w).scratch = 1 ∧ (issueOf s).w.ops = [] ∧ (issueOf s).w.trap.taken = true
        ∧ (s.gang? (issueOf s).w.gang).map (fun y => y.state) = some .handling)
    ∧ (∀ c ∈ [0x41, 0xC1, 0x48, 0x01],
      (ctlAccess c).pieces.flatMap (fun p => p.got) = ctlBytes c ∧ (ctlBytes c).length = 0x5C8)
    ∧ field (ctlBytes 0x41) 0 4 = 0x41 ∧ field (ctlBytes 0x48) 0 4 % 64 = 8 ∧ field (ctlBytes 0x41) 0x5C0 8 = 0
    ∧ (∀ l < 32, field (ctlBytes 0x41) (0x100 + l) 1 = 8 ∧ field (ctlBytes 0x41) (0x120 + 8 * l) 8 = 0x4008 ∧ field (ctlBytes 0x41) (0xE0 + l) 1 = 0)
    ∧ (issueOf (seatSave 1 0 0)).w.live &&& ~~~(issueOf (seatSave 1 0 0)).w.trap.returned ≠ 0
    ∧ (inFlight 5 (.savewC .always) 1 [] []).isSavew = true := by
  simp only [List.mem_cons, List.not_mem_nil, or_false, forall_eq_or_imp, forall_eq]
  and_intros <;> decide

/-! ## Clauses -/

/-- A header of two words that waits for the flags in `wait` and binds to none; a path at it, at 0x4000. -/
def headWord (wait : BitVec 12) : Word64 := encodeHeader { plainHeader with count := 2, wait := wait }
def seatClause (ws : List Word64) (entry : Nat) (marks : List Bound) : State :=
  onWave ((withPages seat).setBytes (devBase + 0x4000) (ws.flatMap (fun w => toBytes 8 w.toNat)))
    (fun w => { w with paths := [{ Path.at allLanes 0x4000 with entry := entry }], bound := marks })

/-- A clause whose second word is of no opcode. -/
def badWord : Word64 := 0x7FC00000003FF800

/-- A word that binds an operation to a flag. -/
def fenceWord : Word64 := (encode (.fencePt .always)).getD 0

/-- For ClauseStart: clauses that start at their first and at their second word, one held by its WAIT and one that goes on from a trap
point beside it, a malformed clause, a word that is no header, and a flag with room for one operation more and with none. -/
theorem witness_ClauseStart :
    (∀ x ∈ [((0 : BitVec 12), 0, ([] : List Bound)), (0, 2, []), (2, 0, []), (2, 0, [⟨3, 1⟩]), (2, 1, [⟨3, 1⟩])],
      let s := seatClause [headWord x.1, nopWord, nopWord] x.2.1 x.2.2
      (s.wave? 6).map (fun w => w.paths.map (fun p => (p.lanes, p.entry, p.clause.isNone))) = some [(allLanes, x.2.1, true)]
        ∧ (s.wave? 6).map (fun w => w.paths.any (fun p => p.waiting || p.halted || p.dbg || p.step) || w.dbgWant || w.trap.pend.isSome) = some false
        ∧ (s.wave? 6).map (fun w => s.running w && s.waveTurn w && w.paths.all (s.ranksFirst w)) = some true ∧ (s.wave? 6).map (fun w => w.flagCount 1) = some x.2.2.length
        ∧ s.numAt (devBase + 0x4000) 8 = (headWord x.1).toNat ∧ s.numAt (devBase + 0x4008) 8 = nopWord.toNat
        ∧ (s.wave? 6).map (fun w => clauseReason w.env (headerOf (headWord x.1)) [nopWord, nopWord]) = some none
        ∧ (headerOf (headWord x.1)).wait = x.1 ∧ x.2.1 - 1 < 2 ∧ s.bad = []
        ∧ (match s.wave? 6 with
          | some w => (match s.xlate w Want.fetch 0x4000 with | .ok m => some m.pa | _ => none)
          | none => none) = some (devBase + 0x4000))
    ∧ kindOf (headWord 2) = .header ∧ (headerOf (headWord 2)).count = 2 ∧ kindOf nopWord ≠ .header
    ∧ ((seatClause [headWord 0, nopWord, badWord] 0 []).wave? 6).map (fun w => (clauseReason w.env (headerOf (headWord 0)) [nopWord, badWord]).isSome)
        = some true
    ∧ ∀ n ∈ [14, 15],
      let h := encodeHeader { plainHeader with count := 1, seta := 1 }
      let s := seatClause [h, fenceWord] 0 (List.replicate n ⟨3, 1⟩)
      (s.wave? 6).map (fun w => (w.flagCount 1, w.flagOwed 1, clauseReason w.env (headerOf h) [fenceWord])) = some (n, 0, none)
        ∧ kindOf h = .header ∧ (headerOf h).count = 1 ∧ bindsTo (headerOf h) [fenceWord] 0 1 = 1
        ∧ ∀ f < 12, f ≠ 1 → bindsTo (headerOf h) [fenceWord] 0 f = 0 := by
  simp only [List.mem_cons, List.not_mem_nil, or_false, forall_eq_or_imp, forall_eq]
  and_intros <;> decide

end Sys2Proof.Tests
end

