-- ==== Sys2Proof/Tests/WitnessesDevice.lean ====
section
/-! SUPPORT. For each statement about the hub, the host, firmware, the debugger, scheduling and power, states and operands that meet the
hypotheses of its clauses. -/

namespace Sys2Proof.Tests

open Sys2Proof.Machine

/-! ## The hub -/

/-- A ring of 16 slots whose head is 14: slot 15 waits without a predecessor, slot 0 for one, slot 1 holds no WAITING record. -/
def seatRing : State :=
  let s := { withRgns seat 3 0 with rings := seat.rings.set 3 { Ring.reset with base := devBase + 0xA000, bound := true, ctx := 1, head := 14 } }
  ((s.setNum (devBase + 0xAF00) 4 1).setNum (devBase + 0xA000) 4 1).setNum (devBase + 0xA004) 4 1

/-- Region blocks in the table at 0x20000 (R357): region 0 limits nothing, region 1 is below it with PRIO `prio`. -/
def blockBytes (ctl : Nat) : List Byte :=
  toBytes 4 ctl ++ [0, 0, 0xFF, 0] ++ toBytes 2 0xFFFF ++ toBytes 2 0xFFFF ++ toBytes 4 0xFFFFFFFF ++ List.replicate 112 0
def withBlocks (s : State) (prio : Nat) : State :=
  ({ s with hub := { s.hub with rgnBase := devBase + 0x20000 } }.setBytes (devBase + 0x20000) (blockBytes 0x19)).setBytes (devBase + 0x20080)
    (blockBytes (prio * 2 + 0x21))

/-- A snapshot in progress. -/
def seatSnap : State := { seat with snap := { seat.snap with copying := some (3, [1, 2]) } }

set_option maxRecDepth 20000 in
/-- For HubRegisters: doorbells that are taken and that are not, an open and a replayed fault entry, a region with a running node and one never
read, a new reading that is well formed and one that is not, a snapshot in progress and none, rings that are busy and free, fault rings enabled
and not, contexts latched and none, and RESET_N low. -/
theorem witness_HubRegisters :
    seatRing.pins.reset = false ∧ seatRing.fw.state = 1 ∧ seatRing.pins.linkFailed = false ∧ (seatRing.ring 3).bound = true ∧ 3 < seatRing.rings.length
    ∧ (seatRing.ring 3).sizeLog = 0 ∧ (seatRing.ring 3).head = 14 ∧ (seatRing.ring 3).submitted = []
    ∧ seatRing.numAt (devBase + 0xAF00) 4 % 16 = 1 ∧ seatRing.numAt (devBase + 0xAF04) 4 = 0 ∧ seatRing.numAt (devBase + 0xA000) 4 % 16 = 1
    ∧ seatRing.numAt (devBase + 0xA004) 4 = 1 ∧ seatRing.numAt (devBase + 0xA100) 4 % 16 = 0 ∧ (seatRing.ring 4).bound = false
    ∧ (∃ f ∈ (seatFault 0).filters, f.id = 0xFFFFFFFF ∧ f.replayed = false) ∧ (∀ f ∈ (seatFault 0).filters, f.id = 5 → f.replayed = true)
    ∧ (let s := withRgns seat 3 0
      (s.region? 1).isSome = true ∧ (s.region? 2).isNone = true ∧ s.nodes.map (fun n => (n.uid, s.inDomain 1 n.region)) = [(2, true)] ∧ s.passes = [])
    ∧ (withBlocks seat 4).regionBad 1 = false ∧ ((withBlocks seat 4).region? 1).isNone = true
    ∧ ((withBlocks (withRgns seat 3 0) 4).region? 1).map (fun x => (x.named, x.malformed)) = some (0, false)
    ∧ (withBlocks (withRgns seat 3 0) 4).regionBad 1 = false
    ∧ ((withBlocks (withRgns seat 3 0) 4).parseRegion 1).malformed = false ∧ ((withBlocks (withRgns seat 3 0) 4).parseRegion 1).named = 0
    ∧ ((withBlocks (withRgns seat 3 0) 64).parseRegion 1).malformed = true
    ∧ seatSnap.snap.copying = some (3, [1, 2]) ∧ seat.snap.copying = none
    ∧ (∃ x ∈ seat.nodes, x.ring = 0) ∧ (∀ x ∈ seat.nodes, x.ring ≠ 63) ∧ seat.rings.length = 64
    ∧ (ring1 0).enable = true ∧ seat.faultRings.map (fun r => r.enable) = [false, false, false, false]
    ∧ seat.ctxs.length = 1 ∧ { seat with ctxs := [], nodes := [] }.ctxs = [] ∧ State.reset.pins.reset = true := by
  and_intros <;> decide

/-! ## The host and PCIe peers -/

/-- An inbound window over device memory from 0x10000, with LIMIT 0x20000, some bytes in it. -/
def seatPeer : State :=
  { seat.setBytes (devBase + 0x10000) [1, 2, 3, 4, 5] with
    pins := { seat.pins with perst := false }
    hub := { seat.hub with inwin := seat.hub.inwin.set 2 (devBase + 0x10000, devBase + 0x20001) } }

/-- For HostAndPeers: device memory, the management window, an access that an inbound window serves to its last byte and accesses that it does
not, an atomic that PCIe may ask for and one that it may not. -/
theorem witness_HostAndPeers :
    seatPeer.pins.reset = false ∧ seatPeer.pins.linkFailed = false ∧ seatPeer.writes = []
    ∧ seatPeer.pins.perst = false ∧ State.reset.pins.perst = true
    ∧ (seatPeer.homeOf (devBase + 0x1FFFC)).isSome = true ∧ seatPeer.homeOf (devBase + 0x1FFFF) = seatPeer.homeOf (devBase + 0x1FFFC)
    ∧ (∃ w ∈ seatPeer.hub.inwin, w.2 % 2 = 1 ∧ w.1 ≤ devBase + 0x1FFFC ∧ devBase + 0x1FFFC + 4 ≤ w.2 / 65536 * 65536)
    ∧ (∀ w ∈ seatPeer.hub.inwin, w.2 % 2 = 1 → devBase + 0x2FFFD < w.1 ∨ w.2 / 65536 * 65536 + 65536 < devBase + 0x2FFFD + 4)
    ∧ (∀ w ∈ seatPeer.hub.inwin, w.2 % 2 = 1 → devBase + 0xFFFF < w.1 ∨ w.2 / 65536 * 65536 + 65536 < devBase + 0xFFFF + 4)
    ∧ windowBase ≤ windowBase + 0x100 ∧ windowBase + 0x100 + 4 ≤ windowBase + 2 ^ 26 ∧ (windowBase + 0x100 - windowBase) % 4 = 0
    ∧ ¬ windowBase ≤ devBase + 0x1FFFC ∧ AtomOp.cas ∈ [AtomOp.add, .exch, .cas] ∧ AtomOp.xor ∉ [AtomOp.add, .exch, .cas] := by
  and_intros <;> decide

/-! ## Firmware -/

/-- Firmware that runs from slot A, a floor, and a slot A with an image header (R394). -/
def headerBytes (magic epoch size : Nat) : List Byte := toBytes 4 magic ++ toBytes 4 (epoch * 2 ^ 24) ++ toBytes 4 size ++ List.replicate 500 0
def seatFw (state : Nat) (header : List Byte) : State :=
  { seat with
    ctxs := [], fw := { seat.fw with state := state }
    board := { seat.board with flash := (List.range header.length).filterMap (fun k => if header.getD k 0 = 0 then none else some (k, header.getD k 0)) } }

set_option maxRecDepth 20000 in
/-- For Firmware: commands while booting and while running, with contexts and without; images without the magic number and of size 0, an EPOCH
above the floor, at it, and above 127; RECOVERY, flash that reads in error, a slot that runs beside one that does not, a request for one
slot's header behind another's, and heartbeats missed and not. -/
theorem witness_Firmware :
    (seatFw 0 []).pins.reset = false ∧ (seatFw 0 []).fw.cmds = [] ∧ (seatFw 0 []).fw.req = none ∧ (seatFw 1 []).ctxs = [] ∧ seat.ctxs.length = 1
    ∧ (seatFw 1 []).slotReason false = 1 ∧ (seatFw 1 (headerBytes 0x57465A4B 1 0)).slotReason false = 2
    ∧ (seatFw 1 []).runSlot = some false ∧ (seatFw 2 []).runSlot = some true ∧ (seatFw 3 []).runSlot = none
    ∧ (seatFw 1 (headerBytes 0x57465A4B 127 4096)).epoch false = 127 ∧ (seatFw 1 (headerBytes 0x57465A4B 128 4096)).epoch false = 128
    ∧ (seatFw 1 (headerBytes 0x57465A4B 0 4096)).epoch false = 0 ∧ (seatFw 1 []).board.floor = 0
    ∧ { seatFw 1 [] with board := { seat.board with flashBad := [3] } }.flashErr false 0 512 = true ∧ (seatFw 1 []).flashErr false 0 512 = false
    ∧ ofBytes ((seatFw 1 (headerBytes 0x57465A4B 1 4096)).flashBytes false 8 4) = 4096
    ∧ 8 ∈ (seatFw 1 []).postSites ∧ 9 ∉ (seatFw 1 []).postSites ∧ ((seatFw 1 []).posts.getD 8 (.reset 8)).beat = 0
    ∧ { seatFw 1 [] with tick := 3000000 }.tick = 0 + 3000000 ∧ ((seatFw 1 []).spoke 3).gated = true
    ∧ (0x13 : Word).toNat % 32 ≠ 3 ∧ (seatFw 1 []).writes = []
    ∧ { seatFw 4 [] with schedule := [.boot, .boot] }.schedule = .boot :: [.boot]
    ∧ (seatFw 4 []).slotReason true = 1 ∧ ¬ ((seatFw 1 []).fw.state = 0 ∨ (seatFw 1 []).fw.state = 4) ∧ (seatFw 4 []).fw.state = 4 := by
  and_intros <;> decide

/-! ## The debugger -/

/-- A wave at a debugger's stop, its data window filled with `b`, the mailbox free. -/
def seatDbg (stopped : Bool) (data : List Byte) : State :=
  { onWave (placed seat allLanes 3 1) (fun w => { w with rf := { w.rf with v := laneReg 8 5 }, paths := w.paths.map (fun p => { p with dbg := stopped }) }) with
    mail := { seat.mail with data := (List.range data.length).filterMap (fun k => if data.getD k 0 = 0 then none else some (k, data.getD k 0)) } }
def dbgTarget (kind : Nat) : DbgTarget := { num := 0, kind := kind }

set_option maxRecDepth 20000 in
/-- For Debugger: a wave that is stopped and one that is not, lanes that are held, ranges at the bound of the budget and beyond, a block with the
span, control fields that are well formed and not, a command that waits, events due with room and without. -/
theorem witness_Debugger :
    (seatDbg true []).pins.reset = false ∧ (seatDbg true []).mail.cmd = none ∧ (dbgTarget 0).num < 2 ^ 14
    ∧ ((seatDbg true []).dbgWave 0).map (fun w => w.uid) = some 6 ∧ ((seatDbg true []).dbgWave 1).isNone = true
    ∧ ((seatDbg true []).wave? 6).map (fun w => w.paths.all (fun p => p.dbg)) = some true
    ∧ ((seatDbg false []).wave? 6).map (fun w => w.paths.any (fun p => p.dbg)) = some false
    ∧ ((seatDbg true []).wave? 6).map (fun w => w.trap.pend.isNone) = some true
    ∧ ((seatDbg true []).wave? 6).map (fun w => decide (0xB0 + 16 ≤ w.budget ∧ ¬ 0xB1 + 16 ≤ w.budget)) = some true
    ∧ (0x10B0 : BitVec 32).toNat % 256 = 0xB0 ∧ (0x10B0 : BitVec 32).toNat / 256 % 32 = 16
    ∧ (seatDbg true []).waves.map (fun x => x.uid) = [6]
    ∧ ((onWave (seatDbg true []) (fun w => { w with spanHeld := 1 })).wave? 6).map (fun w => w.spanHeld.getLsbD (31 / 32)) = some true
    ∧ ctlBad (ctlBytes 0x41) = false ∧ ctlBad (ctlBytes 0x48) = true
    ∧ (5 : BitVec 32).toNat % 16 ≠ 1
    ∧ (0 + 1) % 28 ≠ 5 ∧ (4 + 1) % 28 = 5 ∧ seat.mail.events.length = 28 ∧ seat.mail.tail < 28 := by
  and_intros <;> decide

/-! ## What befalls the package -/

/-- An IO load in flight, sent at tick 0. -/
def ioLoad : Access :=
  { inFlight 3 (.ldh .always (.v 20) (.v 8) .zero { scope := .dev, order := .rlx, bit2 := false, hint := .norm } .b32) 5
      [{ lane := 0, addr := 0, len := 4, x := [], y := [], got := [], done := false },
       { lane := 2, addr := 8, len := 4, x := [], y := [], got := [], done := false }] [0] with started := true }
def seatIo (tick : Nat) : State := { onWave seat (fun w => { w with access := some ioLoad, marks := [⟨3, [.v 20]⟩] }) with tick := tick }
/-- Spokes at work with tasks in progress; one whose memory is not trained stands in `State.reset`. -/
def seatTasks (tick : Nat) (choices : List Nat) : State :=
  { seat with
    tick := tick, choices := choices
    spokes := seat.spokes.map (fun x => { x with gated := false, capacity := 2 ^ 30, calBusy := 1, calNext := 1, retrain := 2 }) }
def seatMode : State := { seat with gangs := [], clusters := seat.clusters.map (fun c => { c with modeTo := some (some 1) }) }

/-- For OutsideAndBackground: reset low and high, a link that works, spokes with work to do and without, tasks that are due and not, choices of
no error, of a correctable and of an uncorrectable one, a cluster that may change its mode, a mark without and with its operation in flight, an
IO load before and at its time-out. -/
theorem witness_OutsideAndBackground :
    State.reset.pins.reset = true ∧ seat.pins.reset = false ∧ seat.pins.linkFailed = false ∧ seat.fw.cmds = [] ∧ seat.writes = []
    ∧ (seat.nodes.filter (fun n => n.running)).length = 1 ∧ seat.passes = []
    ∧ ((seatTasks 0 []).spokes[7]?).map (fun x => decide (x.gated = false ∧ 0 < x.capacity)) = some true ∧ (seatTasks 0 []).populated 7 = true
    ∧ (∀ g ∈ seat.gangs, g.core / 32 = 0) ∧ (∀ c < 8, (seat.cluster (56 + c)).modeTo = none)
    ∧ (State.reset.spokes[0]?).map (fun x => (x.capacity, x.gated)) = some (0, true)
    ∧ ((seatTasks 53 []).spokes[7]?).map (fun x => (x.scrubTick, x.scrubAddr, x.sramTick)) = some (0, 0, 0) ∧ 0 + 8 ≤ (seatTasks 8 []).tick
    ∧ (seatTasks 7 []).tick < 0 + 8 ∧ 0 + 53 ≤ (seatTasks 53 []).tick ∧ (seatTasks 52 []).tick < 0 + 53
    ∧ ((seatTasks 53 [2]).waves.map (fun w => w.uid)).Nodup ∧ ((seatTasks 53 [2]).wgs.map (fun w => w.uid)).Nodup
    ∧ (seatTasks 0 [1]).choices.headD 0 = 1 ∧ (seatTasks 0 [2]).choices.headD 0 = 2 ∧ seat.bad = []
    ∧ ((seatTasks 100000000 []).spokes[0]?).map (fun x => (x.calBusy, x.calNext, x.retrain)) = some (1, 1, 2)
    ∧ ((seatTasks 100000000 []).cluster 1).calTick + 1000000 ≤ (seatTasks 100000000 []).tick
    ∧ ((seatTasks 999999 []).cluster 1).calTick + 1000000 > (seatTasks 999999 []).tick
    ∧ ((seatTasks 100000000 []).spokes[0]?).map (fun x => decide (x.agingTick + 100000000 ≤ 100000000 ∧ x.telTick + 100000 ≤ 100000000)) = some true
    ∧ (seatMode.clusters[0]?).map (fun c => (c.modeTo, c.span.hitched)) = some (some (some 1), false) ∧ seatMode.gangs = []
    ∧ (seat.clusters[0]?).map (fun c => c.modeTo) = some none
    ∧ ((onWave seat (fun w => { w with marks := [⟨3, [.v 2]⟩] })).wave? 6).map (fun w => (w.marks, w.ops.length, w.access.isNone))
        = some ([⟨3, [.v 2]⟩], 0, true)
    ∧ ((seatIo 4999999).wave? 6).map (fun w => (w.access.isSome, w.marks)) = some (true, [⟨3, [.v 20]⟩])
    ∧ (issueOf (seatIo 5000000)).w.core < 256 ∧ ioLoad.aux = [0] ∧ ioLoad.started = true
    ∧ ioLoad.pieces.map (fun p => (p.lane, p.len)) = (lanesOf ioLoad.mask).map (fun l => (l, 4)) := by
  and_intros <;> decide

/-! ## Scheduling -/

/-- A READY node, its record in a ring, its region and launch descriptor readable. -/
def readyNode : Node :=
  { uid := 9, ring := 3, slot := 2, ctx := 1, region := 1, running := false, place := 0, readyTick := 5, readyAt := 5, spawn := 0, nextSeq := 0, startOrder := 0
    tStart := 0, seedLanes := 1, resident := 0 }
def seatReady (arg : Nat) : State :=
  let s := (withPages (withBlocks (withRgns seat 3 0) 4)).setBytes (devBase + 0x7000) descBytes
  let s := { s with nodes := [readyNode], waves := [], wgs := [], gangs := [], batches := [], tick := 77
                    rings := s.rings.set 3 { Ring.reset with base := devBase + 0xA000, bound := true, ctx := 1 } }
  (((s.setNum (devBase + 0xA200) 4 2).setNum (devBase + 0xA208) 4 (1 + 2 ^ 16 * 32)).setNum (devBase + 0xA210) 8 0x7000).setNum (devBase + 0xA218) 8 arg

/-- A wave whose lanes have all exited; a gang in a state of its pre-emption; a head gang with room for it on pd0; a wave that PREEMPT has
reached; a node at its watchdog's bound. -/
def seatGone (spawn : Nat) : State :=
  { onWave (withRgns seat 3 0) (fun w => { w with exited := allLanes, paths := [] }) with nodes := seat.nodes.map (fun n => { n with spawn := spawn }) }
def seatLeave (st : GangState) (saved : Bool) (tick : Nat) : State :=
  { withRgns (onDesc seat (fun d => { d with handler := 0x3000 })) 3 0 with
    gangs := seat.gangs.map (fun g => { g with state := st, reqTick := 10 }), tick := tick
    waves := seat.waves.map (fun w => { w with trap := { w.trap with taken := saved, reported := saved } }) }
def seatHead : State :=
  { withRgns seat 3 0 with
    batches := seat.batches.map (fun b => { b with count := 2, desc := { b.desc with scratch := 1 } }), tick := 200000
    nodes := seat.nodes.map (fun n => { n with spawn := 2 })
    cores := (List.range 256).map (fun c => if c < 32 then { slots := [16, 16, 16, 15], rows := [1024, 1024, 1024, 800], scratch := 8, bars := 64 }
      else { slots := [0, 0, 0, 0], rows := [0, 0, 0, 0], scratch := 0, bars := 0 }) }
def seatTake (handler : Word64) : State :=
  onWave (onDesc (withRgns seat 3 0) (fun d => { d with handler := handler })) (fun w => { w with
    trap := { w.trap with preempt := true }, paths := [Path.at 0xFFFF 0x4000, Path.at 0xFFFF0000 0x5000] })
def seatDog (resident : Nat) : State := { withRgns seat 3 2 with nodes := seat.nodes.map (fun n => { n with resident := resident }) }

set_option maxRecDepth 20000 in
/-- For Scheduling: a READY node that passes the checks, a head gang with a destination, gangs that are spent with a spawn counter above and at
their size, in each state of a pre-emption at the bounds of its times, a slice and a head's age, a watchdog at its bound and above, PREEMPT with
a handler and without. -/
theorem witness_Scheduling :
    (seatReady 5).fw.state ∈ [1, 2] ∧ (seatReady 5).pins.reset = false ∧ ((seatReady 5).nodes.filter (fun x => x.running)).length < 1024
    ∧ (firstBy (seatReady 5).startBefore ((seatReady 5).nodes.filter (fun x => !x.running && (seatReady 5).startsNow x))).map
        (fun n => n.uid) = some 9 ∧ (seatReady 5).passes = [] ∧ (∀ n ∈ seat.nodes, n.running = true)
    ∧ (match ((seatReady 5).readRegions 1).checkNode readyNode with | .ok d => d.entry | .error _ => 0) = 0x4000
    ∧ (let s := (seatReady 5).setNum (devBase + 0xA218 - 8) 8 (2 ^ 53 + 0x7000)
      (match (s.readRegions 1).checkNode readyNode with | .error .unbound => true | _ => false) = true ∧ s.startsNow readyNode = true)
    ∧ (let s := (seatReady 5).setNum (devBase + 0xA218 - 8) 8 0x7100
      (match (s.readRegions 1).checkNode readyNode with | .error (.reason _) => true | _ => false) = true ∧ s.startsNow readyNode = true)
    ∧ seatHead.heads.map (fun h => (h.num, seatHead.headAllowed h, (seatHead.destination h).map (fun x => x.2.1), h.saved.isNone,
        h.batch.desc.breakEntry)) = [(1, true, some 0, true, false)]
    ∧ seatHead.cpOpen = true ∧ (seatFw 3 []).cpOpen = false ∧ (seatHead.cluster 0).modeTo = none ∧ (seatHead.ctx? 1).isSome = true ∧ seat.heads = []
    ∧ (∀ w ∈ (seatGone 4).waves, (seatGone 4).spent w = true) ∧ (seatGone 1).atHome (seatGone 1).waves = true
    ∧ (∀ w ∈ seat.waves, seat.spent w = false)
    ∧ ((seatGone 4).node? 2).map (fun n => n.spawn) = some 4 ∧ ((seatGone 1).node? 2).map (fun n => n.spawn) = some 1
    ∧ (seat.gang? 4).map (fun g => (g.size, g.state)) = some (1, .resident)
    ∧ ((seatLeave .requested false 5010).gang? 4).map (fun g => (g.state, decide (g.reqTick + 5000 ≤ 5010))) = some (.requested, true)
    ∧ ((seatLeave .requested false 5009).gang? 4).map (fun g => decide (g.reqTick + 5000 ≤ 5009)) = some false
    ∧ (∀ w ∈ (seatLeave .requested false 5010).waves, w.yielded = false) ∧ (∀ w ∈ (seatLeave .handling true 5010).waves, w.yielded = true)
    ∧ ((seatLeave .restoring true 5010).gang? 4).map (fun g => g.state) = some .restoring
    ∧ (seatDog 2049).effWatchdog 1 = 2 ∧ ((seatDog 2049).node? 2).map (fun n => (n.resident, n.running)) = some (2049, true)
    ∧ ((seatDog 2048).node? 2).map (fun n => n.resident) = some 2048
    ∧ (∀ w ∈ (seatTake 0x3000).waves, w.trap.preempt = true ∧ w.trap.inHandler = false ∧ w.live ≠ 0 ∧ w.mayRollback = true
      ∧ (seatTake 0x3000).running w = true ∧ w.ckpt = none ∧ ((seatTake 0x3000).descOf w).handler ≠ 0 ∧ ((seatTake 0).descOf w).handler = 0) := by
  and_intros <;> decide

/-! ## Power -/

/-- A tick, and the clusters, the spokes and the power manager as a function has them. -/
def seatPow (tick : Nat) (c : Cluster → Cluster) (x : Spoke → Spoke) (p : Power → Power) : State :=
  { withRgns seat 3 0 with tick := tick, clusters := seat.clusters.map c, spokes := seat.spokes.map x, power := p seat.power }

set_option maxRecDepth 20000 in
/-- For Power: ticks at the bound of each interval and before it, a spoke whose boost is at each edge, a cluster that may rise and one at the
ceiling, ballast that is due and an issue that stopped 5 and 10 ticks ago. The readings of power are free: each of its two cases is a hypothesis
on a constant without a body. -/
theorem witness_Power :
    100 * (seat.power.charged + 1) ≤ (seatPow 100 id id id).tick ∧ (seatPow 99 id id id).tick < 100 * (seat.power.compared + 1)
    ∧ 100000 * (seat.power.windows + 1) ≤ (seatPow 100000 id id id).tick ∧ seat.power.charged < 1000 * (seat.power.windows + 1)
    ∧ 1000 * (0 + 1) ≤ (seatPow 100000 id id (fun p => { p with charged := 1000 })).power.charged ∧ (seatPow 100000 id id id).writes = []
    ∧ ((withRgns seat 3 0).regions.map (fun r => r.num)).Nodup
    ∧ ((seatPow 100 id id (fun p => { p with calm := 9, actions := [(0, 3), (2, 5)] })).power.actions) = [(0, 3), (2, 5)]
    ∧ (∀ m < 64, ¬ 0 < ((seatPow 100 id id id).cluster m).freq) ∧ ((seatPow 100 id id id).cluster 63).passTo = 1
    ∧ 0 < ((seatPow 100 (fun c => { c with freq := 3 }) id id).cluster 7).freq ∧ (seatPow 100 id id id).populated 7 = true
    ∧ ((seatPow 399 id (fun x => { x with refill := 7, budget := 63 }) id).spokes[7]?).map (fun x => decide (400 * x.intervals + 399 ≤ 399)) = some true
    ∧ ((seatPow 398 id id id).spokes[7]?).map (fun x => decide (400 * x.intervals + 399 ≤ 398)) = some false
    ∧ (seatPow 399 id id id).clusters.length = 64
    ∧ ((seatPow 50 (fun c => { c with ballast := 3, ballastTick := 45 }) id id).cluster 0).ballastTick + 5 ≤ 50
    ∧ ((seatPow 50 (fun c => { c with issued := some 45 }) id id).clusters[63]?).map (fun c => (c.ballast, c.issued)) = some (0, some 45)
    ∧ ((seatPow 50 (fun c => { c with issued := some 40 }) id id).clusters[63]?).map (fun c => c.issued) = some (some 40)
    ∧ ((seatPow 50 (fun c => { c with issued := some 45 }) id id).cluster 0).span.pass = []
    ∧ (∀ c < 8, (seatPow 399 id id id).riseDue (8 * 7 + c) = false)
    ∧ ((seatPow 399 id (fun x => { x with calBusy := 4 }) id).spokes[7]?).map (fun x => x.calBusy.getLsbD 2) = some true
    ∧ (∀ b ∈ (seatPow 399 id id id).batches, (seatPow 399 id id id).gridDue b = false)
    ∧ (let s := seatGrid 1032 none 3
      ∃ b ∈ s.batches, s.gridDue b = true ∧ 0 ∈ b.gbarDies)
    ∧ (seatPow 50 (fun c => { c with admitted := true, freq := 17, riseTick := 46 }) id id).riseDue 0 = true
    ∧ (seatPow 49 (fun c => { c with admitted := true, freq := 17, riseTick := 46 }) id id).riseDue 0 = false := by
  and_intros <;> decide

/-! ## The step, encodings and the memory's form -/

/-- The wave's word in a schedule and without one; a device step at the head of a schedule. -/
def seatSched (m : List Move) : State := { seat with schedule := m }

/-- Two paths, each about to issue an IADD to `s3`, the sum of their lanes' `v8`. -/
def sumWord : Word64 := (encode (.iadd .always (.s 3) (.v 8) (.v 8) .wrap)).getD 0
def seatBoth : State :=
  let path (m : LaneMask) (pc : Word64) : Path :=
    { Path.at m pc with slot := true, clause := some { addr := pc, head := plainHeader, words := [sumWord, nopWord], idx := 0 } }
  { onWave seat (fun w => { w with
      rf := { w.rf with v := (List.range 32).map (fun l => (32 * 8 + l, BitVec.ofNat 32 (l + 1))) }
      paths := [path 0x0000FFFF 0x1000, path 0xFFFF0000 0x2000] }) with schedule := [.both 6 0 16] }
def bothAt (l : Nat) : State := { seatBoth with schedule := [], cur := some (6, l) }

/-- For StepRuns: two paths of a wave that may issue in one cycle, and what the step leaves in `s3`: the sum of the lower path's lane. -/
theorem witness_StepRuns_both :
    (∀ l ∈ [0, 16], clear (bothAt l) = true ∧ (issueOf (bothAt l)).quiet ∧ (issueOf (bothAt l)).p.slot = true
      ∧ (issueOf (bothAt l)).p.waiting = false ∧ (issueOf (bothAt l)).p.halted = false ∧ (issueOf (bothAt l)).p.dbg = false
      ∧ lowestLane (issueOf (bothAt l)).p.lanes = some l ∧ (issueOf (bothAt l)).w.behind = false
      ∧ decode (issueOf (bothAt l)).w.env (issueOf (bothAt l)).word = .ok (.iadd .always (.s 3) (.v 8) (.v 8) .wrap))
    ∧ (issueOf (bothAt 0)).w = (issueOf (bothAt 16)).w ∧ (issueOf (bothAt 0)).p.lanes &&& (issueOf (bothAt 16)).p.lanes = 0
    ∧ (bothAt 16).partFree (issueOf (bothAt 0)).w = true
    ∧ (match step seatBoth with | .next t => (t.wave? 6).map (fun w => w.rf.sreg 3) | _ => none) = some 2 := by
  simp only [List.mem_cons, List.not_mem_nil, or_false, forall_eq_or_imp, forall_eq, Issue.quiet]
  and_intros <;> decide

/-- A second wave, which holds their partition; a wave whose two slots other paths hold. -/
def seatTwo : State := { seat with waves := seat.waves ++ seat.waves.map (fun w => { w with uid := 8 }), parts := [((issueOf seat).w.part, 8)] }
def seatThree : State :=
  onWave seatBoth (fun w => { w with paths := w.paths.map (fun p => { p with lanes := p.lanes &&& 0x00FF00FF }) ++ (w.paths.take 1).map (fun p =>
    { p with lanes := 0xFF00FF00, slot := false }) })
    |> fun s => { s with cur := some (6, 8) }

/-- For StepRuns: the word of NOP decodes and is the next step without a schedule and as one; a step of the device stands in another. -/
theorem witness_StepRuns :
    seat.schedule = [] ∧ seat.stall = false ∧ seat.pins.reset = false ∧ (issueOf seat).p.waiting = false ∧ seat.issue?.isSome = true
    ∧ seat.partFree (issueOf seat).w = true ∧ (issueOf seat).p.slot = true
    ∧ seatTwo.partFree (issueOf seatTwo).w = false ∧ seatTwo.issue?.isSome = true
    ∧ (issueOf seatThree).p.slot = false ∧ (issueOf seatThree).w.slotFree = false ∧ seatThree.partFree (issueOf seatThree).w = true
    ∧ seat.running (issueOf seat).w = true ∧ (issueOf seat).p.halted = false ∧ (issueOf seat).p.dbg = false
    ∧ decode (issueOf seat).w.env (issueOf seat).word = .ok (.nop .always)
    ∧ (seatSched [.issue 6 0]).schedule = [.issue 6 0] ∧ encode (.resultWrite 6 3) = none ∧ encode (.nop .always) ≠ none := by
  and_intros <;> decide

/-- For DecodeEncode: well-formed words at the greatest budget, with and without a word of their own form. -/
theorem witness_DecodeEncode :
    (issueOf seat).w.env.budget ≤ 192 ∧ (Instr.nop .always).wf (issueOf seat).w.env = true ∧ (Instr.nop .always).fields ≠ none
    ∧ (Instr.bfi .always (.v 191) (.v 0) (.s 47) .lit .zero).wf (issueOf seat).w.env = true
    ∧ encode (.bfi .always (.v 191) (.v 0) (.s 47) .lit .zero) ≠ none := by
  and_intros <;> decide

set_option maxRecDepth 20000 in
/-- For MemoryCanonical: a memory that lists bytes in its form, and a step that answers a next state. -/
theorem witness_MemoryCanonical : Memory.wf (withPages seat).mem = true ∧ (withPages seat).mem ≠ [] ∧ ∃ t, step (withPages seat) = .next t :=
  ⟨by decide, by decide, _, rfl⟩

end Sys2Proof.Tests
end

namespace Sys2Proof.Machine

/-! OPERATIONS THAT LEAVE DEVICE MEMORY ALONE, a lemma each, in the order of the model's files. First, folds and choices over the
machine. -/

/-- A fold whose every step leaves device memory alone leaves it alone. -/
theorem foldl_mem_of {α β : Type} (π : β → State) {f : β → α → β} (hf : ∀ b x, (π (f b x)).mem = (π b).mem)
    (l : List α) (b : β) : (π (l.foldl f b)).mem = (π b).mem :=
  List.foldlRecOn (motive := fun c => (π c).mem = (π b).mem) l f rfl (fun c hc x _ => (hf c x).trans hc)

@[simp] theorem foldl_mem {α : Type} {f : State → α → State} (hf : ∀ t x, (f t x).mem = t.mem) (l : List α) (s : State) :
    (l.foldl f s).mem = s.mem := foldl_mem_of id hf l s

@[simp] theorem foldl_fst_mem {α β : Type} {f : State × β → α → State × β} (hf : ∀ b x, (f b x).1.mem = b.1.mem) (l : List α)
    (b : State × β) : (l.foldl f b).1.mem = b.1.mem := foldl_mem_of Prod.fst hf l b

@[simp] theorem ite_mem (p : Prop) [Decidable p] (s t : State) : (if p then s else t).mem = if p then s.mem else t.mem :=
  apply_ite State.mem p s t

@[simp] theorem ite_fst_mem {β : Type} (p : Prop) [Decidable p] (x y : State × β) :
    (if p then x else y).1.mem = if p then x.1.mem else y.1.mem := apply_ite (fun z : State × β => z.1.mem) p x y

section
variable (a : Access) (addr desc hdr word : Word64) (anew clu cluster dead full long only signed sync upper wait : Bool)
  (arg req : Word) (b : Batch) (before w : Wave) (block gen lane : Option Nat) (c : CopyOp)
  (cause cl core count ctx cur die gang group id idx index len level lid member n num o off offset op : Nat)
  (pa pte r reason result scope seq size spoke u unit v va vdie wave wg : Nat) (d : Option Dst)
  (data front payload bytes : List Byte) (e : PendEnq) (f : State → State) (fl : BitVec 6) (frags : Map Fragment) (g : Gang)
  (gone : Nat → Bool) (h : Head) (i : Issue) (ids : List Nat) (instr : Instr) (iter : Option (List Nat)) (k : Walk)
  (keep role : Nat × Nat) (kind : SpanKind) (l : Line) (lanes q : LaneMask) (m : MemOp) (maps : List (Piece × Mapped))
  (ms : List Mapped) (new : List Path) (p : Place) (pass : List SpanEntry) (rd : State → Nat → Nat → List Byte)
  (reads writes : List RegId) (s : State) (sc : Scope) (sel : Place → Bool) (set : Mailbox → Mailbox)
  (take : State → Nat → State) (term : Nat → Nat) (val : Nat → Word) (want : Want) (x : Write)

/-! Ops. -/

@[simp] theorem State.count_mem : (s.count unit off).mem = s.mem := by
  unfold State.count
  split <;> rfl
@[simp] theorem State.updateLines_mem : (s.updateLines sel pa data).mem = s.mem := rfl
@[simp] theorem State.report_mem (r : Report) : (s.report r).mem = s.mem := rfl
@[simp] theorem State.reportBad_mem : (s.reportBad spoke pa).mem = s.mem := by simp [State.reportBad]
@[simp] theorem State.freeBytes_mem : (s.freeBytes n).1.mem = s.mem := rfl
@[simp] theorem State.writeBack_mem : (s.writeBack x).1.mem = s.mem := Memory.writeBack_mem s x
@[simp] theorem State.noteStep_mem : (s.noteStep before).mem = s.mem := by
  unfold State.noteStep
  split
  · rfl
  · exact foldl_mem (by simp) _ _
@[simp] theorem State.settleTrap_mem : (s.settleTrap u).mem = s.mem := by
  unfold State.settleTrap
  (repeat' split) <;> simp
@[simp] theorem State.settleDbg_mem : (s.settleDbg u).mem = s.mem := by
  unfold State.settleDbg
  (repeat' split) <;> rfl
@[simp] theorem State.replace_mem : (s.replace i w new).mem = s.mem := by simp [State.replace]
@[simp] theorem State.retire_mem : (s.retire i w).mem = s.mem := by simp [State.retire]
@[simp] theorem State.goneEvents_mem : (s.goneEvents gone).mem = s.mem := by
  exact foldl_mem (fun t w => by split <;> rfl) _ _
@[simp] theorem State.releaseLatches_mem : (s.releaseLatches).mem = s.mem := rfl
@[simp] theorem State.startPosts_mem : (s.startPosts).mem = s.mem := by simp [State.startPosts]
@[simp] theorem State.settleHandler_mem : (s.settleHandler u).mem = s.mem := by
  unfold State.settleHandler
  split <;> simp

/-! Translate. -/

@[simp] theorem State.updSpoke_mem (f : Spoke → Spoke) : (s.updSpoke n f).mem = s.mem := rfl
@[simp] theorem State.noteTlb_mem (c : Ctx) (m : Mapped) : (s.noteTlb c m spoke).mem = s.mem := by simp [State.noteTlb]
@[simp] theorem State.noteMaps_mem : (s.noteMaps w ms).mem = s.mem := by
  unfold State.noteMaps
  dsimp only
  (repeat' split) <;> simp
@[simp] theorem State.noteVa_mem : (s.noteVa w want va).mem = s.mem := by
  unfold State.noteVa
  split <;> simp
@[simp] theorem State.leave_mem (gone : Nat × Nat → Bool) : (s.leave gone).mem = s.mem := rfl
@[simp] theorem State.unwait_mem : (s.unwait wave op).mem = s.mem := rfl
@[simp] theorem State.openFault_mem : (s.openFault w op va want cause level pte iter).mem = s.mem := by
  unfold State.openFault
  dsimp only
  (repeat' split) <;> simp

/-! Order. -/

@[simp] theorem State.reveal_mem : (s.reveal x).mem = s.mem := rfl
@[simp] theorem State.overFrames_mem : (s.overFrames w lane pa len).mem = s.mem := rfl
@[simp] theorem State.trim_mem : (s.trim p keep).mem = s.mem := by simp [State.trim]
@[simp] theorem State.fill_mem : (s.fill l).mem = s.mem := by simp [State.fill]
@[simp] theorem State.heartbeat_mem : (s.heartbeat w pa len).mem = s.mem := by
  unfold State.heartbeat
  split <;> simp

/-! Memory. -/

@[simp] theorem State.setPad_mem : (s.setPad w cluster off bytes).mem = s.mem := by
  induction bytes generalizing s off with
  | nil => rfl
  | cons b t ih =>
    rw [State.setPad, ih]
    split <;> rfl
@[simp] theorem State.issueAccess_mem : (s.issueAccess i a writes).mem = s.mem := by simp [State.issueAccess]
@[simp] theorem State.issueOp_mem : (s.issueOp i a writes long).mem = s.mem := by simp [State.issueOp]

/-! Perform. -/

@[simp] theorem State.finishAccess_mem : (s.finishAccess w a).mem = s.mem := rfl
@[simp] theorem State.settleOp_mem : (s.settleOp wave op).mem = s.mem := by
  unfold State.settleOp
  split <;> simp
@[simp] theorem State.putOp_mem : (s.putOp wave a).mem = s.mem := by
  unfold State.putOp
  split <;> simp
@[simp] theorem State.ioAccess_mem (k : Nat) : (s.ioAccess rd w a m maps k).mem = s.mem := by
  unfold State.ioAccess
  iterate 4 (split; · rfl)
  extract_lets failed s0 r a1
  have h0 : s0.mem = s.mem := by simp [s0]
  have hr : r.1.mem = s.mem := (foldl_fst_mem (fun b x => by split <;> simp) _ _).trans h0
  split <;> simpa using hr
@[simp] theorem State.padStore_mem (sel : Nat) : (s.padStore w a m sel).mem = s.mem := by
  unfold State.padStore
  split
  · rfl
  · simp only [State.putOp_mem]
    exact foldl_fst_mem (fun b x => by split <;> simp) _ _

/-! Copy. -/

@[simp] theorem State.issueCopy_mem : (s.issueCopy i c).mem = s.mem := by simp [State.issueCopy]
@[simp] theorem State.putCopy_mem : (s.putCopy c).mem = s.mem := rfl
@[simp] theorem State.countUnits_mem : (s.countUnits w c wait).mem = s.mem := by
  unfold State.countUnits
  split <;> simp
@[simp] theorem State.stopCopy_mem : (s.stopCopy w c dead).1.mem = s.mem := by simp [State.stopCopy]
@[simp] theorem State.settleCopy_mem : (s.settleCopy op).mem = s.mem := by
  unfold State.settleCopy
  dsimp only
  (repeat' split) <;> simp
@[simp] theorem State.synciStep_mem : (s.synciStep w a clu).mem = s.mem := by
  unfold State.synciStep
  split <;> simp
@[simp] theorem State.syncwStep_mem : (s.syncwStep w a d clu).mem = s.mem := by simp [State.syncwStep]
@[simp] theorem State.dropTables_mem : (s.dropTables w sc).mem = s.mem := rfl
@[simp] theorem State.fenceStep_mem : (s.fenceStep w a).mem = s.mem := by
  unfold State.fenceStep
  (repeat' split) <;> simp
@[simp] theorem State.discardOld_mem (p : PtPend) : (s.discardOld p).mem = s.mem := rfl

/-! Integer. -/

@[simp] theorem State.mtsPost_mem : (s.mtsPost i num q val).mem = s.mem := by
  unfold State.mtsPost
  (repeat' split) <;> rfl

/-! Cross. -/

@[simp] theorem State.putBar_mem (g : Workgroup) (b : Bar) : (s.putBar g n b).mem = s.mem := rfl
@[simp] theorem State.settleBar_mem : (s.settleBar wg n).mem = s.mem := by
  unfold State.settleBar
  split <;> simp
@[simp] theorem State.settleOver_mem : (s.settleOver u).mem = s.mem := by
  unfold State.settleOver
  split <;> simp
@[simp] theorem State.tryArrive_mem : (s.tryArrive w n instr).1.mem = s.mem := by simp [State.tryArrive]
@[simp] theorem State.waitAt_mem : (s.waitAt i w only gen).mem = s.mem := by simp [State.waitAt]
@[simp] theorem State.barWaitPart_mem : (s.barWaitPart i n sync).mem = s.mem := by simp [State.barWaitPart]
@[simp] theorem State.pbarStep_mem : (s.pbarStep w a clu).mem = s.mem := by
  unfold State.pbarStep
  split <;> simp
@[simp] theorem State.tryGbar_mem : (s.tryGbar w instr word addr hdr).1.mem = s.mem := by simp [State.tryGbar]
@[simp] theorem State.countGbar_mem (gang : Bool) : (s.countGbar w a gang).mem = s.mem := by
  unfold State.countGbar
  dsimp only
  (repeat' split) <;> simp
@[simp] theorem State.noteLate_mem : (s.noteLate die term).mem = s.mem := by simp [State.noteLate]

/-! Control. -/

@[simp] theorem State.noteCode_mem : (s.noteCode w va n).mem = s.mem := by simp [State.noteCode]
@[simp] theorem State.rejoinAt_mem : (s.rejoinAt u n).mem = s.mem := by
  unfold State.rejoinAt
  split <;> simp
@[simp] theorem State.arriveOnExit_mem : (s.arriveOnExit w).1.mem = s.mem := by
  unfold State.arriveOnExit
  simp only [State.tryGbar_mem]
  exact foldl_fst_mem (fun b x => by split <;> simp) _ _
@[simp] theorem State.exitLanes_mem : (s.exitLanes i q).mem = s.mem := by
  unfold State.exitLanes
  dsimp only
  split
  · simp
  · simp
@[simp] theorem State.stopScope_mem : (s.stopScope w scope).mem = s.mem := by simp [State.stopScope]

/-! Region. -/

@[simp] theorem State.fixLimits_mem : (s.fixLimits).mem = s.mem := rfl
@[simp] theorem State.readRegions_mem : (s.readRegions r).mem = s.mem := by
  exact foldl_mem (fun t x => by split <;> rfl) _ _
@[simp] theorem State.syncRegion_mem : (s.syncRegion r).mem = s.mem := by
  unfold State.syncRegion
  split <;> simp
@[simp] theorem State.charge_mem : (s.charge r n).mem = s.mem := by
  unfold State.charge
  split <;> rfl
@[simp] theorem State.freeEnergy_mem : (s.freeEnergy).1.mem = s.mem := rfl
@[simp] theorem State.chargeBallast_mem : (s.chargeBallast cl).mem = s.mem := by
  unfold State.chargeBallast
  split <;> simp
@[simp] theorem State.chargeCluster_mem : (s.chargeCluster cl).mem = s.mem := by simp [State.chargeCluster]
@[simp] theorem State.chargeTasks_mem : (s.chargeTasks).mem = s.mem := by simp [State.chargeTasks]
@[simp] theorem State.capRegions_mem : (s.capRegions).mem = s.mem := rfl

/-! Span. -/

@[simp] theorem State.putWalk_mem : (s.putWalk k).mem = s.mem := rfl
@[simp] theorem State.postStep_mem : (s.postStep k).mem = s.mem := by
  unfold State.postStep
  split <;> simp
@[simp] theorem State.stopWalk_mem : (s.stopWalk w k dead).mem = s.mem := by
  unfold State.stopWalk
  split <;> rfl
@[simp] theorem State.postEntry_mem : (s.postEntry w op block kind).mem = s.mem := rfl
@[simp] theorem State.issueSpan_mem : (s.issueSpan i a reads writes).mem = s.mem := by simp [State.issueSpan]
@[simp] theorem State.endSpan_mem : (s.endSpan wave op fl).mem = s.mem := by
  unfold State.endSpan
  split <;> simp
@[simp] theorem State.unhitch_mem : (s.unhitch cl).mem = s.mem := by simp [State.unhitch]
@[simp] theorem State.blockStep_mem : (s.blockStep w a).mem = s.mem := by
  unfold State.blockStep
  split <;> simp
@[simp] theorem State.startPass_mem : (s.startPass cl pass).mem = s.mem := rfl
@[simp] theorem State.nextPass_mem : (s.nextPass cl).mem = s.mem := by
  unfold State.nextPass
  split <;> simp
@[simp] theorem State.endEntry_mem : (s.endEntry w a fl).mem = s.mem := by simp [State.endEntry]
@[simp] theorem State.endStep_mem : (s.endStep w k).mem = s.mem := by simp [State.endStep]

/-! Launch. -/

@[simp] theorem State.newBatch_mem (n : Node) (d : Desc) (arg : Word64) (die : DieField) :
    (s.newBatch n seq count d desc arg die lanes frags).mem = s.mem := rfl
@[simp] theorem State.updRing_mem (f : Ring → Ring) : (s.updRing n f).mem = s.mem := rfl
@[simp] theorem State.postEnq_mem : (s.postEnq i e writes).mem = s.mem := by simp [State.postEnq]
@[simp] theorem State.answer_mem (f : RegFile → RegFile) : (s.answer w e f).mem = s.mem := rfl
@[simp] theorem State.answerEnq_mem : (s.answerEnq w e).mem = s.mem := by
  unfold State.answerEnq
  (repeat' split) <;> simp

/-! Raster. -/

@[simp] theorem State.noteRange_mem : (s.noteRange w va n).mem = s.mem := by simp [State.noteRange]
@[simp] theorem State.notePass_mem : (s.notePass w va).mem = s.mem := by simp [State.notePass]
@[simp] theorem State.putPass_mem (p : Pass) : (s.putPass p).mem = s.mem := rfl
@[simp] theorem State.rastStep_mem : (s.rastStep w a).mem = s.mem := by
  unfold State.rastStep
  (repeat' split) <;> simp
@[simp] theorem State.ordStep_mem : (s.ordStep w a).mem = s.mem := by simp [State.ordStep]
@[simp] theorem State.noteBlend_mem (f : Fragment) : (s.noteBlend f).mem = s.mem := rfl
@[simp] theorem State.freeTurns_mem : (s.freeTurns ids).mem = s.mem := rfl
@[simp] theorem State.finishPix_mem : (s.finishPix w a).mem = s.mem := rfl

/-! Place. -/

@[simp] theorem State.placeWave_mem (n : Node) : (s.placeWave n b gang wg lid core vdie idx role).mem = s.mem := by
  simp [State.placeWave]
@[simp] theorem State.placeWg_mem (n : Node) : (s.placeWg n b gang num member core vdie).mem = s.mem := by
  simp [State.placeWg]
@[simp] theorem State.takeView_mem : (s.takeView h core).mem = s.mem := rfl
@[simp] theorem State.latch_mem : (s.latch ctx).mem = s.mem := by
  unfold State.latch
  split <;> rfl
@[simp] theorem State.placeNew_mem (n : Node) : (s.placeNew n b core vdie).mem = s.mem := by simp [State.placeNew]
@[simp] theorem State.dropTable_mem : (s.dropTable core size).mem = s.mem := rfl
@[simp] theorem State.placeSaved_mem : (s.placeSaved g b core vdie).mem = s.mem := by simp [State.placeSaved]
@[simp] theorem State.trimCores_mem : (s.trimCores core size).mem = s.mem := by simp [State.trimCores]
@[simp] theorem State.placeHead_mem (n : Node) : (s.placeHead n h core vdie).mem = s.mem := by
  unfold State.placeHead
  split <;> simp
@[simp] theorem State.dropGang_mem : (s.dropGang g).mem = s.mem := rfl
@[simp] theorem State.settleHandling_mem : (s.settleHandling gang).mem = s.mem := by
  unfold State.settleHandling
  split <;> simp
@[simp] theorem State.stopWalks_mem : (s.stopWalks gang).mem = s.mem := by
  refine foldl_mem (fun t k => ?_) _ _
  split
  all_goals
    dsimp only
    split <;> simp
@[simp] theorem State.requestGang_mem : (s.requestGang g).mem = s.mem := by simp [State.requestGang]

/-! Save. -/

@[simp] theorem State.startDrain_mem : (s.startDrain g full).mem = s.mem := by simp [State.startDrain]
@[simp] theorem State.enterSaved_mem : (s.enterSaved g b).mem = s.mem := by
  unfold State.enterSaved
  dsimp only
  (repeat' split) <;> simp

/-! Power. -/

@[simp] theorem State.admitPlaces_mem : (s.admitPlaces spoke anew).mem = s.mem := rfl
@[simp] theorem State.settleBoost_mem : (s.settleBoost spoke).mem = s.mem := rfl
@[simp] theorem State.curb_mem : (s.curb).mem = s.mem := by
  unfold State.curb
  (repeat' split) <;> rfl
@[simp] theorem State.uncurb_mem : (s.uncurb).mem = s.mem := by
  unfold State.uncurb
  split <;> rfl

/-! Background. -/

@[simp] theorem State.chosen_mem : (s.chosen).mem = s.mem := rfl
@[simp] theorem State.spoil_mem : (s.spoil spoke n).mem = s.mem := by
  unfold State.spoil
  dsimp only
  (repeat' split) <;> simp

/-! Readback. -/

@[simp] theorem State.snapStart_mem : (s.snapStart group index).mem = s.mem := by
  unfold State.snapStart
  split <;> rfl

/-! Firmware. -/

@[simp] theorem State.fwAnswer_mem : (s.fwAnswer result).mem = s.mem := rfl
@[simp] theorem State.fwWrite_mem (c : Word) : (s.fwWrite c).mem = s.mem := rfl
@[simp] theorem State.raiseFloor_mem : (s.raiseFloor).mem = s.mem := by
  unfold State.raiseFloor
  (repeat' split) <;> rfl
@[simp] theorem State.fwCommand_mem (c : Word) (hf : ∀ t, (f t).mem = t.mem) : (s.fwCommand c f).mem = s.mem := by
  unfold State.fwCommand
  (repeat' split) <;> simp [hf]
@[simp] theorem State.rmAnswer_mem : (s.rmAnswer result reason data).mem = s.mem := rfl
@[simp] theorem State.mailDiscard_mem : (s.mailDiscard).mem = s.mem := rfl
@[simp] theorem State.request?_mem (hf : ∀ t, (f t).mem = t.mem) : (s.request? req f).mem = s.mem := by
  unfold State.request?
  (repeat' split) <;> simp [hf]
@[simp] theorem State.romVersion_mem : (s.romVersion).mem = s.mem := by simp [State.romVersion]
@[simp] theorem State.flashId_mem : (s.flashId).mem = s.mem := by simp [State.flashId]
@[simp] theorem State.readHeader_mem (b : Bool) : (s.readHeader b).mem = s.mem := by
  unfold State.readHeader
  split <;> rfl
@[simp] theorem State.slotPart_mem (b : Bool) : (s.slotPart b offset data).mem = s.mem := by simp [State.slotPart]
@[simp] theorem State.slotWrite_mem : (s.slotWrite offset data).mem = s.mem := by simp [State.slotWrite]
@[simp] theorem State.spdm_mem (kind : Nat) : (s.spdm kind payload front signed).mem = s.mem := by
  unfold State.spdm
  split <;> rfl

/-! Debug. -/

@[simp] theorem State.dbgAnswer_mem : (s.dbgAnswer result).mem = s.mem := rfl
@[simp] theorem State.dbgCommand_mem (hf : ∀ t, (f t).mem = t.mem) : (s.dbgCommand op set f).mem = s.mem := by
  unfold State.dbgCommand
  (repeat' split) <;> simp [hf]
@[simp] theorem State.dbgResume_mem : (s.dbgResume num lanes).mem = s.mem := by
  unfold State.dbgResume
  split <;> simp
@[simp] theorem State.dbgStep_mem : (s.dbgStep num lanes).mem = s.mem := by
  unfold State.dbgStep
  (repeat' split) <;> rfl
@[simp] theorem State.dbgStop_mem : (s.dbgStop scope num).mem = s.mem := by
  unfold State.dbgStop
  split <;> simp
@[simp] theorem State.dbgReadV_mem : (s.dbgReadV num arg).mem = s.mem := by
  unfold State.dbgReadV
  (repeat' split) <;> rfl
@[simp] theorem State.dbgWriteV_mem : (s.dbgWriteV num arg).mem = s.mem := by
  unfold State.dbgWriteV
  (repeat' split) <;> rfl
@[simp] theorem State.dbgReadCtl_mem : (s.dbgReadCtl num).mem = s.mem := by
  unfold State.dbgReadCtl
  split <;> simp
@[simp] theorem State.dbgWriteCtl_mem : (s.dbgWriteCtl num).mem = s.mem := by
  unfold State.dbgWriteCtl
  split <;> simp

/-! Hub. -/

@[simp] theorem State.replay_mem : (s.replay id).mem = s.mem := by
  unfold State.replay
  split <;> rfl
@[simp] theorem State.wideWrite_mem (htake : ∀ t x, (take t x).mem = t.mem) : (s.wideWrite off upper v cur take).mem = s.mem := by
  simp [State.wideWrite, htake]
@[simp] theorem State.hubDiscard_mem : (s.hubDiscard).mem = s.mem := rfl
@[simp] theorem State.ctxBaseWrite_mem : (s.ctxBaseWrite upper v).mem = s.mem := by simp [State.ctxBaseWrite]
@[simp] theorem State.rgnBaseWrite_mem : (s.rgnBaseWrite upper v).mem = s.mem := by simp [State.rgnBaseWrite]
@[simp] theorem State.ringCtlWrite_mem : (s.ringCtlWrite n v).mem = s.mem := rfl
@[simp] theorem State.ringBaseWrite_mem : (s.ringBaseWrite n upper v).mem = s.mem := by
  unfold State.ringBaseWrite
  split
  · rfl
  · exact State.wideWrite_mem _ _ _ _ _ _ (fun _ _ => rfl)
@[simp] theorem State.updFaultRing_mem (f : FaultRing → FaultRing) : (s.updFaultRing n f).mem = s.mem := rfl
@[simp] theorem State.frCtlWrite_mem : (s.frCtlWrite n v).mem = s.mem := by
  unfold State.frCtlWrite
  split <;> simp
@[simp] theorem State.frBaseWrite_mem : (s.frBaseWrite n upper v).mem = s.mem := by
  unfold State.frBaseWrite
  split <;> simp
@[simp] theorem State.inwinWrite_mem : (s.inwinWrite off v).mem = s.mem := by simp [State.inwinWrite]
@[simp] theorem State.dbgCmdWrite_mem (v : Word) : (s.dbgCmdWrite v).mem = s.mem := by simp [State.dbgCmdWrite]
@[simp] theorem State.mailWrite_mem (v : Word) : (s.mailWrite o v).mem = s.mem := by
  unfold State.mailWrite
  split <;> simp
@[simp] theorem State.rmWrite_mem (v : Word) : (s.rmWrite v).mem = s.mem := by simp [State.rmWrite]
@[simp] theorem State.dataWrite_mem (b : List Byte) : (s.dataWrite o b).mem = s.mem := rfl

/-! Outside. -/

@[simp] theorem State.unsupported_mem (req : Nat) : (s.unsupported req).mem = s.mem := rfl

/-! Complete. -/

@[simp] theorem State.settleLanded_mem : (s.settleLanded op).mem = s.mem := by
  unfold State.settleLanded
  split <;> simp
@[simp] theorem State.settleHeld_mem : (s.settleHeld u).mem = s.mem := by
  unfold State.settleHeld
  (repeat' split) <;> simp

/-! Policy. -/

@[simp] theorem State.tickOnce_mem : (s.tickOnce).mem = s.mem := by
  unfold State.tickOnce
  split
  · rfl
  · exact foldl_mem (fun t n => State.settleBoost_mem n t) _ _
@[simp] theorem State.elapse_mem : (s.elapse n).mem = s.mem := by
  induction n generalizing s with
  | zero => rfl
  | succ n ih =>
    rw [State.elapse]
    split
    · rfl
    · rw [ih, State.tickOnce_mem]

/-! Step. -/

@[simp] theorem State.turnTo_mem : (s.turnTo w).mem = s.mem := rfl

end

end Sys2Proof.Machine

namespace Sys2Proof.Machine

namespace Memory

/-! THE CANONICAL FORM OF DEVICE MEMORY IS KEPT by the operations that write it: what that says of an answer, an option, a
computation that may fail and a translation; then a lemma for each operation that can write memory, in the order of the model's
files. -/

/-- Where an answer is a next state, its memory has the canonical form. -/
def WfNext (o : Out State) : Prop := ∀ t, o = .next t → wf t.mem = true

/-- Where there is a state, its memory has the canonical form. -/
def WfSome (o : Option State) : Prop := ∀ t, o = some t → wf t.mem = true

/-- Where a computation succeeds, the memory of the machine in its result has the canonical form. -/
def WfOk {ε α : Type} (π : α → State) (x : Except ε α) : Prop := ∀ a, x = .ok a → wf (π a).mem = true

@[simp] theorem wfNext_next (t : State) : WfNext (.next t) ↔ wf t.mem = true := by simp [WfNext]
@[simp] theorem wfNext_fault (r : Fault) : WfNext (.fault r) := by simp [WfNext]
@[simp] theorem wfNext_refused (r : Refusal) : WfNext (.refused r) := by simp [WfNext]
@[simp] theorem wfSome_some (t : State) : WfSome (some t) ↔ wf t.mem = true := by simp [WfSome]
@[simp] theorem wfSome_none : WfSome none := by simp [WfSome]

section
variable {ε α β : Type} {π : α → State}

@[simp] theorem wfOk_ok (a : α) : WfOk π (.ok a : Except ε α) ↔ wf (π a).mem = true := by simp [WfOk]
@[simp] theorem wfOk_error (e : ε) : WfOk π (.error e : Except ε α) := by simp [WfOk]

theorem wfOk_bind {x : Except ε α} {ρ : β → State} {k : α → Except ε β} (hx : WfOk π x)
    (hk : ∀ a, wf (π a).mem = true → WfOk ρ (k a)) :
    WfOk ρ (x.bind k) := by
  cases x with
  | error e => exact wfOk_error e
  | ok a => exact hk a (hx a rfl)

theorem wfOk_map {x : Except ε α} {ρ : β → State} {k : α → β} (hx : WfOk π x)
    (hk : ∀ a, wf (π a).mem = true → wf (ρ (k a)).mem = true) :
    WfOk ρ (x.map k) := by
  cases x with
  | error e => exact wfOk_error e
  | ok a => exact (wfOk_ok _).2 (hk a (hx a rfl))

theorem wf_ite {p : Prop} [Decidable p] {s t : State} (hs : wf s.mem = true) (ht : wf t.mem = true) :
    wf (if p then s else t).mem = true := by
  split <;> assumption

theorem wf_ite_fst {p : Prop} [Decidable p] {x y : State × α} (hx : wf x.1.mem = true) (hy : wf y.1.mem = true) :
    wf (if p then x else y).1.mem = true := by
  split <;> assumption

/-- A fold whose every step keeps the form keeps it. -/
theorem wf_foldl_of (π : α → State) {f : α → β → α} (hf : ∀ a x, wf (π a).mem = true → wf (π (f a x)).mem = true)
    (l : List β) {a : α} (h : wf (π a).mem = true) : wf (π (l.foldl f a)).mem = true :=
  List.foldlRecOn (motive := fun c => wf (π c).mem = true) l f h (fun c hc x _ => hf c x hc)

theorem wf_foldl {f : State → β → State} (hf : ∀ t x, wf t.mem = true → wf (f t x).mem = true) (l : List β) {s : State}
    (h : wf s.mem = true) : wf (l.foldl f s).mem = true := wf_foldl_of id hf l h

theorem wf_foldl_fst {f : State × α → β → State × α} (hf : ∀ b x, wf b.1.mem = true → wf (f b x).1.mem = true)
    (l : List β) {b : State × α} (h : wf b.1.mem = true) : wf (l.foldl f b).1.mem = true := wf_foldl_of Prod.fst hf l h

theorem wfOk_foldlM {f : α → β → Except ε α} (hf : ∀ a x, wf (π a).mem = true → WfOk π (f a x)) (l : List β) {a : α}
    (h : wf (π a).mem = true) : WfOk π (l.foldlM f a) := by
  induction l generalizing a with
  | nil => exact (wfOk_ok a).2 h
  | cons x l ih => exact wfOk_bind (hf a x h) (fun b hb => ih hb)

end

/-- What the translation of a whole store stops with. -/
def WfStop (e : Enter) : Prop := ∀ t, e = .stop t → wf t.mem = true

section
variable {a e : Access} {addr hdr word y : Word64} {also : Option Nat}
  {at_ base bit bn cause cn code core ctx fl head k lane len level n need num off op : Nat}
  {pa page r reason ring sec sel site slot sp st stage sub u va : Nat} {b : Src} {c : CopyOp}
  {cache frame fresh gang kill l2 long near pref wide : Bool} {d : Dst} {data : List Byte}
  {dests reads regs toks writes : List RegId} {f : State → Issue → LaneMask → Option State} {g : Guard} {i : Issue}
  {ins : Instr} {iter : Option (List Nat)} {l : List Nat × Option (CpNo × List Nat)} {m : MemOp}
  {maps : List (Piece × Mapped)} {new : List Path} {o : AtomOp} {p : Piece} {q : LaneMask}
  {rd : State → Nat → Nat → List Byte} {refs : List Nat} {run : Option State} {s : State} {sz : LoadSize} {t : Tr} {v : Word}
  {w : Wave} {want : Want} {ws : List Wave} {x : Nat × Tr}

/-! Ops. -/

@[simp] theorem wf_recallPage (h : wf s.mem = true) : wf (s.recallPage page).mem = true := wf_landAll s _ h
@[simp] theorem wf_dropNode (h : wf s.mem = true) : wf (s.dropNode u kill).mem = true := by
  unfold State.dropNode
  extract_lets mine s0 s1 s2
  have h0 : wf s0.mem = true := by simp [s0, h]
  have h1 : wf s1.mem = true := wf_foldl (fun _ _ ht => wf_cpWrite _ _ _ ht) _ h0
  exact h1
@[simp] theorem wf_failNode {n : Node} (h : wf s.mem = true) : wf (s.failNode n reason).mem = true :=
  wf_dropNode (wf_cpWrite _ _ _ (wf_cpWrite _ _ _ h))
@[simp] theorem wf_killDomain (h : wf s.mem = true) : wf (s.killDomain r also).mem = true :=
  wf_foldl (fun t n ht => by dsimp only; split <;> simp [ht]) _ h
@[simp] theorem wf_failRunning (h : wf s.mem = true) : wf (s.failRunning reason).mem = true :=
  wf_foldl (fun _ _ ht => wf_failNode ht) _ h
@[simp] theorem wf_restartPosts (h : wf s.mem = true) : wf s.restartPosts.mem = true := by
  simp [State.restartPosts, h]
@[simp] theorem wf_uncontained {r : Report} (h : wf s.mem = true) : wf (s.uncontained w r).mem = true := by
  unfold State.uncontained
  (repeat' split) <;> simp [h]
@[simp] theorem wf_illegal (h : wf s.mem = true) : wf (s.illegal i reason).mem = true := by
  simp [State.illegal, h]
@[simp] theorem wf_raiseTrap (h : wf s.mem = true) : wf (s.raiseTrap i w code new).mem = true := by
  unfold State.raiseTrap
  (repeat' split) <;> simp [h]
@[simp] theorem wf_userTrap (h : wf s.mem = true) : wf (s.userTrap i w code).mem = true := by
  simp [State.userTrap, h]
@[simp] theorem wf_tokenTrap (h : wf s.mem = true) (hrun : WfSome run) : wf (s.tokenTrap i run).mem = true := by
  unfold State.tokenTrap
  split
  · split
    · simpa using hrun
    · simp [h]
  · simp [h]
@[simp] theorem wf_userTrapAfter (h : wf s.mem = true) : wf (s.userTrapAfter i q code).mem = true := by
  simp [State.userTrapAfter, h]

/-! Operands. -/

@[simp] theorem wf_takeCheck (h : wf s.mem = true) : wf (s.takeCheck w).mem = true := by
  unfold State.takeCheck
  split <;> simp [h]
@[simp] theorem wf_checkTrap (h : wf s.mem = true) : wf (s.checkTrap i).mem = true := by
  simp [State.checkTrap, h]
@[simp] theorem wf_registerCheck (h : wf s.mem = true) : wf (s.registerCheck i).mem = true := by
  unfold State.registerCheck
  (repeat' split) <;> simp [h]
@[simp] theorem wfNext_regIssue {f : RegIn → RegFile × BitVec 6} (h : wf s.mem = true) :
    WfNext (regIssue g reads writes long f s) := by
  unfold regIssue
  dsimp only
  (repeat' split) <;> simp [h]

/-! Order. -/

@[simp] theorem wf_advanceWrite {x : Write} (h : wf s.mem = true) : wf (s.advanceWrite x).mem = true := by
  unfold State.advanceWrite
  dsimp only
  (repeat' split) <;> simp [h, wf_land]
@[simp] theorem wf_classify (h : wf s.mem = true) : wf (s.classify core ctx va pa).1.mem = true := by
  unfold State.classify
  dsimp only
  (repeat' split) <;> simp [h]
@[simp] theorem wf_thirdName (h : wf s.mem = true) : wf (s.thirdName ctx va pa).mem = true := by
  unfold State.thirdName
  dsimp only
  (repeat' split) <;> simp [h, wf_landAll]
@[simp] theorem wf_request (h : wf s.mem = true) : wf (s.request core ctx va pa).1.mem = true := by
  simp [State.request, h]
@[simp] theorem wf_atHomeAs {m : Mapped} (h : wf s.mem = true) : wf (s.atHomeAs core ctx va m).mem = true := by
  unfold State.atHomeAs
  (repeat' split) <;> simp [h]
@[simp] theorem wf_fetchSector {m : Mapped} (h : wf s.mem = true) : wf (s.fetchSector w m cache near sec).1.mem = true := by
  unfold State.fetchSector
  split <;> simp [h]
@[simp] theorem wf_loadBytes {m : Mapped} (h : wf s.mem = true) :
    wf (s.loadBytes w lane m va pa len stage fresh k).1.mem = true := by
  unfold State.loadBytes
  split <;> simp [h]
@[simp] theorem wf_tableBytes {m : Mapped} (h : wf s.mem = true) : wf (s.tableBytes w m va pa stage).1.mem = true := by
  unfold State.tableBytes
  (repeat' split) <;> simp [h]
@[simp] theorem wf_storeBytes {m : Mapped} (h : wf s.mem = true) :
    wf (s.storeBytes w op lane m va pa need frame data).mem = true := by
  unfold State.storeBytes
  split <;> simp [h, wf_homeWrite]
@[simp] theorem wf_rmwBytes {m : Mapped} {f : List Byte → Option (List Byte)} (h : wf s.mem = true) :
    wf (s.rmwBytes w op lane m va pa len stage k f).1.mem = true := by
  unfold State.rmwBytes
  dsimp only
  (repeat' split) <;> simp [h, wf_homeWrite]

/-! Post. -/

@[simp] theorem wf_postTrap (h : wf s.mem = true) : wf (s.postTrap w site code cause level bit va).mem = true := by
  unfold State.postTrap
  split <;> simp [h]
@[simp] theorem wf_accessFault (h : wf s.mem = true) : wf (s.accessFault w op va want t word addr hdr iter).mem = true := by
  unfold State.accessFault
  split <;> simp [h]
@[simp] theorem wf_atomicPath (h : wf s.mem = true) : wf (s.atomicPath w sub va want word addr hdr).mem = true := by
  unfold State.atomicPath
  split <;> simp [h]
@[simp] theorem wf_machineCheck (h : wf s.mem = true) : wf (s.machineCheck w word addr hdr).mem = true := by
  unfold State.machineCheck
  split <;> simp [h]

/-! Memory. -/

@[simp] theorem wfNext_memIssue (h : wf s.mem = true) (hf : ∀ i q, WfSome (f s i q)) : WfNext (memIssue g regs dests f s) := by
  unfold memIssue
  split
  · simp
  · dsimp only
    split
    · simp [h]
    · simp [h]
    · refine (wfNext_next _).2 (wf_tokenTrap h ?_)
      split <;> simp [hf]
    · split
      · simp [h]
      · split
        · simp [h]
        · split
          · simp [h]
          · split
            · simp [h]
            · next t ht => exact (wfNext_next t).2 (hf _ _ t ht)
@[simp] theorem wfNext_loadIssue {a : Src} (h : wf s.mem = true) : WfNext (loadIssue ins g d a b m sz s) := by
  unfold loadIssue
  exact wfNext_memIssue h (fun i q => by dsimp only; split <;> simp [h])
theorem wfStop_enter (h : wf s.mem = true) : WfStop (s.enter w a m) := by
  unfold State.enter
  dsimp only
  (repeat' split) <;> simp [WfStop, h]
@[simp] theorem wfSome_issueStore (h : wf s.mem = true) : WfSome (s.issueStore i m a) := by
  unfold State.issueStore
  extract_lets room _ bill behind
  have hb : wf bill.mem = true := by simp [bill, h]
  split
  · simp [h]
  · split
    · next t ht => exact (wfSome_some t).2 (wfStop_enter h t ht)
    · split <;> simp [hb]
    · (repeat' split) <;> simp [hb]
    · (repeat' split) <;> simp [h, hb]
@[simp] theorem wfNext_storeIssue {a : Src} {c : Src} {sz : StoreSize} (h : wf s.mem = true) :
    WfNext (storeIssue ins g a b c m sz s) := by
  unfold storeIssue
  exact wfNext_memIssue h (fun i q => by dsimp only; split <;> simp [h])
@[simp] theorem wfNext_atomIssue {d : Option Dst} {a : Src} {c : Option Src} (h : wf s.mem = true) :
    WfNext (atomIssue ins g d a b c m o s) := by
  unfold atomIssue
  exact wfNext_memIssue h (fun i q => by dsimp only; (repeat' split) <;> simp [h])

/-! Perform. -/

@[simp] theorem wf_fillTable {m : Mapped} (h : wf s.mem = true) : wf (s.fillTable w m va pa stage).1.mem = true := by
  refine wf_foldl_fst (fun b j hb => ?_) _ h
  split <;> simp [hb]
@[simp] theorem wf_tableLoad {m : Mapped} (h : wf s.mem = true) : wf (s.tableLoad w m va pa len stage k).1.mem = true := by
  unfold State.tableLoad
  (repeat' split) <;> simp [h]
@[simp] theorem wf_loadPiece {x : Mapped} (h : wf s.mem = true) : wf (s.loadPiece w a m x p k).1.mem = true := by
  unfold State.loadPiece
  dsimp only
  (repeat' split) <;> simp [h]
@[simp] theorem wf_loadPieces (h : wf s.mem = true) : wf (s.loadPieces w a m maps sel k).1.mem = true := by
  unfold State.loadPieces
  extract_lets sel r
  have hr : wf r.1.mem = true := wf_foldl_fst (fun b x hb => by dsimp only; split <;> simp [hb]) _ h
  split <;> simp [h, hr]
@[simp] theorem wf_padAccess (h : wf s.mem = true) : wf (s.padAccess w a m sel).mem = true := by
  unfold State.padAccess
  extract_lets clu rel r a1
  have hr : r.1.mem = s.mem := by
    refine foldl_fst_mem (fun b x => ?_) _ _
    dsimp only
    split
    · (repeat' split) <;> simp
    · rfl
  split
  · simp [h]
  · split <;> simp [h, hr]
@[simp] theorem wf_mappedStep (h : wf s.mem = true) : wf (s.mappedStep rd w a m sel).mem = true := by
  unfold State.mappedStep
  dsimp only
  (repeat' split) <;> simp [h]
@[simp] theorem wf_accessStep (h : wf s.mem = true) : wf (s.accessStep rd w a m sel).mem = true := by
  unfold State.accessStep
  dsimp only
  (repeat' split) <;> simp [h]
@[simp] theorem wf_storePiece {x : Mapped} (h : wf s.mem = true) : wf (s.storePiece w a m x p k).1.mem = true := by
  unfold State.storePiece
  dsimp only
  (repeat' split) <;> simp [h]
@[simp] theorem wf_storePieces (h : wf s.mem = true) : wf (s.storePieces w a m maps sel k).1.mem = true := by
  unfold State.storePieces
  extract_lets all one r
  have hr : wf r.1.mem = true := by
    refine wf_foldl_fst (fun b x hb => ?_) _ h
    exact wf_ite_fst (wf_storePiece hb) hb
  split
  · split <;> simp [h]
  · exact wf_ite_fst h hr
@[simp] theorem wf_mapStore (h : wf s.mem = true) : wf (s.mapStore w a m).mem = true := by
  unfold State.mapStore
  extract_lets room
  split
  · split <;> simp [h]
  · split
    · exact h
    · next t ht => exact wfStop_enter h t ht
    · split <;> simp [h]
    · simp [h]
@[simp] theorem wf_storeStep (h : wf s.mem = true) : wf (s.storeStep w a m sel).mem = true := by
  unfold State.storeStep
  (repeat' split) <;> simp [h]
@[simp] theorem wf_drainHead (h : wf s.mem = true) : wf (s.drainHead w).mem = true := by
  unfold State.drainHead
  dsimp only
  (repeat' split) <;> simp [h]
@[simp] theorem wf_prefetch (h : wf s.mem = true) : wf (s.prefetch w va l2).mem = true := by
  unfold State.prefetch
  split
  · split
    · exact h
    · exact wf_foldl (fun t j ht => wf_ite (by simp [ht]) (by simp [ht])) _ (by simp [h])
  · exact h
  · exact h
  · exact h

/-! Copy. -/

@[simp] theorem wf_atHomeOf {addr : Nat} {m : Mapped} (h : wf s.mem = true) : wf (s.atHomeOf w addr m).mem = true := by
  simp [State.atHomeOf, h]
theorem wfOk_readLoop (h : wf s.mem = true) : WfOk Prod.fst (s.readLoop w op want va) := by
  unfold State.readLoop
  split
  · dsimp only
    split <;> simp [h]
  · simp
@[simp] theorem wf_resumeCopy (h : wf s.mem = true) : wf (s.resumeCopy w c).mem = true := by
  unfold State.resumeCopy
  split
  · simp [h]
  · split
    · simp [h]
    · next t bs bad ht =>
      have ht := wfOk_readLoop h _ ht
      (repeat' split) <;> simp_all
theorem wfOk_copySource {addr : Nat} (h : wf s.mem = true) : WfOk Prod.fst (s.copySource rd w c addr) := by
  unfold State.copySource
  split
  · split
    · dsimp only
      split <;> simp [h]
    · simp
  · simp [h]
theorem wfOk_copyWrite {addr : Nat} (h : wf s.mem = true) : WfOk id (s.copyWrite w c addr data) := by
  unfold State.copyWrite
  split
  · split
    · dsimp only
      split <;> simp [h, wf_homeWrite]
    · simp
  · simp [h]
@[simp] theorem wf_copyFault (h : wf s.mem = true) : wf (s.copyFault w c want x).mem = true := by
  unfold State.copyFault
  (repeat' split) <;> simp [h]
@[simp] theorem wf_copyUnit (h : wf s.mem = true) : wf (s.copyUnit rd op k).mem = true := by
  unfold State.copyUnit
  split
  · exact h
  · split
    · exact h
    · next c hc _ w hw =>
      extract_lets restoring u ahead
      split
      · exact h
      · split
        · simp [h]
        · split
          · split <;> simp [h]
          · split
            · exact h
            · split
              · exact h
              · split
                · simp [h]
                · next s1 data pa h1 =>
                  have h1 := wfOk_copySource h _ h1
                  split
                  · split <;> simp [h]
                  · split
                    · simp [h]
                    · next t ht =>
                      have ht := wfOk_copyWrite h1 t ht
                      simp only [id] at ht
                      (repeat' split) <;> simp [ht]
@[simp] theorem wf_publishStep (h : wf s.mem = true) : wf (s.publishStep w a).mem = true := by
  unfold State.publishStep
  (repeat' split) <;> simp [h]
@[simp] theorem wf_ptComplete (h : wf s.mem = true) : wf (s.ptComplete num).mem = true := by
  unfold State.ptComplete
  (repeat' split) <;> simp [h, wf_landAll]

/-! Cross. -/

@[simp] theorem wf_countArrival (h : wf s.mem = true) : wf (s.countArrival w a n).mem = true := by
  unfold State.countArrival
  dsimp only
  (repeat' split) <;> simp [h]
@[simp] theorem wfNext_gbar (h : wf s.mem = true) : WfNext (gbar gang ins g s) := by
  unfold gbar
  exact wfNext_memIssue h (fun i q => by dsimp only; (repeat' split) <;> simp [h])

/-! Control. -/

@[simp] theorem wf_fetchFault (h : wf s.mem = true) : wf (s.fetchFault w x hdr).mem = true := by
  simp [State.fetchFault, h]
@[simp] theorem wf_illegalClause (h : wf s.mem = true) : wf (s.illegalClause w reason word addr hdr).mem = true := by
  simp [State.illegalClause, h]
@[simp] theorem wf_startClause {p : Path} {hd : Word64} {ws : List Word64} (h : wf s.mem = true) :
    wf (s.startClause w p hd ws).mem = true := by
  unfold State.startClause
  dsimp only
  (repeat' split) <;> simp [h]
@[simp] theorem wf_clauseStart (h : wf s.mem = true) : wf (s.clauseStart u lane).mem = true := by
  unfold State.clauseStart
  dsimp only
  (repeat' split) <;> simp [h]
@[simp] theorem wfNext_pathIssue (h : wf s.mem = true) (hf : ∀ i q, WfSome (f s i q)) :
    WfNext (pathIssue g toks reads writes f s) := by
  unfold pathIssue
  split
  · simp
  · dsimp only
    split
    · simp [h]
    · simp [h]
    · refine (wfNext_next _).2 (wf_tokenTrap h ?_)
      split <;> simp [hf]
    · split
      · simp [h]
      · split
        · simp [h]
        · split
          · simp [h]
          · split
            · simp [h]
            · next t ht => exact (wfNext_next t).2 (hf _ _ t ht)
@[simp] theorem wf_transfer {t : Nat → Word64} (h : wf s.mem = true) : wf (s.transfer i w q t).mem = true := by
  unfold State.transfer
  split <;> simp [h]
@[simp] theorem wfSome_call {d : Fin 192} {t : Nat → Word64} (h : wf s.mem = true) : WfSome (s.call i q d t) := by
  unfold State.call
  extract_lets ts bw s1 s2 rf w1
  have h1 : s1.mem = s.mem := foldl_mem (by simp) _ _
  have h2 : s2.mem = s.mem := (foldl_mem (fun z x => by split <;> simp) _ _).trans h1
  split
  · simp [h]
  · split
    · split <;> simp [h]
    · split
      · split <;> simp [h, h2]
      · simp [h, h2]

/-! Region. -/

@[simp] theorem wf_hubKill (h : wf s.mem = true) : wf (s.hubKill r).mem = true := by
  unfold State.hubKill
  split <;> simp [h]
@[simp] theorem wf_writeAccounts {x : Region} (h : wf s.mem = true) : wf (s.writeAccounts x).mem = true :=
  wf_cpWrite _ _ _ h

/-! Span. -/

@[simp] theorem wf_walkFault {k : Walk} (h : wf s.mem = true) : wf (s.walkFault w k want x).mem = true := by
  unfold State.walkFault
  split <;> simp [h]
@[simp] theorem wf_walkUnit (h : wf s.mem = true) : wf (s.walkUnit rd op u).mem = true := by
  unfold State.walkUnit
  split
  · exact h
  · split
    · exact h
    · next k hk _ w hw =>
      dsimp only
      split
      · exact h
      · split
        · simp [h]
        · split
          · exact h
          · split
            · exact h
            · split
              · simp [h]
              · next s1 data pa h1 =>
                have h1 := wfOk_copySource h _ h1
                split
                · split <;> simp [h]
                · split
                  · exact h
                  · next t ht => simpa using wfOk_copyWrite h1 t ht
@[simp] theorem wfNext_spanIssue (h : wf s.mem = true) (hf : ∀ i q, WfSome (f s i q)) :
    WfNext (spanIssue g regs dests f s) := by
  unfold spanIssue
  split
  · simp
  · split
    · simp [h]
    · simp [h]
    · simp [h, hf]
    · split
      · simp [h]
      · split
        · simp [h]
        · next t ht => exact (wfNext_next t).2 (hf _ _ t ht)
@[simp] theorem wfSome_postRows {d : Fin 192} (h : wf s.mem = true) : WfSome (s.postRows i d e) := by
  unfold State.postRows
  extract_lets a
  split
  · simp
  · split
    · simp
    · split
      · simp
      · next t ht => exact (wfSome_some t).2 (wfStop_enter h t ht)
      · simp [h]
      · simp [h]
@[simp] theorem wf_relStStep (h : wf s.mem = true) : wf (s.relStStep w a).mem = true := by
  unfold State.relStStep
  dsimp only
  (repeat' split) <;> simp [h]
@[simp] theorem wfNext_mma {o : MmaOps} {c : Nat} (h : wf s.mem = true) : WfNext (mma ins g o bn c cn s) := by
  unfold mma
  refine wfNext_spanIssue h (fun i q => ?_)
  extract_lets w bad quarters bytes ps a s1
  have h1 : s1.mem = s.mem := foldl_mem (by simp) _ _
  split
  · split <;> simp [h]
  · (repeat' split) <;> simp [h, h1]
@[simp] theorem wf_loopResume (h : wf s.mem = true) : wf (s.loopResume op).mem = true := by
  unfold State.loopResume
  split
  · exact h
  · split
    · exact h
    · next w hw =>
      extract_lets resident regs go
      have hgo (t : State) (x : Walk) (ht : wf t.mem = true) : wf (go t x).mem = true := ht
      split
      · exact h
      · split
        · exact h
        · split
          · exact hgo _ _ h
          · split
            · simp [h]
            · next t bs bad ht =>
              have ht := wfOk_readLoop h _ ht
              split
              · simp [h]
              · split
                · simp [h]
                · exact hgo _ _ ht
@[simp] theorem wf_passEntry {e : SpanEntry} (h : wf s.mem = true) : wf (s.passEntry e).mem = true := by
  unfold State.passEntry
  dsimp only
  (repeat' split) <;> simp [h]

/-! Launch. -/

@[simp] theorem wf_setState {a : Nat} (h : wf s.mem = true) : wf (s.setState a st).mem = true := wf_cpWrite _ _ _ h
@[simp] theorem wf_makeReady (h : wf s.mem = true) : wf (s.makeReady at_ ring slot).mem = true := by
  simp [State.makeReady, h]
@[simp] theorem wf_submitSlot (h : wf s.mem = true) : wf (s.submitSlot at_ ring slot).mem = true := by
  unfold State.submitSlot
  dsimp only
  (repeat' split) <;> simp [h]
@[simp] theorem wf_doorbell (h : wf s.mem = true) : wf (s.doorbell ring head).mem = true := by
  unfold State.doorbell
  extract_lets r
  split
  · exact h
  · split
    · simp [h]
    · simpa using wf_foldl (fun t k ht => wf_submitSlot ht) _ h
@[simp] theorem wf_lowerPred (h : wf s.mem = true) : wf (s.lowerPred at_ ring slot).mem = true := by
  unfold State.lowerPred
  extract_lets a p s1
  have h1 : wf s1.mem = true := wf_cpWrite _ _ _ h
  split
  · exact wf_makeReady h1
  · exact h1
@[simp] theorem wf_lowerAll (h : wf s.mem = true) : wf (s.lowerAll at_ refs).1.mem = true := by
  refine wf_foldl_fst (fun b x hb => ?_) _ h
  dsimp only
  (repeat' split) <;> simp [hb]
@[simp] theorem wf_lowerRefs {a : Nat} {c : Ctx} (h : wf s.mem = true) : wf (s.lowerRefs a at_ c l).mem = true := by
  unfold State.lowerRefs
  extract_lets r t
  have ht : wf t.mem = true := by
    simp only [t]
    split
    · exact wf_cpWrite _ _ _ (wf_lowerAll h)
    · exact wf_lowerAll h
  split <;> simp [ht]
@[simp] theorem wf_resumeSuccs (h : wf s.mem = true) : wf s.resumeSuccs.mem = true :=
  wf_foldl (fun _ _ ht => wf_lowerRefs ht) _ h
@[simp] theorem wf_completeNode {n : Node} (h : wf s.mem = true) : wf (s.completeNode n).mem = true :=
  wf_dropNode (wf_lowerRefs (wf_setState (wf_cpWrite _ _ _ (wf_cpWrite _ _ _ h))))
@[simp] theorem wf_rejectNode {n : Node} (h : wf s.mem = true) : wf (s.rejectNode n reason).mem = true := by
  simp [State.rejectNode, h]
@[simp] theorem wf_answerEnqg {e : PendEnq} (h : wf s.mem = true) : wf (s.answerEnqg w e d).mem = true := by
  unfold State.answerEnqg
  dsimp only
  (repeat' split) <;> simp [h]

/-! Raster. -/

@[simp] theorem wf_closePass {p : Pass} (h : wf s.mem = true) : wf (s.closePass p).mem = true := wf_cpWrite _ _ _ h
@[simp] theorem wf_settleNode (h : wf s.mem = true) : wf (s.settleNode u).mem = true := by
  unfold State.settleNode
  split
  · exact h
  · split
    · exact h
    · exact wf_completeNode (wf_foldl (fun _ _ ht => wf_closePass ht) _ h)
@[simp] theorem wf_pixPiece {m : Mapped} (h : wf s.mem = true) : wf (s.pixPiece w a m p fl).1.mem = true := by
  unfold State.pixPiece
  split
  · cases hw : w.frags.find p.lane <;> simp [h]
  · simp [h]
@[simp] theorem wf_pixMapped (h : wf s.mem = true) : wf (s.pixMapped w a sel).mem = true := by
  unfold State.pixMapped
  extract_lets maps blend r a1
  have hr : wf r.1.mem = true := wf_foldl_fst (fun b x hb => by dsimp only; split <;> simp [hb]) _ h
  split
  · simp [h]
  · split
    · exact h
    · split <;> simp [hr]
@[simp] theorem wf_pixStep (h : wf s.mem = true) : wf (s.pixStep w a sel).mem = true := by
  unfold State.pixStep
  dsimp only
  (repeat' split) <;> simp [h]

/-! Place. -/

@[simp] theorem wfSome_placeFirst {hs : List Head} (h : wf s.mem = true) : WfSome (s.placeFirst site hs) := by
  induction hs with
  | nil => simp [State.placeFirst]
  | cons x l ih =>
    unfold State.placeFirst
    dsimp only
    (repeat' split) <;> simp [h, ih]
@[simp] theorem wf_emptySpoke (h : wf s.mem = true) : wf (s.emptySpoke sp).mem = true := by
  simp [State.emptySpoke, h, wf_landAll]

/-! Save. -/

theorem wfOk_saveChunk {x : Nat × List Byte} (h : wf s.mem = true) : WfOk id (s.saveChunk w x) := by
  unfold State.saveChunk
  split <;> simp [h, wf_homeWrite]
theorem wfOk_saveRead (h : wf s.mem = true) : WfOk Prod.fst (s.saveRead w va n) := by
  unfold State.saveRead
  split <;> simp [h]
theorem wfOk_deviceRead (h : wf s.mem = true) : WfOk Prod.fst (s.deviceRead w va n) := by
  refine wfOk_map (wfOk_saveRead h) (fun r hr => ?_)
  split <;> simp [hr]
theorem wfOk_saveParts {ps : List (Nat × List Byte)} (h : wf s.mem = true) : WfOk id (s.saveParts w base ps) := by
  induction ps generalizing s with
  | nil => simpa [State.saveParts] using h
  | cons x l ih =>
    unfold State.saveParts
    split
    · simp
    · next t ht =>
      have hc (cs : List (Nat × List Byte)) : WfOk id (cs.foldlM (fun s c => s.saveChunk w c) s) :=
        wfOk_foldlM (fun _ _ ha => wfOk_saveChunk ha) cs h
      exact ih (hc _ t ht)
@[simp] theorem wf_saveFault (h : wf s.mem = true) : wf (s.saveFault w t word addr hdr).mem = true := by
  unfold State.saveFault
  split <;> simp [h]
@[simp] theorem wfNext_saveIssue {r : State → Issue → LaneMask → Option Nat} {f : State → Issue → LaneMask → State}
    (h : wf s.mem = true) (hf : ∀ i q, wf (f s i q).mem = true) : WfNext (saveIssue g regs dests r f s) := by
  unfold saveIssue
  refine wfNext_memIssue h (fun i q => ?_)
  dsimp only
  split <;> simp [h, hf]
@[simp] theorem wfNext_padSave {a : Src} (h : wf s.mem = true) : WfNext (padSave ins g a b s) := by
  simp [padSave, h]
@[simp] theorem wf_finishRestw (h : wf s.mem = true) : wf (s.finishRestw w a).mem = true := by
  unfold State.finishRestw
  dsimp only
  (repeat' split) <;> simp [h]
theorem wfOk_savePiece (h : wf s.mem = true) : WfOk Prod.fst (s.savePiece w a p) := by
  unfold State.savePiece
  extract_lets off
  split
  · extract_lets pad
    split
    · simp [h]
    · split
      · split
        · next t ht => simpa using wfOk_saveChunk h t ht
        · simp
      · split
        · next t b bad ht =>
          have ht := wfOk_saveRead h _ ht
          simpa using ht
        · simp
  · simp
@[simp] theorem wf_saveStep (h : wf s.mem = true) : wf (s.saveStep w a sel).mem = true := by
  unfold State.saveStep
  split
  · exact h
  · extract_lets r
    have hr : WfOk Prod.fst r := wfOk_foldlM (fun b x hb => by
      split
      · exact wfOk_map (wfOk_savePiece hb) (fun _ hx => hx)
      · simpa using hb) _ h
    cases hx : r with
    | error e => simp [h]
    | ok x =>
      have hx := hr x hx
      dsimp only
      (repeat' split) <;> simp [h, hx]
theorem wfOk_saveWave {g : Gang} (h : wf s.mem = true) : WfOk id (s.saveWave g w) := by
  unfold State.saveWave
  extract_lets base
  split
  · exact wfOk_saveParts h
  · exact wfOk_bind (wfOk_deviceRead h) (fun r hr => wfOk_saveParts hr)
theorem wfOk_saveRecord {g : Gang} {b : Batch} (h : wf s.mem = true) : WfOk id (s.saveRecord g b ws) := by
  unfold State.saveRecord
  split
  · simpa using h
  · dsimp only
    split
    · simp
    · next t ht =>
      refine wfOk_foldlM (fun t w ht => ?_) _ (wfOk_saveParts h t ht)
      split
      · next x hx => simpa using wfOk_saveWave ht x hx
      · simp
theorem wfOk_deviceRange (h : wf s.mem = true) : WfOk Prod.fst (s.deviceRange w va n) := by
  unfold State.deviceRange
  refine wfOk_foldlM (fun a x ha => ?_) _ h
  exact wfOk_map (wfOk_deviceRead ha) (fun _ hr => hr)
theorem wfOk_loadWhole (h : wf s.mem = true) : WfOk Prod.fst (s.loadWhole w) := by
  unfold State.loadWhole
  refine wfOk_bind (wfOk_deviceRange h) (fun c hc => ?_)
  exact wfOk_map (wfOk_deviceRange hc) (fun _ hr => hr)
theorem wfOk_loadPad {g : Workgroup} (h : wf s.mem = true) : WfOk id (s.loadPad ws g) := by
  unfold State.loadPad
  split
  · simpa using h
  · split
    · next r hr => simpa using wfOk_deviceRange h r hr
    · simp
theorem wfOk_restoreWave (h : wf s.mem = true) : WfOk Prod.fst (s.restoreWave w) := by
  unfold State.restoreWave
  split
  · exact wfOk_loadWhole h
  · split
    · simpa using h
    · refine wfOk_foldlM (fun x m hx => wfOk_foldlM (fun y k hy => ?_) _ hx) _ h
      exact wfOk_map (wfOk_deviceRead hy) (fun _ hr => hr)
theorem wfOk_loadGang {g : Gang} (h : wf s.mem = true) : WfOk id (s.loadGang g) := by
  unfold State.loadGang
  extract_lets ws r
  have hr : WfOk id r := by
    refine wfOk_foldlM (fun t w ht => ?_) _ h
    split
    · next x hx =>
      have hx : wf x.1.mem = true := by
        split at hx
        · exact wfOk_loadWhole ht x hx
        · exact wfOk_restoreWave ht x hx
      simpa using hx
    · simp
  split
  · exact wfOk_bind hr (fun t ht => wfOk_foldlM (fun _ _ ha => wfOk_loadPad ha) _ ht)
  · exact hr

/-! Firmware. -/

@[simp] theorem wf_gateAll (h : wf s.mem = true) : wf s.gateAll.mem = true := by
  simpa only [State.gateAll] using wf_foldl (fun _ _ ht => wf_emptySpoke ht) (List.range 8) h
@[simp] theorem wf_loadBody {b : Bool} (h : wf s.mem = true) : wf (s.loadBody b).mem = true := wf_cpWrite _ _ _ h
@[simp] theorem wf_bootFrom (h : wf s.mem = true) : wf (s.bootFrom pref).mem = true := by
  unfold State.bootFrom
  dsimp only
  (repeat' split) <;> simp [h]
@[simp] theorem wf_endBoot (h : wf s.mem = true) : wf s.endBoot.mem = true := by
  unfold State.endBoot
  split <;> simp [h]
@[simp] theorem wf_bootSlot {b : Bool} (h : wf s.mem = true) : wf (s.bootSlot b).mem = true := by
  unfold State.bootSlot
  dsimp only
  (repeat' split) <;> simp [h]

/-! Hub. -/

@[simp] theorem wf_regWrite (h : wf s.mem = true) : wf (s.regWrite off v).mem = true := by
  unfold State.regWrite
  extract_lets up n
  iterate 10 refine wf_ite (by simp [h]) ?_
  refine wf_ite ?_ (wf_ite ?_ ?_)
  · (repeat' split) <;> simp [h]
  · split <;> simp [h]
  · iterate 5 refine wf_ite (by simp [h]) ?_
    exact h
@[simp] theorem wf_windowWrite (h : wf s.mem = true) : wf (s.windowWrite off data).mem = true := by
  unfold State.windowWrite
  dsimp only
  (repeat' split) <;> simp [h]

/-! Outside. -/

@[simp] theorem wf_shareRange (h : wf s.mem = true) : wf (s.shareRange pa len).mem = true :=
  wf_foldl (fun t pa ht => wf_share t pa ht) _ h
@[simp] theorem wf_outerRead (h : wf s.mem = true) : wf (s.outerRead pa len).1.mem = true := by
  simp [State.outerRead, h]
@[simp] theorem wf_outerWrite (h : wf s.mem = true) : wf (s.outerWrite pa data).mem = true := by
  simp [State.outerWrite, h, wf_homeWrite]
@[simp] theorem wf_outerRmw {op : AtomOp} {x : Word64} (h : wf s.mem = true) : wf (s.outerRmw pa op wide x y).1.mem = true := by
  unfold State.outerRmw
  dsimp only
  (repeat' split) <;> simp [h, wf_homeWrite]

/-! Complete. -/

@[simp] theorem wf_stepAccess (h : wf s.mem = true) : wf (s.stepAccess w a sel).mem = true := by
  unfold State.stepAccess
  (repeat' split) <;> simp [h]
@[simp] theorem wf_stepOp (h : wf s.mem = true) : wf (s.stepOp w a sel).mem = true := by
  unfold State.stepOp
  (repeat' split) <;> simp [h]
@[simp] theorem wf_nextStage {x : Write} (h : wf s.mem = true) : wf (s.nextStage x).mem = true := by
  unfold State.nextStage
  split <;> simp [h]
@[simp] theorem wf_stepWrites (h : wf s.mem = true) : wf (s.stepWrites op).mem = true := by
  unfold State.stepWrites
  split
  · exact h
  · simpa using wf_foldl (fun t x ht => wf_nextStage ht) _ h
@[simp] theorem wf_stepIo (h : wf s.mem = true) : wf (s.stepIo op).mem = true := by
  unfold State.stepIo
  dsimp only
  (repeat' split) <;> simp [h]
@[simp] theorem wf_stepNumber (h : wf s.mem = true) : wf (s.stepNumber op sel).mem = true := by
  unfold State.stepNumber
  (repeat' split) <;> simp [h]

end

end Memory

end Sys2Proof.Machine

namespace Sys2Proof.Machine

namespace Memory

/-! EVERY ARM OF `exec` AND EVERY STEP KEEPS THE FORM. First, the register words issue through `regIssue`. -/

section
variable {a b c : Src} {d : Dst} {f : Word → Word × BitVec 6} {g : Guard} {long : Bool} {s : State}

@[simp] theorem wfNext_op1 (h : wf s.mem = true) : WfNext (op1 g d a long f s) := wfNext_regIssue h
@[simp] theorem wfNext_op2 {f : Word → Word → Word × BitVec 6} (h : wf s.mem = true) :
    WfNext (op2 g d a b f s) := wfNext_regIssue h
@[simp] theorem wfNext_op3 {f : Word → Word → Word → Word × BitVec 6} (h : wf s.mem = true) : WfNext (op3 g d a b c f s) :=
  wfNext_regIssue h
@[simp] theorem wfNext_op2w {wd : Widen} {f : Word64 → Word64 → Word64 × BitVec 6} (h : wf s.mem = true) :
    WfNext (op2w g d a b wd f s) := wfNext_regIssue h
@[simp] theorem wfNext_shfl {k : ShflKind} {c : Option (Fin 8)} {wd : ShflWidth} (h : wf s.mem = true) :
    WfNext (shfl k g d a b c wd s) := by
  unfold shfl
  exact wfNext_regIssue h
@[simp] theorem wfNext_vote {f : LaneMask → LaneMask → Bool} {a : PComb} {d : Fin 8} (h : wf s.mem = true) :
    WfNext (vote f g d a s) := wfNext_regIssue h
@[simp] theorem wfNext_hsetp2 {f : Fmt} {d : Fin 4} {c : PComb} {cmp : FCompare} {k : PCombine} (h : wf s.mem = true) :
    WfNext (hsetp2 f g d a b c cmp k s) := wfNext_regIssue h
@[simp] theorem wfNext_dotF {f : Fmt} {n w : Nat} {ea eb : Fin 4} {fm : FpMode} (h : wf s.mem = true) :
    WfNext (dotF f n w g d a b c ea eb fm s) := by simp [dotF, h]

end

/-! The arms that need more than the lemmas of what they call, in the order of the model's files. -/

section
variable {a b : Src} {cluster gang site : Nat} {g : Guard} {i : Issue} {name : Fin 64} {q : LaneMask} {s t : State}

@[simp] theorem wfNext_execCpy {sync : Option Src} {desc : Fin 48} {dir : CpyDir} {shw : Bool} (h : wf s.mem = true) :
    WfNext (execCpy g a b sync desc dir shw s) := by
  unfold execCpy
  refine wfNext_memIssue h (fun i q => ?_)
  extract_lets l rf lit val da c misaligned syncOut
  have hr : WfOk Prod.fst (s.readLoop i.w s.fresh Want.copyRead da) := wfOk_readLoop h
  split
  · simp
  · split
    · simp [h]
    · split
      · (repeat' split) <;> simp [h]
      · next t bs bad ht =>
        have ht := hr _ ht
        split
        · (repeat' split) <;> simp [h, ht]
        · split
          · simp [h]
          · extract_lets c1
            (repeat' split) <;> simp [h, ht]

@[simp] theorem wfNext_execMts {num : Fin 256} (h : wf s.mem = true) : WfNext (execMts g a num s) := by
  unfold execMts
  split
  · simp
  · extract_lets out
    have ho : WfNext out := wfNext_regIssue h
    cases hout : out with
    | next t =>
      have ht := ho t hout
      dsimp only
      split <;> simp [ht]
    | fault r => simp
    | refused r => simp

theorem arrive_mem {n count : Nat} {ins : Instr} {w : Wave} (h : s.arrive i q n count ins = .done t w) : t.mem = s.mem := by
  unfold State.arrive at h
  grind [State.tryArrive_mem]

@[simp] theorem wfNext_execBarArr (h : wf s.mem = true) : WfNext (execBarArr g name a s) := by
  unfold execBarArr
  refine wfNext_memIssue h (fun i q => ?_)
  dsimp only
  split
  · simp [h]
  · simp [h]
  · next t w ht => simp [arrive_mem ht, h]

@[simp] theorem wfNext_execBarSync (h : wf s.mem = true) : WfNext (execBarSync g name a s) := by
  unfold execBarSync
  refine wfNext_memIssue h (fun i q => ?_)
  split
  · simp [h]
  · dsimp only
    split
    · simp [h]
    · simp [h]
    · next t w ht => simp [arrive_mem ht, h]

@[simp] theorem wfNext_execEnergyWindowEnd (h : wf s.mem = true) : WfNext (execEnergyWindowEnd s) := by
  unfold execEnergyWindowEnd
  split
  · simp [h]
  · exact (wfNext_next _).2 (wf_foldl (fun _ _ ht => wf_writeAccounts ht) _ h)

@[simp] theorem wfNext_execSpanLoop {d : Fin 192} {a b c : Fin 48} {stage : Fin 256} (h : wf s.mem = true) :
    WfNext (execSpanLoop g d a b c stage s) := by
  unfold execSpanLoop
  refine wfNext_spanIssue h (fun i q => ?_)
  extract_lets w va vb vc k start go
  have hgo : WfSome go := by
    unfold go
    split
    · simp [h]
    · split
      · simp [h]
      · split
        · simp [h]
        · split
          · simp
          · have hr : WfOk Prod.fst (s.readLoop w s.fresh Want.loopRead vc) := wfOk_readLoop h
            split
            · dsimp only
              split <;> simp [start, h]
            · simp [h]
            · simp
            · next t bs bad ht =>
              have ht := hr _ ht
              (repeat' split) <;> simp [start, h, ht]
  split
  · simp
  · split
    · simp [h, hgo]
    · exact hgo

@[simp] theorem wfNext_execSpanPassEnd (h : wf s.mem = true) : WfNext (execSpanPassEnd cluster s) := by
  unfold execSpanPassEnd
  extract_lets sp s1
  have h1 : wf s1.mem = true := by simp [s1, h]
  have h2 : wf (sp.pass.foldl State.passEntry s1).mem = true := wf_foldl (fun _ _ ht => wf_passEntry ht) _ h1
  (repeat' split) <;> simp [h, h2]

@[simp] theorem wfNext_execNodeStart (h : wf s.mem = true) : WfNext (execNodeStart s) := by
  unfold execNodeStart
  split
  · simp [h]
  · split
    · simp [h]
    · dsimp only
      split
      · simp [h]
      · simp [h]
      · simp [h]
      · simpa using wf_cpWrite _ _ _ (wf_setState (by simp [h]))

@[simp] theorem wfNext_execRastEmit {a c : Fin 192} {b : Fin 48} {e : PComb} (h : wf s.mem = true) :
    WfNext (execRastEmit g a b c e s) := by
  unfold execRastEmit
  refine wfNext_memIssue h (fun i q => ?_)
  dsimp only
  (repeat' split) <;> simp [h, wf_putBytes, wf_share]

@[simp] theorem wfNext_execGangPlace (h : wf s.mem = true) : WfNext (execGangPlace site s) := by
  unfold execGangPlace
  split
  · cases hp : s.placeFirst site s.heads with
    | none => simp [h]
    | some t => simpa using wfSome_placeFirst h t hp
  · simp [h]

@[simp] theorem wfNext_execRestwC (h : wf s.mem = true) : WfNext (execRestwC g s) := by
  unfold execRestwC
  exact wfNext_saveIssue h (fun i q => by simp only [State.issueOp_mem, h])

@[simp] theorem wfNext_execPreemptDrain (h : wf s.mem = true) : WfNext (execPreemptDrain gang s) := by
  unfold execPreemptDrain
  split
  · simp [h]
  · split
    · simp [h]
    · split
      · dsimp only
        split <;> simp [h]
      · split
        · split
          · simp [h]
          · extract_lets ws early s1 s2
            have h1 : wf s1.mem = true := wf_foldl (fun _ _ ht => by simp [ht]) _ h
            have h2 : wf s2.mem = true := wf_landAll s1 _ h1
            split
            · simp [h1]
            · split
              · simp [h2]
              · next t ht => simpa using wfOk_saveRecord h2 t ht
        · simp [h]

@[simp] theorem wfNext_execGangRestore (h : wf s.mem = true) : WfNext (execGangRestore gang s) := by
  unfold execGangRestore
  split
  · simp [h]
  · split
    · simp [h]
    · split
      · next t ht => exact (wfNext_next t).2 (wfOk_loadGang (by simp [h]) t ht)
      · simp [h]

@[simp] theorem wfNext_execPackageReset : WfNext (execPackageReset s) := (wfNext_next _).2 rfl

@[simp] theorem wfNext_execBootSlot {v : BitVec 32} (h : wf s.mem = true) : WfNext (execBootSlot v s) := by
  unfold execBootSlot State.fwCommand
  (repeat' split) <;> simp [h]

@[simp] theorem wf_emptySpokes (l : List Nat) (h : wf s.mem = true) : wf (l.foldl State.emptySpoke s).mem = true :=
  wf_foldl (fun _ _ ht => wf_emptySpoke ht) l h

@[simp] theorem wfNext_execHostLinkFailure (h : wf s.mem = true) : WfNext (execHostLinkFailure s) := by
  unfold execHostLinkFailure
  split <;> simp [h]

end

/-! The arms of `exec`, by what their meaning goes through. -/

section
variable {i : Issue} {m : Move} {o : Out State} {s : State} {u : Nat}

theorem wfNext_exec (ins : Instr) (h : wf s.mem = true) : WfNext (exec ins s) := by
  cases ins
  -- Words whose effect is on registers only.
  case iadd | iadd3 | isub | ineg | iabs | imul24 | imul24h | imad24 | imul | imulh | imad | imin | imax | isetp | lop3 | shl |
    shr | sha | shf | bfe | bfi | brev | popc | clz | ctz | prmt | lea | iadd64 | movi | plop3 | fadd | fmul | fmin | fmax |
    ffma | fsetp | dadd | dmul | dfma | dsetp | hadd2F16 | hadd2Bf16 | hmul2F16 | hmul2Bf16 | hfma2F16 | hfma2Bf16 | hmin2F16 |
    hmin2Bf16 | hmax2F16 | hmax2Bf16 | hsetp2F16 | hsetp2Bf16 | dot4S8 | dot4Z8 | dot8S4 | dot8Z4 | dot4fE4m3 | dot4fE5m2 |
    dot8fE2m1 | scale | cvt | unpack | rcp | rsq | sqrt | ex2 | lg2 | sin | cos | tanh | pair | shflIdx | shflUp | shflDn |
    shflXor | voteAny | voteAll | voteEq | voteBal | redux | scan | matchLanes =>
    simp [exec, execIadd, execIadd3, execIsub, execIneg, execIabs, execImul24, execImul24h, execImad24, execImul, execImulh,
      execImad, execImin, execImax, execIsetp, execLop3, execShl, execShr, execSha, execShf, execBfe, execBfi, execBrev,
      execPopc, execClz, execCtz, execPrmt, execLea, execIadd64, execMovi, execPlop3, execFadd, execFmul, execFmin, execFmax,
      execFfma, execFsetp, execDadd, execDmul, execDfma, execDsetp, execHadd2F16, execHadd2Bf16, execHmul2F16, execHmul2Bf16,
      execHfma2F16, execHfma2Bf16, execHmin2F16, execHmin2Bf16, execHmax2F16, execHmax2Bf16, execHsetp2F16, execHsetp2Bf16,
      execDot4S8, execDot4Z8, execDot8S4, execDot8Z4, execDot4fE4m3, execDot4fE5m2, execDot8fE2m1, execScale, execCvt,
      execUnpack, execRcp, execRsq, execSqrt, execEx2, execLg2, execSin, execCos, execTanh, execPair, execShflIdx, execShflUp,
      execShflDn, execShflXor, execVoteAny, execVoteAll, execVoteEq, execVoteBal, execRedux, execScan, execMatchLanes, h]
  -- The same, in two forms.
  case sel | mov | movs | fclass | frnd | pack =>
    simp only [exec, execSel, execMov, execMovs, execFclass, execFrnd, execPack]
    split <;> simp [h]
  -- Words and events that are one shared function.
  case barWait | gbarGrid | gbarGang | bra | brx | call | calli | ret | join | waitj | dropj | exit | yield | nop | trap | ldf |
    stf | lds | sts | ats | ldc | stc | atc | ldg | stg | atg | redg | ldt | ldh | sth | ath | redh | fence | fenceXp |
    fencePt | accessPerformed | ptCompletion | spanMmaBf16 | spanMmaE4m3 | spanMmaE5m2 | spanMmaE2m1 | spanMmaW4bf |
    spanMmaWf4bf | spanMmaE4m3B32 | spanMmaE5m2B32 | spanMmaE2m1B32 | loopResume | savewC | savewV | savewS | restwV | restwS |
    clauseStart | hubDoorbell | registerWrite =>
    simp [exec, execBarWait, execGbarGrid, execGbarGang, execBra, execBrx, execCall, execCalli, execRet, execJoin, execWaitj,
      execDropj, execExit, execYield, execNop, execTrap, execLdf, execStf, execLds, execSts, execAts, execLdc, execStc, execAtc,
      execLdg, execStg, execAtg, execRedg, execLdt, execLdh, execSth, execAth, execRedh, execFence, execFenceXp, execFencePt,
      execAccessPerformed, execPtCompletion, execSpanMmaBf16, execSpanMmaE4m3, execSpanMmaE5m2, execSpanMmaE2m1,
      execSpanMmaW4bf, execSpanMmaWf4bf, execSpanMmaE4m3B32, execSpanMmaE5m2B32, execSpanMmaE2m1B32, execLoopResume, execSavewC,
      execSavewV, execSavewS, execRestwV, execRestwS, execClauseStart, execHubDoorbell, execRegisterWrite, h]
  -- Words with a body of their own.
  case pf | cpyx | synci | syncw | publish | pbarArr | pbarWait | bpt | rftResume | rftTo | enq | enqg | pixOrd | pixLd |
    pixBlend | yieldSaved =>
    simp only [exec, execPf, execCpyx, execSynci, execSyncw, execPublish, execPbarArr, execPbarWait, execBpt, execRftResume,
      execRftTo, execEnq, execEnqg, execPixOrd, execPixLd, execPixBlend, execYieldSaved]
    refine wfNext_memIssue h (fun i q => ?_)
    (repeat' split) <;> simp [h]
  case hitch | unhitch | spanAcq | spanRel | spanRelSt | spanZero | spanStat | spanRbox =>
    simp only [exec, execHitch, execUnhitch, execSpanAcq, execSpanRel, execSpanRelSt, execSpanZero, execSpanStat, execSpanRbox]
    refine wfNext_spanIssue h (fun i q => ?_)
    (repeat' split) <;> simp [h]
  -- Arms with a lemma above.
  case mts | barArr | barSync | energyWindowEnd | spanPassEnd | gangPlace | gangRestore | bootSlot | hostLinkFailure |
    packageReset | nodeStart | preemptDrain | spanLoop | cpy | rastEmit | restwC =>
    simp [exec, h]
  -- Events: the machine as it was where nothing is due, and else after its shared functions.
  case gbarGridComplete | gbarReleaseStep | gbarGangComplete | copyUnit | faultRecordWrite | leaseRenewalReturn | waybillDrain |
    tenureGrant | tenureIdleTimeout | drawRelease | fragWaveLaunch | rasterPassClose | enqAccept | dhops | hubReplay | hubKill |
    hostRead | hostWrite | hostRmw | hubRgnSync | hubSnap | snapCopyDone | hubRingCtl | hubRingBase | hubFrCtl | hubFrHead |
    hubFrBase | raiseFloor | romVersion | flashId | readHeader | resume | step | stop | readV | writeV | readCtl | writeCtl |
    debugEventPost | resetRelease | ungateDone | gangRetire | resourceReport | preemptRequest | preemptTake | preemptTimeout |
    watchdog | timeSliceExpire | headAging | energyCharge | powerCompare | boostIntervalEnd | freqStepRise | ballastStep |
    patrolScrub | sramScrub | calibration | retraining | agingMonitor | telemetry | resultWrite | clusterModeChange |
    spdmVersion | spdmCapabilities | spdmAlgorithms | spdmDigests | spdmCertificate | spdmChallenge | spdmMeasurements |
    inboundWrite | inboundRead | inboundAtomic | ioLoadTimeout | pwrLimitN | postilionRestart | dieGate | thermN | linkRetry |
    slotWrite | hubCtxBase | hubRgnBase =>
    simp only [exec, execGbarGridComplete, execGbarReleaseStep, execGbarGangComplete, execCopyUnit, execFaultRecordWrite,
      execLeaseRenewalReturn, execWaybillDrain, execTenureGrant, execTenureIdleTimeout, execDrawRelease, execFragWaveLaunch,
      execRasterPassClose, execEnqAccept, execDhops, execHubReplay, execHubKill, execHostRead, execHostWrite, execHostRmw,
      execHubRgnSync, execHubSnap, execSnapCopyDone, execHubRingCtl, execHubRingBase, execHubFrCtl, execHubFrHead,
      execHubFrBase, execRaiseFloor, execRomVersion, execFlashId, execReadHeader, execResume, execStep, execStop, execReadV,
      execWriteV, execReadCtl, execWriteCtl, execDebugEventPost, execResetRelease, execUngateDone, execGangRetire,
      execResourceReport, execPreemptRequest, execPreemptTake, execPreemptTimeout, execWatchdog, execTimeSliceExpire,
      execHeadAging, execEnergyCharge, execPowerCompare, execBoostIntervalEnd, execFreqStepRise, execBallastStep,
      execPatrolScrub, execSramScrub, execCalibration, execRetraining, execAgingMonitor, execTelemetry, execResultWrite,
      execClusterModeChange, execSpdmVersion, execSpdmCapabilities, execSpdmAlgorithms, execSpdmDigests, execSpdmCertificate,
      execSpdmChallenge, execSpdmMeasurements, execInboundWrite, execInboundRead, execInboundAtomic, execIoLoadTimeout,
      execPwrLimitN, execPostilionRestart, execDieGate, execThermN, execLinkRetry, execSlotWrite, execHubCtxBase,
      execHubRgnBase]
    (repeat' split) <;> simp [h, wf_homeWrite, wf_landAll, wf_share]

/-! A step. -/

theorem wfNext_noteStall (ho : WfNext o) : WfNext (noteStall i o) := by
  cases o with
  | next t => exact (wfNext_next _).2 (ho t rfl)
  | fault r => exact wfNext_fault r
  | refused r => exact wfNext_refused r

theorem wfNext_stepWord (h : wf s.mem = true) : WfNext (stepWord s i) := by
  unfold stepWord
  split
  · exact wfNext_noteStall (wfNext_exec _ h)
  · exact (wfNext_next _).2 (wf_illegal h)

theorem wfSome_slotted (h : wf s.mem = true) : WfSome (s.slotted i) := by
  unfold State.slotted
  (repeat' split) <;> simp [h]

theorem wfNext_stepIssue (h : wf s.mem = true) : WfNext (stepIssue s) := by
  unfold stepIssue
  split
  · exact (wfNext_next s).2 h
  · next i hi =>
    split
    · cases ht : s.slotted i with
      | none => exact (wfNext_next _).2 h
      | some t =>
        have ht := wfSome_slotted h t ht
        cases hj : t.issue? with
        | none => simp [h, hj]
        | some j =>
          have hw : wf (t.turnTo j.w).mem = true := by simpa using ht
          simpa [hj] using wfNext_stepWord hw
    · exact (wfNext_next _).2 h

theorem wfNext_inOneCycle {first second : Issue} (h : wf s.mem = true) : WfNext (s.inOneCycle u first second) := by
  unfold State.inOneCycle
  extract_lets at_
  have hat (t : State) (i : Issue) (ht : wf t.mem = true) : WfNext (at_ t i) := wfNext_stepIssue ht
  split
  · next t ht =>
    have ht : wf t.mem = true := hat s first h t ht
    split
    · split
      · next r hr =>
        have hr : wf r.mem = true := hat _ second (by simpa using ht) r hr
        split <;> simp [hr]
      · exact wfNext_fault _
      · exact wfNext_refused _
    · exact (wfNext_next t).2 ht
  · exact wfNext_fault _
  · exact wfNext_refused _

theorem wfNext_stepBoth {a b : Nat} (h : wf s.mem = true) : WfNext (stepBoth u a b s) := by
  unfold stepBoth
  split
  · split
    · exact (wfNext_next s).2 h
    · extract_lets low high
      split <;> exact wfNext_inOneCycle h
  · exact (wfNext_next s).2 h

theorem wfNext_stepMove (h : wf s.mem = true) : WfNext (stepMove m s) := by
  unfold stepMove
  split
  · exact wfNext_stepIssue h
  · exact wfNext_stepBoth h
  · next u l =>
    split
    · split
      · split
        · next t ht =>
          have ht := wfNext_exec _ h t ht
          split <;> simp [ht]
        · exact wfNext_fault _
        · exact wfNext_refused _
      · exact (wfNext_next s).2 h
    · exact (wfNext_next s).2 h
  · split
    · exact wfNext_exec _ h
    · exact (wfNext_next s).2 h
  · simp [h]
  · exact (wfNext_next _).2 (wf_endBoot h)

theorem wfNext_step (h : wf s.mem = true) : WfNext (step s) := by
  unfold step
  split
  · exact wfNext_stepMove h
  · split
    · exact wfNext_stepIssue h
    · split
      · exact (wfNext_next s).2 h
      · exact wfNext_stepMove h
end

end Memory

end Sys2Proof.Machine

/-- Settles O60: every arm of `exec` writes memory by `putBytes` alone or leaves it alone, and so does every step. -/
theorem memoryCanonical : Obligations.MemoryCanonical := fun _ t h hs => Sys2Proof.Machine.Memory.wfNext_step h t hs

/-! The state after reset. -/

namespace Sys2Proof.Machine

theorem State.cluster_reset {n : Nat} (hn : n < 64) : State.reset.cluster n = .reset n := by
  change ((List.range 64).map Cluster.reset).getD n (.reset n) = .reset n
  simp [hn]

theorem State.post_reset {p : Post} (hp : p ∈ State.reset.posts) : ∃ site, p = .reset site := by
  obtain ⟨site, -, rfl⟩ := List.mem_map.1 hp
  exact ⟨site, rfl⟩

end Sys2Proof.Machine

section
open Sys2Proof.Machine

/-- Settles O59: the lists of like parts are replicates or images of ranges, and every other value stands in `State.reset`. -/
theorem resetValues : Obligations.ResetValues := by
  unfold Obligations.ResetValues
  extract_lets s
  have hrings : ∀ r ∈ s.rings, r.bound = false ∧ r.head = 0 ∧ r.sizeLog = 0 ∧ r.ctx = 0 := fun r hr => by
    cases List.eq_of_mem_replicate hr
    simp [Ring.reset]
  have hfaultRings : ∀ r ∈ s.faultRings, r.enable = false ∧ r.head = 0 ∧ r.tail = 0 := fun r hr => by
    cases List.eq_of_mem_replicate hr
    simp
  have hinwin : ∀ w ∈ s.hub.inwin, w = (0, 0) := fun _ hw => List.eq_of_mem_replicate hw
  have hposts : ∀ p ∈ s.posts, p.ctx = 0xFFFF ∧ p.event = 0 ∧ p.finfo = 0 := fun p hp => by
    obtain ⟨site, rfl⟩ := State.post_reset hp
    simp [Post.reset]
  have hspokes : ∀ x ∈ s.spokes, x.budget = 64 ∧ x.refill = 0 ∧ x.boost = .open ∧ x.gated = true := fun x hx => by
    cases List.eq_of_mem_replicate hx
    simp [Spoke.reset]
  refine ⟨Memory.wf_reset, rfl, rfl, rfl, rfl, rfl, rfl, rfl, rfl, rfl, rfl, rfl, rfl, rfl, rfl, rfl, rfl, rfl, rfl, rfl, rfl,
    rfl, hrings, rfl, hfaultRings, rfl, hinwin, by decide, rfl, rfl, rfl, hposts, rfl, hspokes, rfl, fun n hn => ?_⟩
  simp [s, State.cluster_reset hn, Cluster.reset, Span.reset]

end

/-! Lists changed at one place, lists put in order, and the parts of a state found by number. -/

namespace Sys2Proof.Machine

theorem updAt_eq_modify {α : Type} (l : List α) (n : Nat) (f : α → α) : updAt l n f = l.modify n f := by
  induction l generalizing n with
  | nil => simp [updAt]
  | cons x t ih => cases n <;> simp [updAt, ih]

theorem updAt_eq_set {α : Type} {l : List α} {n : Nat} {x : α} (h : l[n]? = some x) (f : α → α) : updAt l n f = l.set n (f x) := by
  obtain ⟨hn, rfl⟩ := List.getElem?_eq_some_iff.1 h
  rw [updAt_eq_modify, List.modify_eq_set_getElem? f n l, h]
  rfl

theorem getD_map_zipIdx {α : Type} (l : List α) (f : α × Nat → α) (n : Nat) (d : α) :
    (l.zipIdx.map f).getD n d = if n < l.length then f (l.getD n d, n) else d := by
  split <;> rename_i hn <;> simp [hn]

theorem mem_insertBy {α : Type} (before : α → α → Bool) (x y : α) (l : List α) : y ∈ insertBy before x l ↔ y = x ∨ y ∈ l := by
  induction l with
  | nil => simp [insertBy]
  | cons z t ih =>
    unfold insertBy
    split
    · simp [ih]
      tauto
    · simp

theorem mem_sortBy {α : Type} (before : α → α → Bool) (y : α) (l : List α) : y ∈ sortBy before l ↔ y ∈ l := by
  induction l with
  | nil => simp [sortBy]
  | cons x t ih =>
    change y ∈ insertBy before x (sortBy before t) ↔ _
    rw [mem_insertBy, ih, List.mem_cons]

/-- The element that comes before all others stands first. -/
theorem head?_sortBy {α : Type} {before : α → α → Bool} {l : List α} {n : α} (hn : n ∈ l)
    (h : ∀ m ∈ l, m ≠ n → before n m = true ∧ before m n = false) : (sortBy before l).head? = some n := by
  induction l with
  | nil => cases hn
  | cons a t ih =>
    change (insertBy before a (sortBy before t)).head? = some n
    by_cases ha : a = n
    · cases hs : sortBy before t with
      | nil => simp [insertBy, ha]
      | cons y u =>
        have hy : y ∈ t := (mem_sortBy before y t).1 (hs ▸ List.mem_cons_self)
        by_cases hyn : y = n
        · unfold insertBy
          split <;> simp [ha, hyn]
        · simp [insertBy, ha, (h y (List.mem_cons_of_mem a hy) hyn).2]
    · have hnt : n ∈ t := by simpa [Ne.symm ha] using hn
      have first := ih hnt fun m hm => h m (List.mem_cons_of_mem a hm)
      cases hs : sortBy before t with
      | nil => simp [hs] at first
      | cons y u =>
        have hy : y = n := by simpa [hs] using first
        simp [insertBy, hy, (h a List.mem_cons_self ha).1]

theorem head?_sortBy_eq_none {α : Type} (before : α → α → Bool) (l : List α) : (sortBy before l).head? = none ↔ l = [] := by
  rw [List.head?_eq_none_iff, List.eq_nil_iff_forall_not_mem, List.eq_nil_iff_forall_not_mem]
  simp [mem_sortBy]

section
variable {s : State}

theorem State.spoke_of_getElem? {k : Nat} {x : Spoke} (h : s.spokes[k]? = some x) : s.spoke k = x := by
  simp [State.spoke, h]

theorem State.cluster_of_getElem? {n : Nat} {c : Cluster} (h : s.clusters[n]? = some c) : s.cluster n = c := by
  simp [State.cluster, h]

theorem State.updSpoke_of_getElem? {k : Nat} {x : Spoke} (h : s.spokes[k]? = some x) (f : Spoke → Spoke) :
    s.updSpoke k f = { s with spokes := s.spokes.set k (f x) } := by
  simp only [State.updSpoke, updAt_eq_set h]

theorem State.updCluster_of_getElem? {n : Nat} {c : Cluster} (h : s.clusters[n]? = some c) (f : Cluster → Cluster) :
    s.updCluster n f = { s with clusters := s.clusters.set n (f c) } := by
  simp only [State.updCluster, updAt_eq_set h]

end

end Sys2Proof.Machine

/-! Energy (R361): charging touches the regions' charges alone, and the accounts are written region by region. -/

namespace Sys2Proof.Machine

theorem map_replaceBy {α β : Type} {p : α → Bool} {x : α} {g : α → β} {l : List α} (h : ∀ y ∈ l, p y = true → g x = g y) :
    (replaceBy p x l).map g = l.map g := by
  induction l with
  | nil => rfl
  | cons y t ih =>
    have rest := ih fun z hz => h z (List.mem_cons_of_mem y hz)
    by_cases hy : p y = true
    · simp [replaceBy, hy, rest, h y List.mem_cons_self hy]
    · simp [replaceBy, hy, rest]

/-- Of a list whose keys differ, the element that is found by its key is the only one with it. -/
theorem eq_of_find?_key {α : Type} {key : α → Nat} {l : List α} (hl : (l.map key).Nodup) {k : Nat} {x y : α}
    (hx : l.find? (fun z => key z == k) = some x) (hy : y ∈ l) (hk : key y = k) : y = x := by
  have hxk : key x = k := by simpa using List.find?_some hx
  exact List.inj_on_of_nodup_map hl hy (List.mem_of_find?_eq_some hx) (hk.trans hxk.symm)

/-- A region's number and its account. -/
def Region.account (r : Region) : Nat × Nat := (r.num, r.energyTotal)

/-- Two machines differ at most in the regions and the use counter, and no account. -/
structure State.chargesTo (s t : State) : Prop where
  frame : t = { s with regions := t.regions, freeCtr := t.freeCtr }
  accounts : (s.regions.map Region.num).Nodup → t.regions.map Region.account = s.regions.map Region.account

theorem nums_of_accounts {l m : List Region} (h : l.map Region.account = m.map Region.account) : l.map Region.num = m.map Region.num := by
  have fst : Prod.fst ∘ Region.account = Region.num := rfl
  simpa [fst] using congrArg (List.map Prod.fst) h

section
variable (s : State)

theorem State.chargesTo_refl : s.chargesTo s := ⟨rfl, fun _ => rfl⟩

variable {s} in
theorem State.chargesTo.trans {t u : State} (h : s.chargesTo t) (k : t.chargesTo u) : s.chargesTo u where
  frame := by rw [k.frame, h.frame]
  accounts hs := (k.accounts (nums_of_accounts (h.accounts hs) ▸ hs)).trans (h.accounts hs)

theorem State.chargesTo_foldl {α : Type} {f : State → α → State} (hf : ∀ (t : State) x, t.chargesTo (f t x)) (l : List α) :
    s.chargesTo (l.foldl f s) := by
  induction l generalizing s with
  | nil => exact s.chargesTo_refl
  | cons x t ih => exact (hf s x).trans (ih (f s x))

theorem State.chargesTo_charge (r n : Nat) : s.chargesTo (s.charge r n) := by
  unfold State.charge
  split
  next x hx =>
    refine ⟨rfl, fun hs => map_replaceBy fun y hy hp => ?_⟩
    have hyx : y = x := eq_of_find?_key hs (hx.trans rfl) hy (by simpa [show x.num = r by simpa using List.find?_some hx] using hp)
    rw [hyx]
    rfl
  · exact s.chargesTo_refl

theorem State.chargesTo_freeEnergy : s.chargesTo s.freeEnergy.1 := ⟨rfl, fun _ => rfl⟩

theorem State.chargesTo_chargeBallast (c : Nat) : s.chargesTo (s.chargeBallast c) := by
  unfold State.chargeBallast
  split
  · exact s.chargesTo_freeEnergy.trans (State.chargesTo_charge _ _ _)
  · exact s.chargesTo_refl

theorem State.chargesTo_chargeTasks : s.chargesTo s.chargeTasks :=
  s.chargesTo_freeEnergy.trans (State.chargesTo_charge _ _ _)

theorem State.chargesTo_chargeCluster (c : Nat) : s.chargesTo (s.chargeCluster c) := by
  unfold State.chargeCluster
  refine State.chargesTo.trans (t := (s.chargeBallast c).freeEnergy.1)
    ((s.chargesTo_chargeBallast c).trans (State.chargesTo_freeEnergy _)) ?_
  refine State.chargesTo.trans ?_ (State.chargesTo_foldl _ (fun t g => t.chargesTo_freeEnergy.trans (State.chargesTo_charge _ _ _)) _)
  split
  · exact State.chargesTo_foldl _ (fun t x => t.chargesTo_charge _ _) _
  · split
    · exact State.chargesTo_charge _ _ _
    · exact State.chargesTo_foldl _ (fun t g => t.chargesTo_charge _ _) _

theorem State.chargesTo_capRegions : s.chargesTo s.capRegions where
  frame := rfl
  accounts _ := by
    simp only [State.capRegions, List.map_map]
    refine List.map_congr_left fun x _ => ?_
    simp only [Function.comp_apply]
    split <;> rfl

/-- A microsecond's charges. -/
theorem State.chargesTo_microsecond : s.chargesTo ((List.range 64).foldl State.chargeCluster s).chargeTasks.capRegions :=
  ((s.chargesTo_foldl State.chargesTo_chargeCluster _).trans (State.chargesTo_chargeTasks _)).trans
    (State.chargesTo_capRegions _)

end

/-! What the command processor writes where no write is in flight. -/

theorem State.share_of_no_writes {s : State} (h : s.writes = []) (pa : Nat) :
    s.share pa = { s with classes := (s.share pa).classes, lines := (s.share pa).lines } := by
  unfold State.share
  split
  · rfl
  · simp [State.recallPage, State.landAll, h]
  · rfl

theorem State.cpWrite_of_no_writes {s : State} (h : s.writes = []) (pa : Nat) (data : List Byte) :
    s.cpWrite pa data = { s with
      mem := putBytes s.mem pa data, vers := (s.cpWrite pa data).vers, classes := (s.cpWrite pa data).classes
      lines := (s.cpWrite pa data).lines, bad := (s.cpWrite pa data).bad } := by
  unfold State.cpWrite
  rw [s.share_of_no_writes h pa]
  rfl

theorem State.cpWrite_mem_of_no_writes {s : State} (h : s.writes = []) (pa : Nat) (data : List Byte) :
    (s.cpWrite pa data).mem = putBytes s.mem pa data := by rw [s.cpWrite_of_no_writes h]

theorem State.cpWrite_writes_of_no_writes {s : State} (h : s.writes = []) (pa : Nat) (data : List Byte) :
    (s.cpWrite pa data).writes = [] := by
  rw [s.cpWrite_of_no_writes h]
  exact h

theorem State.cpWrite_hub_of_no_writes {s : State} (h : s.writes = []) (pa : Nat) (data : List Byte) :
    (s.cpWrite pa data).hub = s.hub := by rw [s.cpWrite_of_no_writes h]

/-! Numbers in device memory. -/

theorem State.bytesAt_congr {s t : State} {a n : Nat} (h : ∀ i, i < n → t.byteAt (a + i) = s.byteAt (a + i)) :
    t.bytesAt a n = s.bytesAt a n := by
  induction n generalizing a with
  | zero => rfl
  | succ n ih =>
    simp only [State.bytesAt]
    rw [show t.byteAt a = s.byteAt a from h 0 (Nat.succ_pos n), ih fun i hi => by simpa [Nat.add_right_comm, Nat.add_assoc] using h (i + 1) (by omega)]

theorem toBytes_length (n x : Nat) : (toBytes n x).length = n := by
  induction n generalizing x with
  | zero => rfl
  | succ n ih => simp [toBytes, ih]

theorem ofBytes_toBytes (n x : Nat) : ofBytes (toBytes n x) = x % 256 ^ n := by
  induction n generalizing x with
  | zero => simp [toBytes, ofBytes, Nat.mod_one]
  | succ n ih =>
    simp only [toBytes, ofBytes, ih, BitVec.toNat_ofNat]
    rw [pow_succ' 256 n, Nat.mod_mul]

theorem State.bytesAt_eq_map (s : State) (a n : Nat) : s.bytesAt a n = (List.range n).map (fun i => s.byteAt (a + i)) := by
  induction n generalizing a with
  | zero => rfl
  | succ n ih =>
    simp [State.bytesAt, ih, List.range_succ_eq_map, Function.comp_def, Nat.add_comm 1, Nat.add_assoc]

/-- Bytes that were written are read again. -/
theorem State.bytesAt_of_putBytes {s : State} {m : Map Byte} {a : Nat} {bs : List Byte} (h : s.mem = putBytes m a bs) :
    s.bytesAt a bs.length = bs := by
  rw [State.bytesAt_eq_map]
  refine List.ext_getElem (by simp) fun i hi _ => ?_
  have hlt : i < bs.length := by simpa using hi
  simp [State.byteAt, h, get_putBytes, hlt]

/-- Part of a range of bytes. -/
theorem State.bytesAt_of_part {s : State} {a m : Nat} {bs : List Byte} (h : s.bytesAt a m = bs) (o n : Nat) (hn : o + n ≤ m) :
    s.bytesAt (a + o) n = (bs.drop o).take n := by
  rw [← h, State.bytesAt_eq_map, State.bytesAt_eq_map]
  refine List.ext_getElem (by simp; omega) fun i _ _ => ?_
  simp [Nat.add_assoc]

/-! The accounts that the command processor writes into the blocks (R357). -/

/-- The device-written bytes of a block. -/
def Region.accountBytes (x : Region) : List Byte := toBytes 8 x.energyTotal ++ toBytes 4 x.windowsCapped ++ toBytes 4 x.preempts ++ toBytes 4 x.kills

@[simp] theorem Region.accountBytes_length (x : Region) : x.accountBytes.length = 20 := by simp [Region.accountBytes, toBytes_length]

theorem State.writeAccounts_eq (s : State) (x : Region) :
    s.writeAccounts x = s.cpWrite (s.hub.rgnBase + 128 * x.num + 0x40) x.accountBytes := rfl

theorem State.landsTo_writeAccounts (s : State) (l : List Region) : s.landsTo (l.foldl State.writeAccounts s) :=
  State.landsTo_foldl _ (fun t x => t.writeAccounts_eq x ▸ t.landsTo_cpWrite _ _) l s

/-- A region's block holds its account once the accounts are written, whatever other regions' blocks get. -/
theorem State.bytesAt_writeAccounts {s : State} (l : List Region) {x : Region} (hw : s.writes = []) (hx : ∀ y ∈ l, y.num = x.num → y = x)
    (hin : s.bytesAt (s.hub.rgnBase + 128 * x.num + 0x40) 20 = x.accountBytes ∨ x ∈ l) :
    (l.foldl State.writeAccounts s).bytesAt (s.hub.rgnBase + 128 * x.num + 0x40) 20 = x.accountBytes := by
  induction l generalizing s with
  | nil => simpa using hin
  | cons y t ih =>
    have hmem := s.cpWrite_mem_of_no_writes hw (s.hub.rgnBase + 128 * y.num + 0x40) y.accountBytes
    have hhub := s.cpWrite_hub_of_no_writes hw (s.hub.rgnBase + 128 * y.num + 0x40) y.accountBytes
    have hrest := ih (s.cpWrite_writes_of_no_writes hw (s.hub.rgnBase + 128 * y.num + 0x40) y.accountBytes)
      (fun z hz => hx z (List.mem_cons_of_mem y hz))
    rw [hhub] at hrest
    rw [List.foldl_cons, s.writeAccounts_eq]
    refine hrest ?_
    by_cases hy : y.num = x.num
    · obtain rfl := hx y List.mem_cons_self hy
      exact .inl (by simpa using State.bytesAt_of_putBytes hmem)
    · refine hin.imp (fun h => (State.bytesAt_congr fun i hi => ?_).trans h) fun h => ?_
      · unfold State.byteAt
        rw [hmem, get_putBytes, if_neg]
        simp only [Region.accountBytes_length]
        omega
      · exact (List.mem_cons.1 h).resolve_left fun e => hy (e ▸ rfl)

end Sys2Proof.Machine

/-! The power budget (R23, R328): the budget in force, the cluster an action takes, and what an action and its undoing do. -/

namespace Sys2Proof.Machine

theorem sustainedMw_bounds : 45000 ≤ sustainedMw ∧ sustainedMw ≤ 160000 := by
  unfold sustainedMw
  omega

section
variable (s : State)

theorem State.powerBudget_bounds : 45000 ≤ s.powerBudget ∧ s.powerBudget ≤ 250000 ∧ (s.pins.pwrLimit = true → s.powerBudget ≤ 160000) := by
  have := sustainedMw_bounds
  unfold State.powerBudget
  split
  · omega
  · split <;> simp_all
    omega

/-- Cluster `n` is the populated one with `f` of the highest RANK, ties to the higher number (R328). -/
def State.tops (s : State) (n : Nat) (f : Cluster → Prop) : Prop :=
  n < 64 ∧ s.populated (n / 8) = true ∧ f (s.cluster n)
    ∧ ∀ m, m < 64 → s.populated (m / 8) = true → f (s.cluster m) →
      (s.cluster m).rank < (s.cluster n).rank ∨ ((s.cluster m).rank = (s.cluster n).rank ∧ m ≤ n)

variable {s}

theorem State.topRank_eq_some {n : Nat} {f : Cluster → Bool} (h : s.tops n (fun c => f c = true)) : s.topRank f = some n := by
  obtain ⟨hn, hp, hf, top⟩ := h
  refine head?_sortBy (by simp [hn, hp, hf]) fun m hm hne => ?_
  simp only [List.mem_filter, List.mem_range, Bool.and_eq_true] at hm
  obtain ⟨hm, hmp, hmf⟩ := hm
  have := top m hm hmp hmf
  simp
  omega

theorem State.topRank_eq_none {f : Cluster → Bool} (h : ∀ m, m < 64 → s.populated (m / 8) = true → f (s.cluster m) = false) :
    s.topRank f = none := by
  refine (head?_sortBy_eq_none _ _).2 (List.filter_eq_nil_iff.2 fun m hm hb => ?_)
  simp only [Bool.and_eq_true] at hb
  simp [h m (List.mem_range.1 hm) hb.1] at hb

/-- A cluster holds boost that can be withdrawn. -/
def Cluster.curbable (c : Cluster) : Bool := decide (0 < c.freq) && !c.withdrawn

theorem State.curb_boost {n : Nat} (h : s.topRank Cluster.curbable = some n) :
    s.curb = { s with
      clusters := s.clusters.modify n (fun c => s.fall n 0 { c with withdrawn := true, admitted := false })
      power := { s.power with actions := (0, n) :: s.power.actions, calm := 0 } } := by
  simp only [State.curb, show s.topRank (fun c => 0 < c.freq && !c.withdrawn) = some n from h]
  simp [State.updCluster, updAt_eq_modify]

theorem State.curb_pass {n k : Nat} (hk : k = 1 ∨ k = 2) (h0 : s.topRank Cluster.curbable = none)
    (h1 : k = 2 → s.topRank (fun c => c.passTo == 1) = none) (h : s.topRank (fun c => c.passTo == k) = some n) :
    s.curb = { s with
      clusters := s.clusters.modify n (fun c => c.setPass (2 * k))
      power := { s.power with actions := (k, n) :: s.power.actions, calm := 0 } } := by
  unfold State.curb
  rw [show s.topRank (fun c => 0 < c.freq && !c.withdrawn) = none from h0]
  obtain rfl | rfl := hk
  · simp [h, State.updCluster, updAt_eq_modify]
  · simp [h1 rfl, h, State.updCluster, updAt_eq_modify]

theorem State.uncurb_action {n k : Nat} {rest : List (Nat × Nat)} (h : s.power.actions = (k, n) :: rest) (hk : k ≤ 2) :
    s.uncurb = { s with
      clusters := s.clusters.modify n (fun c => if k = 0 then { c with withdrawn := false } else c.setPass k)
      power := { s.power with actions := rest, calm := 0 } } := by
  obtain rfl | rfl | rfl : k = 0 ∨ k = 1 ∨ k = 2 := by omega
  all_goals simp [State.uncurb, h, State.updCluster, updAt_eq_modify]

variable (s)

/-- The state as a comparison counts it and has used its free value. -/
def State.compares (s : State) : State :=
  { s with freeCtr := s.freeCtr + 1, power := { s.power with compared := s.power.compared + 1 } }

theorem execPowerCompare_eq : execPowerCompare s = .next (
    if s.tick < 100 * (s.power.compared + 1) then s
    else if s.powerBudget < Config.freePower s.freeCtr then s.compares.curb
    else if 9 ≤ s.power.calm then s.compares.uncurb
    else { s.compares with power := { s.compares.power with calm := s.power.calm + 1 } }) := by
  unfold execPowerCompare
  split
  · rfl
  · simp only []
    split
    · rfl
    · split <;> rfl

end

end Sys2Proof.Machine

/-! Energy, boost, ballast and FREQSTEP, step by step (R327 to R334, R361). -/

namespace Sys2Proof.Machine

section
variable {s : State}

theorem execEnergyCharge_early (h : s.tick < 100 * (s.power.charged + 1)) : execEnergyCharge s = .next s := by
  simp [execEnergyCharge, h]

theorem execEnergyCharge_due (h : 100 * (s.power.charged + 1) ≤ s.tick) :
    ∃ t, execEnergyCharge s = .next t ∧ t.power = { s.power with charged := s.power.charged + 1 }
      ∧ t = { s with regions := t.regions, freeCtr := t.freeCtr, used := [], moved := [], power := t.power }
      ∧ ((s.regions.map Region.num).Nodup → t.regions.map Region.account = s.regions.map Region.account) := by
  have charged := s.chargesTo_microsecond
  unfold execEnergyCharge
  rw [if_neg (Nat.not_lt.2 h)]
  generalize ((List.range 64).foldl State.chargeCluster s).chargeTasks = u at charged ⊢
  obtain ⟨frame, accounts⟩ := charged
  have power : u.power = s.power := by
    change u.capRegions.power = s.power
    rw [frame]
  refine ⟨_, rfl, by rw [power], ?_, accounts⟩
  generalize u.capRegions = t at frame ⊢
  rw [frame]

theorem execEnergyWindowEnd_early (h : s.tick < 100000 * (s.power.windows + 1) ∨ s.power.charged < 1000 * (s.power.windows + 1)) :
    execEnergyWindowEnd s = .next s := by
  simp [execEnergyWindowEnd, h]

/-- A region in the window that begins. -/
def State.newWindow (s : State) (x : Region) : Region :=
  { x with energyTotal := x.energyTotal + x.charge, charge := 0, capped := false, windowLimit := some (s.effEnergy x.num) }

theorem execEnergyWindowEnd_due (h : 100000 * (s.power.windows + 1) ≤ s.tick) (hc : 1000 * (s.power.windows + 1) ≤ s.power.charged) :
    ∃ t, execEnergyWindowEnd s = .next t ∧ t.power = { s.power with windows := s.power.windows + 1 } ∧ t.waves = s.waves
      ∧ t.regions = s.regions.map s.newWindow
      ∧ (s.writes = [] → ∀ x ∈ s.regions, (∀ y ∈ s.regions, y.num = x.num → y = x) →
        t.numAt (s.hub.rgnBase + 128 * x.num + 0x40) 8 = (x.energyTotal + x.charge) % 2 ^ 64
        ∧ t.numAt (s.hub.rgnBase + 128 * x.num + 0x48) 4 = x.windowsCapped % 2 ^ 32) := by
  let u : State := { s with regions := s.regions.map s.newWindow, power := { s.power with windows := s.power.windows + 1 } }
  have frame := u.landsTo_writeAccounts u.regions
  refine ⟨u.regions.foldl State.writeAccounts u, by simp [execEnergyWindowEnd, Nat.not_lt.2 h, Nat.not_lt.2 hc]; rfl,
    by rw [frame], by rw [frame], by rw [frame], fun hw x hx same => ?_⟩
  have bytes : (u.regions.foldl State.writeAccounts u).bytesAt (s.hub.rgnBase + 128 * x.num + 0x40) 20
      = (s.newWindow x).accountBytes := by
    refine State.bytesAt_writeAccounts (s := u) u.regions (x := s.newWindow x) hw (fun y hy hn => ?_) (.inr (List.mem_map_of_mem hx))
    obtain ⟨z, hz, rfl⟩ := List.mem_map.1 hy
    rw [same z hz hn]
  constructor
  · rw [State.numAt, show _ + 0x40 = _ + 0x40 + 0 from rfl, State.bytesAt_of_part bytes 0 8 (by omega)]
    simp [Region.accountBytes, toBytes_length, ofBytes_toBytes, State.newWindow]
  · rw [State.numAt, show s.hub.rgnBase + 128 * x.num + 0x48 = s.hub.rgnBase + 128 * x.num + 0x40 + 8 from rfl,
      State.bytesAt_of_part bytes 8 4 (by omega)]
    simp [Region.accountBytes, toBytes_length, ofBytes_toBytes, State.newWindow]

/-! Boost (R329 to R331). -/

/-- The highest FREQSTEP of a boost state (R330). -/
def BoostState.top : BoostState → Nat
  | .open => 18 | .fall1 => 8 | .dry => 0

/-- The step a cluster falls to, at once or when its calibration ends. -/
def State.fallsTo (s : State) (n : Nat) (c : Cluster) : Nat :=
  if (s.spoke (n / 8)).calBusy.getLsbD (n % 8) = true then c.fallTo else c.freq

/-- What falls and admissions keep of a cluster: its step does not rise, and calibration holds it. -/
structure Cluster.sinks (busy : Bool) (c d : Cluster) : Prop where
  freq : d.freq ≤ c.freq
  fallTo : d.fallTo ≤ c.fallTo
  held : busy = true → d.freq = c.freq
  boosted : d.boosted = c.boosted

theorem Cluster.sinks.trans {busy : Bool} {a b c : Cluster} (h : a.sinks busy b) (k : b.sinks busy c) : a.sinks busy c where
  freq := k.freq.trans h.freq
  fallTo := k.fallTo.trans h.fallTo
  held hb := (k.held hb).trans (h.held hb)
  boosted := k.boosted.trans h.boosted

theorem State.fall_sinks (n k : Nat) (c : Cluster) : c.sinks ((s.spoke (n / 8)).calBusy.getLsbD (n % 8)) (s.fall n k c) := by
  unfold State.fall
  split <;> constructor <;> simp_all

theorem State.fallsTo_fall (n k : Nat) (c : Cluster) : s.fallsTo n (s.fall n k c) ≤ k := by
  unfold State.fall State.fallsTo
  split <;> simp_all

theorem State.fallsTo_sinks {n : Nat} {c d : Cluster} (h : c.sinks ((s.spoke (n / 8)).calBusy.getLsbD (n % 8)) d) :
    s.fallsTo n d ≤ s.fallsTo n c := by
  unfold State.fallsTo
  split
  · exact h.fallTo
  · exact h.freq

theorem State.admitPlaces_elsewhere {k n : Nat} {anew : Bool} (hk : n / 8 ≠ k) : (s.admitPlaces k anew).cluster n = s.cluster n := by
  simp only [State.cluster, State.admitPlaces, getD_map_zipIdx, hk, ne_eq, not_false_eq_true, if_true]
  split
  · rfl
  next hn => simp [hn]

/-- What an admission makes of a cluster of its spoke. -/
theorem State.admitPlaces_cluster {n : Nat} {anew : Bool} (hn : n < s.clusters.length) :
    ((s.spoke (n / 8)).boost = .open ∧ ∃ r, (s.admitPlaces (n / 8) anew).cluster n = { s.cluster n with admitted := true, riseTick := r })
      ∨ (s.admitPlaces (n / 8) anew).cluster n = { s.cluster n with admitted := false }
      ∨ (s.admitPlaces (n / 8) anew).cluster n = s.fall n 0 { s.cluster n with admitted := false } := by
  rw [State.cluster.eq_1 (s.admitPlaces _ _), State.cluster.eq_1 s n]
  simp only [State.admitPlaces, getD_map_zipIdx, hn, if_true, ne_eq, not_true, if_false]
  generalize hset : (if (s.spoke (n / 8)).boost = .open then _ else []) = set
  split
  next hn =>
    refine .inl ⟨?_, _, rfl⟩
    by_contra hb
    simp [← hset, hb] at hn
  next =>
    split
    · exact .inr (.inl rfl)
    · exact .inr (.inr rfl)

/-- An admission lets no step rise, and outside OPEN no place is held. -/
theorem State.admitPlaces_sinks {n : Nat} {anew : Bool} (hn : n < s.clusters.length) :
    (s.cluster n).sinks ((s.spoke (n / 8)).calBusy.getLsbD (n % 8)) ((s.admitPlaces (n / 8) anew).cluster n)
      ∧ ((s.spoke (n / 8)).boost ≠ .open → ((s.admitPlaces (n / 8) anew).cluster n).admitted = false) := by
  obtain ⟨hb, r, h⟩ | h | h := s.admitPlaces_cluster (anew := anew) hn <;> rw [h]
  · exact ⟨⟨le_rfl, le_rfl, fun _ => rfl, rfl⟩, fun hne => absurd hb hne⟩
  · exact ⟨⟨le_rfl, le_rfl, fun _ => rfl, rfl⟩, fun _ => rfl⟩
  · have unplaced : (s.cluster n).sinks ((s.spoke (n / 8)).calBusy.getLsbD (n % 8)) { s.cluster n with admitted := false } :=
      ⟨le_rfl, le_rfl, fun _ => rfl, rfl⟩
    refine ⟨unplaced.trans (s.fall_sinks n 0 _), fun _ => ?_⟩
    unfold State.fall
    split <;> rfl

/-- The number of clusters of a spoke that have held boost in the interval. -/
def State.boostUsed (s : State) (k : Nat) : Nat := ((List.range 8).filter (fun c => (s.cluster (8 * k + c)).boosted)).length

theorem State.boostUsed_eq (s : State) (k : Nat) : ((clustersOf k).filter (fun c => (s.cluster c).boosted)).length = s.boostUsed k := by
  simp only [clustersOf, List.filter_map, List.length_map, State.boostUsed, Function.comp_def]

/-- The permits that an interval leaves (R329). -/
def Spoke.permitsAfter (x : Spoke) (used : Nat) : Nat :=
  if 0 < used then x.budget - used else if x.refill = 7 then min 64 (x.budget + 1) else x.budget

/-- The boost state that follows with these permits (R330). -/
def BoostState.after (permits : Nat) : BoostState → BoostState
  | .open => if permits = 0 then .fall1 else .open
  | .fall1 => .dry
  | .dry => if 8 ≤ permits then .open else .dry

/-- A spoke whose interval has ended. -/
def Spoke.interval (x : Spoke) (used : Nat) : Spoke :=
  { x with
    budget := x.permitsAfter used, boost := x.boost.after (x.permitsAfter used), intervals := x.intervals + 1
    refill := if 0 < used then 0 else if x.refill = 7 then 0 else x.refill + 1 }

/-- The fall of a spoke's clusters to its boost state's step. -/
def State.fallAll (s : State) (k top : Nat) : State :=
  { s with clusters := s.clusters.zipIdx.map (fun c => if c.2 / 8 = k then s.fall c.2 top c.1 else c.1) }

theorem State.fallAll_cluster {k top n : Nat} (hn : n < s.clusters.length) :
    (s.fallAll k top).cluster n = if n / 8 = k then s.fall n top (s.cluster n) else s.cluster n := by
  simp only [State.cluster, State.fallAll, getD_map_zipIdx, hn, if_true]

theorem State.fallAll_elsewhere {k top n : Nat} (hk : n / 8 ≠ k) : (s.fallAll k top).cluster n = s.cluster n := by
  by_cases hn : n < s.clusters.length
  · rw [State.fallAll_cluster hn, if_neg hk]
  · simp [State.cluster, State.fallAll, hn]

theorem execBoostIntervalEnd_held {k : Nat} (h : s.tick < 400 * (s.spoke k).intervals + 399
      ∨ (∃ b ∈ s.batches, s.gridDue b = true ∧ k ∈ b.gbarDies) ∨ ∃ c, c < 8 ∧ s.riseDue (8 * k + c) = true) :
    execBoostIntervalEnd k s = .next s := by
  unfold execBoostIntervalEnd
  refine if_pos ?_
  obtain h | ⟨b, hb, hd, hk⟩ | ⟨c, hc, hr⟩ := h
  · simp [h]
  · have : s.batches.any (fun b => s.gridDue b && b.gbarDies.contains k) = true := List.any_eq_true.2 ⟨b, hb, by simp [hd, hk]⟩
    simp only [Bool.or_eq_true, this, or_true, true_or]
  · have : (clustersOf k).any s.riseDue = true := List.any_eq_true.2 ⟨8 * k + c, by simp [clustersOf, hc], hr⟩
    simp only [Bool.or_eq_true, this, or_true]

theorem State.admitPlaces_spokes {k : Nat} {x : Spoke} (hx : s.spokes[k]? = some x) (anew : Bool) :
    (s.admitPlaces k anew).spokes = s.spokes.set k { x with rerank := false } := updAt_eq_set hx _

/-- The falls to a boost state's step, then the admission anew. -/
def State.fallAndAdmit (s : State) (k : Nat) (b : BoostState) : State := (s.fallAll k b.top).admitPlaces k true

theorem State.fallAndAdmit_spokes {k : Nat} {x : Spoke} (hx : s.spokes[k]? = some x) (b : BoostState) :
    (s.fallAndAdmit k b).spokes = s.spokes.set k { x with rerank := false } :=
  State.admitPlaces_spokes (s := s.fallAll k b.top) hx true

theorem State.fallAndAdmit_elsewhere {k n : Nat} (hk : n / 8 ≠ k) (b : BoostState) : (s.fallAndAdmit k b).cluster n = s.cluster n :=
  (State.admitPlaces_elsewhere hk).trans (State.fallAll_elsewhere hk)

/-- The end of an interval on a cluster of the spoke: its step falls to the boost state's, and outside OPEN it holds no place. -/
theorem State.fallAndAdmit_cluster {k c : Nat} {x : Spoke} (hx : s.spokes[k]? = some x) (hc : c < 8) (hn : 8 * k + c < s.clusters.length) :
    let y := (s.fallAndAdmit k x.boost).cluster (8 * k + c)
    (if x.calBusy.getLsbD c = true then y.fallTo else y.freq) ≤ x.boost.top ∧ y.freq ≤ (s.cluster (8 * k + c)).freq
      ∧ (x.calBusy.getLsbD c = true → y.freq = (s.cluster (8 * k + c)).freq)
      ∧ y.boosted = (s.cluster (8 * k + c)).boosted ∧ (x.boost ≠ .open → y.admitted = false) := by
  have hk : (8 * k + c) / 8 = k := by omega
  have hm : (8 * k + c) % 8 = c := by omega
  have spoke : (s.fallAll k x.boost.top).spoke k = x := State.spoke_of_getElem? hx
  have fell : (s.fallAll k x.boost.top).cluster (8 * k + c) = s.fall (8 * k + c) x.boost.top (s.cluster (8 * k + c)) := by
    rw [State.fallAll_cluster hn, if_pos hk]
  have low := s.fallsTo_fall (8 * k + c) x.boost.top (s.cluster (8 * k + c))
  have sinks := s.fall_sinks (8 * k + c) x.boost.top (s.cluster (8 * k + c))
  obtain ⟨admits, unheld⟩ := (s.fallAll k x.boost.top).admitPlaces_sinks (anew := true) (n := 8 * k + c) (by simpa [State.fallAll] using hn)
  rw [fell] at admits
  have lower := State.fallsTo_sinks admits
  simp only [State.fallsTo, hk, hm, spoke, State.spoke_of_getElem? hx] at low lower sinks admits unheld
  have all := sinks.trans admits
  exact ⟨lower.trans low, all.freq, all.held, all.boosted, unheld⟩

/-- A spoke put in its place. -/
def State.setSpoke (s : State) (k : Nat) (x : Spoke) : State := { s with spokes := s.spokes.set k x }

theorem State.setSpoke_getElem? {k : Nat} {x y : Spoke} (hx : s.spokes[k]? = some x) : (s.setSpoke k y).spokes[k]? = some y := by
  simp [State.setSpoke, (List.getElem?_eq_some_iff.1 hx).1]

@[simp] theorem State.setSpoke_cluster (s : State) (k : Nat) (x : Spoke) (n : Nat) : (s.setSpoke k x).cluster n = s.cluster n := rfl

@[simp] theorem State.setSpoke_clusters (s : State) (k : Nat) (x : Spoke) : (s.setSpoke k x).clusters = s.clusters := rfl

/-- What the end of an interval leaves: its spoke's account and state, and its clusters fallen and admitted anew. -/
theorem execBoostIntervalEnd_due {k : Nat} {x : Spoke} (hk : k < 8) (hx : s.spokes[k]? = some x)
    (htick : 400 * x.intervals + 399 ≤ s.tick) (hgrid : ∀ b ∈ s.batches, s.gridDue b = true → k ∉ b.gbarDies)
    (hrise : ∀ c, c < 8 → s.riseDue (8 * k + c) = false) :
    execBoostIntervalEnd k s = .next
      ((s.setSpoke k (x.interval (s.boostUsed k))).fallAndAdmit k (x.interval (s.boostUsed k)).boost) := by
  have noGrid : s.batches.any (fun b => s.gridDue b && b.gbarDies.contains k) = false :=
    List.any_eq_false.2 fun b hb hd => by
      simp only [Bool.and_eq_true, List.contains_iff_mem] at hd
      exact hgrid b hb hd.1 hd.2
  have noRise : (clustersOf k).any s.riseDue = false := List.any_eq_false.2 fun n hn hr => by
    obtain ⟨c, hc, rfl⟩ := List.mem_map.1 hn
    simp [hrise c (List.mem_range.1 hc)] at hr
  unfold execBoostIntervalEnd
  simp only [State.spoke_of_getElem? hx, noGrid, noRise, State.boostUsed_eq, State.updSpoke_of_getElem? hx]
  rw [if_neg (by simp; omega)]
  rfl

/-! Ballast and FREQSTEP (R327, R334). -/

/-- Ballast goes on each 50 ns. -/
theorem execBallastStep_on {n : Nat} {c : Cluster} (hc : s.clusters[n]? = some c) (hb : c.ballast ≠ 0) :
    execBallastStep n s = .next (if c.ballastTick + 5 ≤ s.tick
      then { s with clusters := s.clusters.set n { c with ballast := c.ballast - 1, ballastTick := s.tick } } else s) := by
  simp only [execBallastStep, State.ballastDue, State.cluster_of_getElem? hc, bne_iff_ne, ne_eq, hb, not_false_eq_true, if_true,
    decide_eq_true_eq, State.updCluster_of_getElem? hc, if_false]
  split <;> rfl

/-- Ballast begins on a cluster that has just stopped, where more than 8 have. -/
theorem execBallastStep_begin {n : Nat} {c : Cluster} (hc : s.clusters[n]? = some c) (hb : c.ballast = 0) :
    execBallastStep n s = .next (if (s.stoppedNow n && c.issued.any (fun t => decide (c.ballastTick ≤ t)) && s.manyStopped) = true
      then { s with clusters := s.clusters.set n { c with ballast := 8, ballastTick := s.tick } } else s) := by
  simp only [execBallastStep, State.ballastDue, State.cluster_of_getElem? hc, bne_iff_ne, ne_eq, hb, not_true, if_true, if_false,
    State.updCluster_of_getElem? hc]
  split <;> rfl

theorem State.stoppedNow_eq {n t : Nat} (h : (s.cluster n).issued = some t) :
    s.stoppedNow n = decide (t + 5 ≤ s.tick ∧ s.tick < t + 10 ∧ (s.cluster n).span.pass = []) := by
  rw [Bool.eq_iff_iff]
  simp [State.stoppedNow, h]
  tauto

theorem State.stoppedNow_none {n : Nat} (h : (s.cluster n).issued = none) : s.stoppedNow n = false := by
  simp [State.stoppedNow, h]

theorem State.riseDue_iff {n : Nat} : s.riseDue n = true ↔ (s.cluster n).admitted = true ∧ (s.spoke (n / 8)).boost = .open
    ∧ (s.cluster n).freq < 18 ∧ (s.cluster n).riseTick + 4 ≤ s.tick ∧ (s.spoke (n / 8)).calBusy.getLsbD (n % 8) = false := by
  simp [State.riseDue, and_assoc]

theorem execFreqStepRise_eq (n : Nat) : execFreqStepRise n s = .next (if s.riseDue n = true
    then s.updCluster n (fun c => { c with freq := c.freq + 1, boosted := true, riseTick := s.tick }) else s) := by
  unfold execFreqStepRise
  split <;> rfl

end

end Sys2Proof.Machine

/-! The power manager's comparisons, the ends of boost intervals and ballast, as the statement has them. -/

namespace Sys2Proof.Machine

section
variable {s : State}

/-- Cluster `c` as an action withdraws its boost. -/
def State.curbed (s : State) (n : Nat) (c : Cluster) : Cluster :=
  if (s.spoke (n / 8)).calBusy.getLsbD (n % 8) = true then { c with withdrawn := true, admitted := false, fallTo := 0 }
  else { c with withdrawn := true, admitted := false, freq := 0 }

theorem State.fall_zero (n : Nat) (c : Cluster) : s.fall n 0 { c with withdrawn := true, admitted := false } = s.curbed n c := by
  unfold State.fall State.curbed
  split <;> simp

/-- A cluster whose PASSC is set; a pass in progress runs on under the old value. -/
def Cluster.pass (k : Nat) (c : Cluster) : Cluster := { c with passTo := k, passc := if c.span.pass = [] then k else c.passc }

theorem Cluster.setPass_eq (c : Cluster) (k : Nat) : c.setPass k = c.pass k := by
  simp [Cluster.setPass, Cluster.pass]

theorem execPowerCompare_early (h : s.tick < 100 * (s.power.compared + 1)) : execPowerCompare s = .next s := by
  rw [execPowerCompare_eq, if_pos h]

theorem Cluster.curbable_iff {c : Cluster} : c.curbable = true ↔ 0 < c.freq ∧ c.withdrawn = false := by
  simp [Cluster.curbable]

/-- A comparison above the budget that takes action `k` on cluster `n`. -/
theorem execPowerCompare_above (hd : 100 * (s.power.compared + 1) ≤ s.tick) (hp : s.powerBudget < Config.freePower s.freeCtr) {k n : Nat}
    {f : Cluster → Cluster} (h : s.compares.curb = { s.compares with
      clusters := s.clusters.modify n f, power := { s.compares.power with actions := (k, n) :: s.power.actions, calm := 0 } }) :
    ∃ t, execPowerCompare s = .next t ∧ t.clusters = s.clusters.modify n f
      ∧ t.power = { s.power with compared := s.power.compared + 1, calm := 0, actions := (k, n) :: s.power.actions } := by
  refine ⟨_, by rw [execPowerCompare_eq, if_neg (Nat.not_lt.2 hd), if_pos hp, h], rfl, rfl⟩

/-- No populated cluster has `f`. -/
def State.none (s : State) (f : Cluster → Prop) : Prop := ∀ m, m < 64 → s.populated (m / 8) = true → ¬ f (s.cluster m)

theorem State.topRank_passTo {k n : Nat} (h : s.tops n (fun c => c.passTo = k)) : s.compares.topRank (fun c => c.passTo == k) = some n :=
  State.topRank_eq_some (s := s.compares) (show s.tops n fun c => (c.passTo == k) = true by simpa using h)

theorem State.topRank_no_boost (h : s.none (fun c => 0 < c.freq ∧ c.withdrawn = false)) : s.compares.topRank Cluster.curbable = .none :=
  State.topRank_eq_none fun m hm hp => Bool.eq_false_iff.2 fun hc => h m hm hp (Cluster.curbable_iff.1 hc)

theorem execPowerCompare_boost (hd : 100 * (s.power.compared + 1) ≤ s.tick) (hp : s.powerBudget < Config.freePower s.freeCtr) {n : Nat}
    (h : s.tops n (fun c => 0 < c.freq ∧ c.withdrawn = false)) :
    ∃ t, execPowerCompare s = .next t ∧ t.clusters = s.clusters.modify n (s.curbed n)
      ∧ t.power = { s.power with compared := s.power.compared + 1, calm := 0, actions := (0, n) :: s.power.actions } := by
  have top : s.compares.topRank Cluster.curbable = some n :=
    State.topRank_eq_some (s := s.compares) (show s.tops n fun c => c.curbable = true by simpa only [Cluster.curbable_iff] using h)
  refine execPowerCompare_above hd hp ((State.curb_boost top).trans ?_)
  rw [funext (s.compares.fall_zero n)]
  rfl

theorem execPowerCompare_pass (hd : 100 * (s.power.compared + 1) ≤ s.tick) (hp : s.powerBudget < Config.freePower s.freeCtr) {k n : Nat}
    (hk : k = 1 ∨ k = 2) (h0 : s.none (fun c => 0 < c.freq ∧ c.withdrawn = false)) (h1 : k = 2 → s.none (fun c => c.passTo = 1))
    (h : s.tops n (fun c => c.passTo = k)) :
    ∃ t, execPowerCompare s = .next t ∧ t.clusters = s.clusters.modify n (Cluster.pass (2 * k))
      ∧ t.power = { s.power with compared := s.power.compared + 1, calm := 0, actions := (k, n) :: s.power.actions } := by
  have one (h2 : k = 2) : s.compares.topRank (fun c => c.passTo == 1) = .none :=
    State.topRank_eq_none fun m hm hp => beq_eq_false_iff_ne.2 (h1 h2 m hm hp)
  have curb := State.curb_pass hk (State.topRank_no_boost h0) one (State.topRank_passTo h)
  simp only [Cluster.setPass_eq] at curb
  exact execPowerCompare_above hd hp curb

theorem execPowerCompare_calm (hd : 100 * (s.power.compared + 1) ≤ s.tick) (hp : Config.freePower s.freeCtr ≤ s.powerBudget)
    (hc : s.power.calm < 9) : ∃ t, execPowerCompare s = .next t ∧ t.clusters = s.clusters
      ∧ t.power = { s.power with compared := s.power.compared + 1, calm := s.power.calm + 1 } :=
  ⟨{ s.compares with power := { s.compares.power with calm := s.power.calm + 1 } }, by
    rw [execPowerCompare_eq, if_neg (Nat.not_lt.2 hd), if_neg (Nat.not_lt.2 hp), if_neg (Nat.not_le.2 hc)], rfl, rfl⟩

theorem execPowerCompare_undo (hd : 100 * (s.power.compared + 1) ≤ s.tick) (hp : Config.freePower s.freeCtr ≤ s.powerBudget)
    (hc : 9 ≤ s.power.calm) {k n : Nat} {rest : List (Nat × Nat)} (ha : s.power.actions = (k, n) :: rest) (hk : k ≤ 2) :
    ∃ t, execPowerCompare s = .next t
      ∧ t.power = { s.power with compared := s.power.compared + 1, calm := 0, actions := rest }
      ∧ t.clusters = s.clusters.modify n (fun c => if k = 0 then { c with withdrawn := false } else c.pass k) := by
  have undo := State.uncurb_action (s := s.compares) ha hk
  simp only [Cluster.setPass_eq] at undo
  exact ⟨_, by rw [execPowerCompare_eq, if_neg (Nat.not_lt.2 hd), if_neg (Nat.not_lt.2 hp), if_pos hc, undo], rfl, rfl⟩

theorem execBoostIntervalEnd_clusters {k : Nat} {x : Spoke} (hk : k < 8) (hx : s.spokes[k]? = some x) (hlen : s.clusters.length = 64)
    (htick : 400 * x.intervals + 399 ≤ s.tick) (hgrid : ∀ b ∈ s.batches, s.gridDue b = true → k ∉ b.gbarDies)
    (hrise : ∀ c, c < 8 → s.riseDue (8 * k + c) = false) :
    let boost := x.boost.after (x.permitsAfter (s.boostUsed k))
    ∃ t, execBoostIntervalEnd k s = .next t ∧ t.waves = s.waves ∧ t.mem = s.mem
      ∧ t.spokes = s.spokes.set k { x.interval (s.boostUsed k) with rerank := false }
      ∧ (∀ c, c / 8 ≠ k → t.cluster c = s.cluster c)
      ∧ ∀ c, c < 8 → let y := t.cluster (8 * k + c)
        (if x.calBusy.getLsbD c = true then y.fallTo else y.freq) ≤ boost.top
          ∧ y.freq ≤ (s.cluster (8 * k + c)).freq ∧ (x.calBusy.getLsbD c = true → y.freq = (s.cluster (8 * k + c)).freq)
          ∧ y.boosted = (s.cluster (8 * k + c)).boosted ∧ (boost ≠ .open → y.admitted = false) := by
  intro boost
  have hx' := s.setSpoke_getElem? (y := x.interval (s.boostUsed k)) hx
  refine ⟨_, execBoostIntervalEnd_due hk hx htick hgrid hrise, rfl, rfl, ?_, fun c hc => ?_, fun c hc => ?_⟩
  · exact (State.fallAndAdmit_spokes hx' _).trans (List.set_set ..)
  · rw [State.fallAndAdmit_elsewhere hc, State.setSpoke_cluster]
  · have here := State.fallAndAdmit_cluster hx' hc (by rw [State.setSpoke_clusters]; omega)
    simp only [State.setSpoke_cluster] at here
    exact here

/-- No ballast begins on a cluster that issues, that has stopped longer ago, or whose span is in a pass. -/
theorem execBallastStep_idle {n : Nat} {c : Cluster} (hc : s.clusters[n]? = some c) (hb : c.ballast = 0)
    (h : (∀ t, c.issued = some t → s.tick < t + 5 ∨ t + 10 ≤ s.tick) ∨ c.span.pass ≠ []) : execBallastStep n s = .next s := by
  refine (execBallastStep_begin hc hb).trans (congrArg _ (if_neg fun hd => ?_))
  simp only [State.stoppedNow, State.cluster_of_getElem? hc, Bool.and_eq_true, List.isEmpty_iff] at hd
  obtain ⟨⟨⟨hp, hs⟩, -⟩, -⟩ := hd
  cases hi : c.issued with
  | none => simp [hi] at hs
  | some t =>
    obtain h | h := h
    · have := h t hi
      simp [hi] at hs
      omega
    · exact h hp

/-- On a cluster that has stopped in the step that ends, ballast begins where more than 8 have. -/
theorem execBallastStep_stopped {n t : Nat} {c : Cluster} (hc : s.clusters[n]? = some c) (hb : c.ballast = 0) (ht : c.issued = some t)
    (h5 : t + 5 ≤ s.tick) (h10 : s.tick < t + 10) (hbt : c.ballastTick ≤ t) (hp : c.span.pass = []) :
    execBallastStep n s = .next (if 8 < ((List.range 64).filter s.stoppedNow).length
      then { s with clusters := s.clusters.set n { c with ballast := 8, ballastTick := s.tick } } else s) := by
  have begins : (s.stoppedNow n && c.issued.any (fun t => decide (c.ballastTick ≤ t))) = true := by
    rw [State.stoppedNow_eq (t := t) (by rw [State.cluster_of_getElem? hc, ht]), State.cluster_of_getElem? hc]
    simp [ht, h5, h10, hbt, hp]
  refine (execBallastStep_begin hc hb).trans ?_
  simp only [begins, Bool.true_and, State.manyStopped, decide_eq_true_eq]

end

end Sys2Proof.Machine

section
open Sys2Proof Sys2Proof.Machine

/-- Settles O55: energy by the frame of the charges, a comparison by the cluster that ranks highest, an interval by what its falls and
admission keep of each cluster, ballast and FREQSTEP by when they are due. -/
theorem power : Obligations.Power := by
  unfold Obligations.Power
  refine ⟨fun s => ⟨execEnergyCharge_early, execEnergyCharge_due, execEnergyWindowEnd_early, execEnergyWindowEnd_due, ?_⟩,
    fun s k x hk hx hlen => ?_, fun s n c hc => ?_, fun s n => ?_⟩
  · extract_lets
    obtain ⟨low, high, limited⟩ := s.powerBudget_bounds
    refine ⟨high, fun _ => low, fun hp => ⟨low, limited hp⟩, execPowerCompare_early, fun hd => ?_⟩
    exact ⟨fun hp n hn => execPowerCompare_boost hd hp hn, fun hp h0 n hn => execPowerCompare_pass hd hp (.inl rfl) h0 (by simp) hn,
      fun hp h0 h1 n hn => execPowerCompare_pass hd hp (.inr rfl) h0 (fun _ => h1) hn, execPowerCompare_calm hd,
      fun hp hc k n rest ha hk => execPowerCompare_undo hd hp hc ha hk⟩
  · extract_lets used full budget state
    have next : state = x.boost.after (x.permitsAfter (s.boostUsed k)) := by
      unfold state
      cases x.boost <;> rfl
    have refill : (if 0 < used ∨ full then 0 else x.refill + 1) = if 0 < used then 0 else if full then 0 else x.refill + 1 := by
      by_cases hu : 0 < used <;> simp [hu]
    refine ⟨fun h => execBoostIntervalEnd_held (.inl (State.spoke_of_getElem? hx ▸ h)), fun h => execBoostIntervalEnd_held (.inr h),
      fun htick hgrid hrise => ?_⟩
    rw [refill]
    clear_value state
    subst next
    obtain ⟨t, ht, hwaves, hmem, hspokes, elsewhere, here⟩ := execBoostIntervalEnd_clusters hk hx hlen htick hgrid hrise
    refine ⟨t, ht, hwaves, hmem, hspokes, elsewhere, fun c hc => ?_⟩
    have here := here c hc
    generalize x.boost.after (x.permitsAfter (s.boostUsed k)) = b at here ⊢
    cases b <;> exact here
  · extract_lets put stopped
    have stopped_eq : stopped = (List.range 64).filter s.stoppedNow := List.filter_congr fun m _ => by
      cases hi : (s.cluster m).issued with
      | none => exact (State.stoppedNow_none hi).symm
      | some t => exact (State.stoppedNow_eq hi).symm
    refine ⟨fun hb => ⟨fun h => ?_, fun h => ?_⟩, fun hb h => execBallastStep_idle hc hb h, fun hb t ht h5 h10 hbt hp => ?_⟩
    · exact (execBallastStep_on hc hb).trans (by rw [if_neg (Nat.not_le.2 h)])
    · exact (execBallastStep_on hc hb).trans (by rw [if_pos h])
    · have step := execBallastStep_stopped hc hb ht h5 h10 hbt hp
      rw [← stopped_eq] at step
      exact ⟨fun h => step.trans (by rw [if_pos h]), fun h => step.trans (by rw [if_neg (Nat.not_lt.2 h)])⟩
  · exact ⟨fun h => (execFreqStepRise_eq n).trans (by rw [if_pos (State.riseDue_iff.2 h)]),
      fun h => (execFreqStepRise_eq n).trans (by rw [if_neg (fun hr => h (State.riseDue_iff.1 hr))])⟩

end

/-! ENQG (R322) on a record whose page another core holds: the command processor's write of PRED_COUNT makes the page shared, and what
that core had still in flight to the page reaches its home first (R193). -/

namespace Sys2Proof.Machine

/-- An ENQG of slot 2 of ring 3 that waits for its answer. -/
def ownedEnqg : PendEnq :=
  { op := 3, instr := .enqg .always (.v 20) (.v 8), mask := 0xF0, lane := 4, desc := 0, count := 0, arg := 0, ref := 0x80030002, isG := true }

/-- A wave of the first core. -/
def ownedWave : Wave := { fetchWave 0 with enqs := [ownedEnqg] }

/-- A write of another core, of the third die, to slot 3 of that ring: it has reached its L1. -/
def ownedWrite : Write :=
  { op := 9, wave := 99, lane := 0, ctx := 1, l1 := 100, spoke := 3, va := 0xA300, pa := devBase + 0xA300, data := [1], stage := 1, need := 1
    frame := false, shown := 0 }

/-- Slot 2 of the ring holds a WAITING record with two predecessors. The page of the ring is that core's. -/
def ownedRing : State :=
  { State.reset.withWord 0 with
    waves := [ownedWave]
    rings := State.reset.rings.set 3 { Ring.reset with base := devBase + 0xA000, bound := true, ctx := 1 }
    mem := [(devBase + 0xA200, 1), (devBase + 0xA204, 2)]
    classes := [((devBase + 0xA000) / 4096, .owned 100 1 0xA000)]
    writes := [ownedWrite] }

/-- A byte of the memory that a meaning leaves. -/
def byteAfter (o : Out State) (a : Nat) : Option Byte :=
  match o with
  | .next t => some (t.byteAt a)
  | _ => none

theorem ownedRing_byte_before : ownedRing.byteAt (devBase + 0xA300) = 0 := by decide

/-- The answer brings the other core's byte home. -/
theorem ownedRing_byte_after : byteAfter (exec (.enqAccept 6 3) ownedRing) (devBase + 0xA300) = some 1 := by decide

/-- The wave may be answered: none of its own writes is short of its home. -/
theorem ownedRing_released : ownedRing.released ownedWave 3 3 = true ∧ ownedWave.mayPerform 3 0xF0 true = true ∧ ownedWave.live ≠ 0 := by
  decide

/-- The reference names a record that waits for two predecessors. -/
theorem ownedRing_record : (ownedRing.ring 3).bound = true ∧ (ownedRing.ring 3).ctx = ownedWave.ctx ∧ 2 < (ownedRing.ring 3).size
    ∧ ownedRing.numAt (ownedRing.slotAddr 3 2) 4 % 16 = 1 ∧ ownedRing.numAt (ownedRing.slotAddr 3 2 + 4) 4 = 2 := by decide

end Sys2Proof.Machine

section
open Sys2Proof Sys2Proof.Machine

/-- Refutes O46: the answer of an ENQG may change bytes beside PRED_COUNT. Where another core holds the record's page, its write in flight
to slot 3 of the ring is performed at its home before the command processor writes slot 2. -/
theorem not_enqueues : ¬ Obligations.Enqueues := by
  unfold Obligations.Enqueues
  rintro ⟨-, answers, -⟩
  obtain ⟨released, mayPerform, live⟩ := ownedRing_released
  obtain ⟨bound, ctx, size, waits, preds⟩ := ownedRing_record
  obtain ⟨-, enqg⟩ := answers ownedRing ownedWave _ ownedEnqg .always (.v 20) (.v 8) .zero .zero .any false rfl rfl rfl live released mayPerform
  obtain ⟨-, -, named⟩ := enqg rfl
  obtain ⟨-, -, inRing⟩ := named (by decide) bound ctx
  obtain ⟨-, lowered, -⟩ := inRing size waits
  obtain ⟨t, ⟨step, -⟩, -, -, kept⟩ := lowered (preds ▸ by decide)
  have after := ownedRing_byte_after
  rw [show (3 : Nat) = ownedEnqg.op from rfl, show (6 : Nat) = ownedWave.uid from rfl, step] at after
  have same := kept (devBase + 0xA300) (.inr (by decide))
  rw [ownedRing_byte_before] at same
  exact absurd (Option.some.inj after) (by rw [same]; decide)

end

/-! The watchdog (R389) on a node whose record lies in a page that another core holds: the write of STATUS makes the page shared, and a
copy in error that this writes back is reported too (R193, R391). -/

namespace Sys2Proof.Machine

/-- A region that limits nothing but resident time: its watchdog is 2. -/
def timedRegion : Region :=
  { num := 1, parent := 0, valid := true, prio := 4, boostOk := true, faultDomain := false, override := 0xFF, coreLimit := 0xFFFF
    scratchLimit := 0xFFFF, enqLimit := 0xFFFFFFFF, energyLimit := 0, timeSlice := 0, watchdog := 2, malformed := false, named := 0
    windowLimit := some 0, energyTotal := 0, windowsCapped := 0, preempts := 0, kills := 0, charge := 0, capped := false }

/-- The node of slot 0 of ring 0, one resident unit above its watchdog. -/
def timedNode : Node :=
  { uid := 2, ring := 0, slot := 0, ctx := 1, region := 1, running := true, place := 0, readyTick := 0, readyAt := 0
    spawn := 1, nextSeq := 1, startOrder := 0, tStart := 0, seedLanes := 32, resident := 2049 }

/-- Another core's copy of slot 3 of the ring, which holds an uncorrectable error. -/
def spoiltLine : Line :=
  { place := .l1 100, ctx := 1, va := 0xA300, pa := devBase + 0xA300, data := [], born := 0, grant := 0, expiry := none, version := 0, bad := true }

/-- The ring is in a page of that core, which has a write to slot 3 in flight. -/
def timedOut : State :=
  { State.reset.withWord 0 with
    nodes := [timedNode], regions := [timedRegion]
    rings := State.reset.rings.set 0 { Ring.reset with base := devBase + 0xA000, bound := true, ctx := 1 }
    classes := [((devBase + 0xA000) / 4096, .owned 100 1 0xA000)]
    writes := [ownedWrite], lines := [spoiltLine] }

/-- The codes of the reports that a meaning leaves. -/
def reportCodes (o : Out State) : List Nat :=
  match o with
  | .next t => t.reports.map (fun r => r.code)
  | _ => []

/-- The watchdog's report, and that of the error. -/
theorem timedOut_reports : reportCodes (exec (.watchdog 2) timedOut) = [0x25, 0x23] := by decide

theorem timedOut_limit : timedOut.effWatchdog timedNode.region = 2 := by decide

/-- The gang and the batch of the node's wave. -/
def timedGang : Gang := timedOut.gangs.head (by decide)

def timedBatch : Batch := timedOut.batches.head (by decide)

end Sys2Proof.Machine

section
open Sys2Proof Sys2Proof.Machine

/-- Refutes O54: a node that its watchdog ends may bring more than the watchdog's report. Where another core holds the page of its record,
the command processor's write of STATUS calls the page back, and an uncorrectable error of that core's copy is reported as well. -/
theorem not_scheduling : ¬ Obligations.Scheduling := by
  unfold Obligations.Scheduling
  rintro ⟨-, -, -, -, -, -, running, -⟩
  obtain ⟨-, -, -, -, -, -, -, -, -, -, -, -, watchdog⟩ := running timedOut timedGang timedBatch timedNode rfl rfl rfl
  obtain ⟨-, expires⟩ := watchdog rfl
  obtain ⟨t, step, -, -, -, reports⟩ := expires (by rw [timedOut_limit]; decide) rfl (by rw [timedOut_limit]; decide) rfl
  have codes := timedOut_reports
  rw [show (2 : Nat) = timedNode.uid from rfl, step] at codes
  change t.reports.map _ = _ at codes
  rw [reports] at codes
  exact absurd codes (by decide)

end

/-! DIE_GATE (R11) of a die whose L1 holds a copy in error behind a write in flight: what is written back is reported and counted (R391,
R404). -/

namespace Sys2Proof.Machine

/-- The fourth die, ungated and without gangs; a core of it has a write in flight from a copy that holds an error. -/
def spoiltDie : State :=
  { State.reset.withWord 0 with
    spokes := List.replicate 8 { Spoke.reset with gated := false, capacity := spokeSpan }
    writes := [ownedWrite], lines := [spoiltLine] }

/-- The uncorrectable errors that a die has counted, after a meaning. -/
def errorsAfter (o : Out State) (k : Nat) : Nat :=
  match o with
  | .next t => Map.get 0 (t.spoke k).counters 0x20
  | _ => 0

theorem spoiltDie_errors : errorsAfter (exec (.dieGate 3) spoiltDie) 3 = 1 := by decide

end Sys2Proof.Machine

section
open Sys2Proof Sys2Proof.Machine

/-- Refutes O53: the gating of a die may change more of it than its gate. An uncorrectable error of a copy that its caches write back is
counted in the die's readback counters. -/
theorem not_outsideAndBackground : ¬ Obligations.OutsideAndBackground := by
  unfold Obligations.OutsideAndBackground
  rintro ⟨-, dies, -⟩
  obtain ⟨gate, -⟩ := dies spoiltDie 3 { Spoke.reset with gated := false, capacity := spokeSpan } false (by decide) rfl
  obtain ⟨t, step, spokes, -⟩ := gate rfl (by decide) (by decide)
  have errors := spoiltDie_errors
  rw [step] at errors
  change Map.get 0 (t.spokes.getD 3 .reset).counters 0x20 = 1 at errors
  rw [spokes] at errors
  exact absurd errors (by decide)

end

/-! Special registers (R45 to R48, R129, R130, R365): what MOVS reads, and MTS as a register word that then writes its site. -/

namespace Sys2Proof.Machine

/-- A table after writes at some keys, each of its own value. -/
theorem Map.get_foldl_put {α : Type} [DecidableEq α] (d : α) (ks : List Nat) (m : Map α) (f : Nat → α) (n : Nat) :
    Map.get d (ks.foldl (fun m k => Map.put d m k (f k)) m) n = if n ∈ ks then f n else Map.get d m n := by
  induction ks generalizing m with
  | nil => simp
  | cons k t ih =>
    rw [List.foldl_cons, ih, Map.get_put]
    by_cases hk : n = k
    · subst hk; simp
    · simp [hk]

/-- A register file with another TIMEREF_HI snapshot. -/
def RegFile.latch (rf : RegFile) (t : Word) : RegFile := { rf with timeHi := t }

/-- A write leaves the snapshot as it is. -/
theorem RegFile.write_latch (rf : RegFile) (t : Word) (d : Dst) (q : LaneMask) (f : Nat → Word) :
    (rf.latch t).write d q f = (rf.write d q f).latch t := by
  cases d with
  | v n => rfl
  | s n =>
    simp only [RegFile.write, RegFile.putS]
    cases lowestLane q <;> rfl
  | zero => rfl

theorem RegFile.write_timeHi (rf : RegFile) (d : Dst) (q : LaneMask) (f : Nat → Word) : (rf.write d q f).timeHi = rf.timeHi := by
  have h := (writesRun_write rf d q f).rest
  rw [h]

/-- Putting the old snapshot back. -/
theorem RegFile.latch_restore {rf : RegFile} {t old : Word} {fl : BitVec 6} (h : rf.timeHi = old) :
    ((rf.latch t).orFlags fl).latch old = rf.orFlags fl := by
  subst h
  rfl

section
variable {s : State} {i : Issue} {g : Guard} {d : Dst} {a : Src} {num : Fin 256} {w : Wave} {act : LaneMask} {n lane : Nat}

theorem State.special_unplaced (h : placedRegs.contains n = false) : s.special w act n lane = s.waveSpecial w act n lane := by
  unfold State.special
  split
  · simp only [h, Bool.false_eq_true, if_false]
  · rfl

/-- A register of a place reads free on a postilion, within its width. -/
theorem State.special_post {site : Nat} (hp : w.post = some site) (h : placedRegs.contains n = true) :
    s.special w act n lane = Config.postSpecial site n &&& placedBits n := by
  simp only [State.special, hp, h, if_true]

theorem State.special_of_no_post (hp : w.post = Option.none) : s.special w act n lane = s.waveSpecial w act n lane := by
  simp only [State.special, hp]

/-- The snapshot after MOVS: TIMEREF_LO read in some lane takes it anew (R46). -/
def State.snapshot (s : State) (num : Fin 256) (q : LaneMask) (old : Word) : Word :=
  if num = 0x30 ∧ q ≠ 0 then BitVec.ofNat 32 (s.tick / 2 ^ 32) else old

/-- MOVS is a register word. -/
theorem execMovs_eq (h : s.issue? = some i) : execMovs g d num s = regIssue g (specialRegs num) d.regs false (fun x =>
    noFlags ((x.rf.write d x.q (fun l => s.special i.w x.act num l)).latch (s.snapshot num x.q x.rf.timeHi))) s := by
  have file (x : RegIn) : (if (num.val == 0x30 && x.q != 0) = true then { x.rf with timeHi := BitVec.ofNat 32 (s.tick / 2 ^ 32) } else x.rf)
      = x.rf.latch (s.snapshot num x.q x.rf.timeHi) := by
    have hn : num.val = 0x30 ↔ num = 0x30 := (Fin.ext_iff (b := (0x30 : Fin 256))).symm
    by_cases h : num = 0x30 ∧ x.q ≠ 0
    · have h' : (num.val == 0x30 && x.q != 0) = true := by simpa [hn] using h
      rw [State.snapshot, if_pos h, if_pos h']
      rfl
    · have h' : ¬ ((num.val == 0x30 && x.q != 0) = true) := by simpa [hn] using h
      rw [State.snapshot, if_neg h, if_neg h']
      rfl
  simp only [execMovs, h, file, RegFile.write_latch]

/-- MOVS writes the special register's value in every qualifying lane, and the snapshot. -/
theorem movs_completes (h : Ready s i false (g.regs ++ specialRegs num ++ d.regs) d.regs) : Completes s i (.movs g d num) (fun rf =>
    WritesRun i.w.rf (rf.latch i.w.rf.timeHi) d 1 (i.lanes g) (fun _ l => s.special i.w i.p.lanes num l) 0
      ∧ rf.timeHi = s.snapshot num (i.lanes g) i.w.rf.timeHi) := by
  refine regIssue_completes (ins := .movs g d num) (execMovs_eq h.here) h (no_trap_zero _) ⟨?_, rfl⟩
  have written := writesRun_flags (writesRun_write i.w.rf d (i.lanes g) (s.special i.w i.p.lanes num)) 0
  have same := i.w.rf.write_timeHi d (i.lanes g) (s.special i.w i.p.lanes num)
  exact (congrArg (WritesRun i.w.rf · d 1 (i.lanes g) (fun _ l => s.special i.w i.p.lanes num l) 0) (RegFile.latch_restore same)).mpr written

/-- The registers that MTS of FPSTAT or RNDSEED leaves; of any other register it leaves them as they are. -/
def RegIn.mts (x : RegIn) (a : Src) (num : Nat) : RegFile :=
  if num = 0x10 then { x.rf with fpstat := match lowestLane x.q with
    | some l => (a.read x.rf x.lit l).extractLsb' 0 6
    | none => x.rf.fpstat }
  else if num = 0x12 then { x.rf with seed := (lanesOf x.q).foldl (fun m l =>
    Map.put 1 m l (if a.read x.rf x.lit l = 0 then 1 else a.read x.rf x.lit l)) x.rf.seed }
  else x.rf

/-- What a register word of the issue reads. -/
def Issue.regIn (i : Issue) (g : Guard) : RegIn := { rf := i.w.rf, lit := i.c.head.lit, act := i.p.lanes, q := i.lanes g }

/-- MTS issues as a register word, and then writes a register of its site. -/
theorem execMts_ready (h : Ready s i false (g.regs ++ a.regs ++ specialRegs num) (specialRegs num)) : ∃ u w',
    exec (.mts g a num) s = .next (u.mtsPost i num (i.lanes g) (i.val a)) ∧ Issued s u i w' ∧ Advanced i w'
      ∧ w'.rf = (i.regIn g).mts a num := by
  obtain ⟨u, w', run, issued, adv, rf⟩ := regIssue_ready (long := false) (f := fun x => noFlags (x.mts a num)) h (no_trap_zero _)
  refine ⟨u, w', ?_, issued, adv, rf.trans ?_⟩
  · change execMts g a num s = _
    unfold execMts
    rw [h.here]
    dsimp -zeta only
    extract_lets out
    have same : out = .next u := by
      rw [← run]
      unfold out
      congr 1
      funext x
      unfold RegIn.mts
      split
      · cases lowestLane x.q <;> rfl
      · split <;> rfl
    rw [same]
    exact if_pos ⟨h.go, h.whole a.regs _⟩
  · simp [noFlags, RegFile.orFlags, Issue.regIn]

/-- FPSTAT and RNDSEED are no registers of a site. -/
theorem State.mtsPost_own {u : State} {n : Nat} {q : LaneMask} {f : Nat → Word} (hn : n = 0x10 ∨ n = 0x12) : u.mtsPost i n q f = u := by
  have keeps (l : Nat) : (fun p => postWrite p n (f l)) = id := by
    funext p
    rcases hn with rfl | rfl <;> rfl
  unfold State.mtsPost
  split
  · split
    · rfl
    · have h38 : n ≠ 0x38 := by omega
      have h39 : n ≠ 0x39 := by omega
      have h3A : n ≠ 0x3A := by omega
      have h81 : n ≠ 0x81 := by omega
      simp [h38, h39, h3A, h81, keeps, updAt_eq_modify]
  · rfl

/-- The machine with a postilion's registers in their place. -/
def State.withPost (s : State) (site : Nat) (p : Post) : State := { s with posts := s.posts.set site p }

/-- A register of the postilion's own site is written with the value of the lowest lane. -/
theorem State.mtsPost_site {u : State} {w' : Wave} {n site l : Nat} {q : LaneMask} {f : Nat → Word} {p : Post} (hpost : i.w.post = some site)
    (hl : lowestLane q = some l) (hw : u.wave? i.w.uid = some w') (hp : u.posts[site]? = some p) (hn : 0x80 ≤ n) :
    u.mtsPost i n q f = if n = 0x81 then (u.withPost site (postWrite p n (f l))).putWave { w' with ctx := (postWrite p n (f l)).ctx }
      else u.withPost site (postWrite p n (f l)) := by
  have h38 : n ≠ 0x38 := by omega
  have h39 : n ≠ 0x39 := by omega
  have h3A : n ≠ 0x3A := by omega
  have hlen : site < u.posts.length := (List.getElem?_eq_some_iff.1 hp).1
  unfold State.mtsPost
  simp [hpost, hl, hw, h38, h39, h3A, updAt_eq_set hp, hlen, State.withPost]

/-- MTS of a register of a postilion's site (R365). -/
theorem mts_site {site l : Nat} {p : Post} (h : Ready s i false (g.regs ++ a.regs ++ specialRegs num) (specialRegs num))
    (hpost : i.w.post = some site) (hl : lowestLane (i.lanes g) = some l) (hp : s.posts[site]? = some p) (hn : 0x80 ≤ num.val) :
    ∃ t u w', exec (.mts g a num) s = .next t ∧ Issued s u i w' ∧ w'.rf = i.w.rf ∧ t = { u with posts := t.posts, waves := t.waves }
      ∧ t.wave? i.w.uid = some (if num.val = 0x81 then { w' with ctx := (postWrite p num (i.val a l)).ctx } else w')
      ∧ (∀ k, k ≠ i.w.uid → t.wave? k = s.wave? k)
      ∧ t.posts[site]? = some (postWrite p num (i.val a l)) ∧ (∀ n, n ≠ site → t.posts[n]? = s.posts[n]?) := by
  obtain ⟨u, w', run, issued, -, rf⟩ := execMts_ready h
  have hposts : u.posts = s.posts := by rw [issued.rest]
  have hlen : site < u.posts.length := (List.getElem?_eq_some_iff.1 (hposts ▸ hp)).1
  have uid : w'.uid = i.w.uid := wave?_uid _ _ _ issued.wave
  have plain : w'.rf = i.w.rf := by
    rw [rf, RegIn.mts, if_neg (by omega), if_neg (by omega)]
    rfl
  have here : (u.withPost site (postWrite p num (i.val a l))).posts[site]? = some (postWrite p num (i.val a l)) := List.getElem?_set_self hlen
  have elsewhere (n : Nat) (hn : n ≠ site) : (u.withPost site (postWrite p num (i.val a l))).posts[n]? = s.posts[n]? := by
    rw [← hposts]
    exact List.getElem?_set_ne hn.symm
  rw [State.mtsPost_site hpost hl issued.wave (hposts ▸ hp) hn] at run
  by_cases hc : num.val = 0x81
  · rw [if_pos hc] at run
    refine ⟨_, u, w', run, issued, plain, rfl, ?_, fun k hk => ?_, here, elsewhere⟩
    · rw [if_pos hc, ← uid]
      exact wave?_putWave_self _ _ w' (uid ▸ issued.wave)
    · exact Eq.trans (wave?_putWave_other _ _ k fun e => hk (e.trans uid)) (issued.others k hk)
  · rw [if_neg hc] at run
    exact ⟨_, u, w', run, issued, plain, rfl, (if_neg hc).symm ▸ issued.wave, issued.others, here, elsewhere⟩

/-- RNDSEED after MTS: each qualifying lane takes its value, a written 0 as 1. -/
theorem RegIn.seed_mts (x : RegIn) (l : Nat) (hl : l < 32) : Map.get 1 (x.mts a 0x12).seed l
    = if x.q.getLsbD l = true then (if a.read x.rf x.lit l = 0 then 1 else a.read x.rf x.lit l) else Map.get 1 x.rf.seed l := by
  rw [RegIn.mts, if_neg (by decide), if_pos rfl]
  simp [Map.get_foldl_put, mem_lanesOf, hl]

end

end Sys2Proof.Machine

section
open Sys2Proof Sys2Proof.Machine

/-- Settles O17: MOVS as a register word, and a special register's value number by number. -/
theorem specialRegisterReads : Obligations.SpecialRegisterReads := by
  unfold Obligations.SpecialRegisterReads
  intro s i g d num
  extract_lets placed
  refine ⟨movs_completes, fun l hl => ?_⟩
  have inPlace {n v bits : Nat} (h : placedRegs.contains n = true) (width : placedBits n = BitVec.ofNat 32 (2 ^ bits - 1))
      (value : s.waveSpecial i.w i.p.lanes n l = BitVec.ofNat 32 v) : s.special i.w i.p.lanes n l = placed n v bits := by
    unfold placed
    cases hp : i.w.post with
    | none => exact (State.special_of_no_post hp).trans value
    | some site => exact (State.special_post hp h).trans (congrArg _ width)
  have tick : s.special i.w i.p.lanes 0x30 l = BitVec.ofNat 32 (s.tick % 2 ^ 32) :=
    (State.special_unplaced rfl).trans (BitVec.eq_of_toNat_eq (by simp [State.waveSpecial]))
  have code : s.special i.w i.p.lanes 0x38 l = BitVec.ofNat 32 (if i.w.trap.inHandler = true then i.w.trap.code else 0) :=
    (State.special_unplaced rfl).trans (apply_ite (BitVec.ofNat 32) ..).symm
  simp only [List.mem_cons, List.not_mem_nil, or_false, forall_eq_or_imp, forall_eq]
  exact ⟨State.special_unplaced rfl, State.special_unplaced rfl, State.special_unplaced rfl, State.special_unplaced rfl,
    State.special_unplaced rfl, State.special_unplaced rfl, State.special_unplaced rfl, inPlace rfl rfl rfl, inPlace rfl rfl rfl,
    State.special_unplaced rfl, tick, State.special_unplaced rfl, code⟩

/-- Settles O18: MTS as a register word that then writes the register of the postilion's site. -/
theorem specialRegisterWrites : Obligations.SpecialRegisterWrites := by
  unfold Obligations.SpecialRegisterWrites
  intro s i g a num h
  refine ⟨fun hn => ?_, fun hn => ?_, fun site l v p hpost hl hv hp row hrow hnum => ?_⟩
  · obtain ⟨u, w', run, issued, adv, rf⟩ := execMts_ready h
    subst hn
    exact ⟨u, w', run.trans (congrArg _ (State.mtsPost_own (.inl rfl))), issued, adv, rf⟩
  · obtain ⟨u, w', run, issued, adv, rf⟩ := execMts_ready h
    subst hn
    refine ⟨u, w', run.trans (congrArg _ (State.mtsPost_own (.inr rfl))), issued, adv, ?_, fun l hl => ?_⟩
    · rw [rf]; rfl
    · rw [rf]; exact RegIn.seed_mts _ l hl
  · subst hv
    have site_row : 0x80 ≤ num.val ∧ row.2 = postWrite p num (i.val a l) := by
      simp only [List.mem_cons, List.not_mem_nil, or_false] at hrow
      rcases hrow with rfl | rfl | rfl | rfl | rfl | rfl | rfl <;> rw [hnum] <;> exact ⟨Nat.le_of_ble_eq_true rfl, rfl⟩
    obtain ⟨t, u, w', run, issued, plain, rest, wave, others, here, elsewhere⟩ := mts_site h hpost hl hp site_row.1
    refine ⟨t, u, w', run, issued, plain, rest, wave.trans ?_, others, here.trans (congrArg _ site_row.2.symm), elsewhere⟩
    split
    · next hc => rw [hc]; rfl
    · rfl

end

/-! Lateness (R48, R309): RANK counts the clusters of a die that come before in the order of the sums. -/

namespace Sys2Proof.Machine

/-- RANK: how many of a die's clusters come before, of the greater sum or of the same and lower. -/
def lateRank (f : Nat → Nat) (c : Nat) : Nat := (List.range 8).countP (fun d => decide (f c < f d ∨ (f c = f d ∧ d < c)))

theorem countP_lt_countP {α : Type} {p q : α → Bool} {l : List α} {a : α} (h : ∀ x ∈ l, p x = true → q x = true) (ha : a ∈ l)
    (hp : p a = false) (hq : q a = true) : l.countP p < l.countP q := by
  induction l with
  | nil => simp at ha
  | cons x t ih =>
    have rest := List.countP_mono_left (fun y hy => h y (List.mem_cons_of_mem _ hy))
    have head := h x (List.mem_cons_self ..)
    simp only [List.countP_cons]
    rcases List.mem_cons.1 ha with rfl | ha
    · simp only [hp, hq, if_true, Bool.false_eq_true, if_false]
      omega
    · have := ih (fun y hy => h y (List.mem_cons_of_mem _ hy)) ha
      split
      · rw [if_pos (head ‹_›)]; omega
      · omega

/-- A cluster that comes before another has the lower rank. -/
theorem lateRank_lt {f : Nat → Nat} {c d : Nat} (hd : d < 8) (h : f c < f d ∨ (f c = f d ∧ d < c)) : lateRank f d < lateRank f c := by
  refine countP_lt_countP (a := d) (fun e _ he => ?_) (List.mem_range.2 hd) (by simp) (by simpa using h)
  simp only [decide_eq_true_eq] at he ⊢
  omega

/-- No two clusters of a die have one rank. -/
theorem lateRank_ne {f : Nat → Nat} {c d : Nat} (hc : c < 8) (hd : d < 8) (h : c ≠ d) : lateRank f c ≠ lateRank f d := by
  have order : (f c < f d ∨ (f c = f d ∧ d < c)) ∨ (f d < f c ∨ (f d = f c ∧ c < d)) := by omega
  rcases order with before | before
  · exact (lateRank_lt hd before).ne'
  · exact (lateRank_lt hc before).ne

/-- A cluster of a die with a term entered. -/
def State.lated (s : State) (die : Nat) (term : Nat → Nat) (c : Nat) : Cluster :=
  { s.cluster (8 * die + c) with
    late := (term (8 * die + c) :: (s.cluster (8 * die + c)).late).take 4
    lateSum := min 0xFFFF ((term (8 * die + c) :: (s.cluster (8 * die + c)).late).take 4).sum }

section
variable {s : State} {die c n : Nat} {term : Nat → Nat}

theorem lateSumOf_eq (l : List Nat) : lateSumOf l = min 0xFFFF l.sum := by
  rw [lateSumOf, List.sum_eq_foldl]

/-- A cluster of the die has its term and its rank. -/
theorem State.noteLate_cluster (hd : die < 8) (hlen : s.clusters.length = 64) (hc : c < 8) :
    (s.noteLate die term).cluster (8 * die + c)
      = { s.lated die term c with rank := lateRank (fun d => (s.lated die term d).lateSum) c } := by
  have hn : 8 * die + c < s.clusters.length := by omega
  have hdiv : (8 * die + c) / 8 = die := by omega
  have hmod : (8 * die + c) % 8 = c := by omega
  unfold State.noteLate State.cluster
  extract_lets cs sums rankOf moved
  have lated (e : Nat) (x : Cluster) (he : e < 8) : cs.getD e x = s.lated die term e := by
    unfold cs
    simp [he, State.lated, lateSumOf_eq, State.cluster]
  have sum (e : Nat) (he : e < 8) : sums.getD e 0 = (s.lated die term e).lateSum := by
    unfold sums cs
    simp [he, State.lated, lateSumOf_eq, State.cluster]
  have rank : rankOf c = lateRank (fun d => (s.lated die term d).lateSum) c := by
    unfold rankOf lateRank
    rw [← List.countP_eq_length_filter]
    refine List.countP_congr fun e he => ?_
    simp only [sum c hc, sum e (List.mem_range.1 he), Bool.or_eq_true, Bool.and_eq_true, beq_iff_eq, decide_eq_true_eq,
      eq_comm (a := (s.lated die term e).lateSum)]
  rw [getD_map_zipIdx, if_pos hn, if_pos hdiv, hmod, rank, lated _ _ hc]

/-- A cluster of another die is as it was. -/
theorem State.noteLate_elsewhere (hn : n / 8 ≠ die) : (s.noteLate die term).cluster n = s.cluster n := by
  simp only [State.noteLate, State.cluster, getD_map_zipIdx, hn, if_false]
  split
  · rfl
  · next h => exact (List.getD_eq_default _ _ (Nat.not_lt.1 h)).symm

end

end Sys2Proof.Machine

section
open Sys2Proof Sys2Proof.Machine

/-- Settles O32: each cluster of the die has its term, its saturated sum and the number of clusters before it. -/
theorem latenessRanks : Obligations.LatenessRanks := by
  unfold Obligations.LatenessRanks
  intro s die term hd hlen
  extract_lets t
  have here (c : Nat) (hc : c < 8) := s.noteLate_cluster (term := term) hd hlen hc
  refine ⟨fun c hc => ?_, fun c d hc hd' h => ?_, fun n hn => State.noteLate_elsewhere hn⟩
  · extract_lets x y
    have hx : x = _ := here c hc
    rw [hx]
    refine ⟨rfl, rfl, ?_, rfl⟩
    refine List.countP_congr fun d hd' => ?_
    rw [here d (List.mem_range.1 hd')]
  · rw [here c hc, here d hd']
    exact lateRank_ne (f := fun d => (s.lated die term d).lateSum) hc hd' h

end

/-! Two words of one cycle (R42) on a register table that is not in its canonical form: the merge of the two results sorts the table, and a
register that its reading did not reach before is reached after. -/

namespace Sys2Proof.Machine

/-- The word of an IADD that discards its result. -/
def discardWord : Word64 := (encode (.iadd .always .zero .zero .zero .wrap)).getD 0

/-- The clause of the one word that a path of the lanes `m` is about to issue. -/
def discardClause (pc : Word64) : Clause := { addr := pc, head := plainHeader, words := [discardWord], idx := 0 }

def discardPath (m : LaneMask) (pc : Word64) : Path := { Path.at m pc with slot := true, clause := some (discardClause pc) }

/-- A wave of two paths. Its table of lane registers lists `v8` of lane 16 before `v0` of lane 5, so that a look-up of the latter stops
at the former. -/
def unsortedWave : Wave :=
  { fetchWave 0 with
    rf := { RegFile.zero with v := [(32 * 8 + 16, 1), (5, 7)] }
    paths := [discardPath 0x0000FFFF 0x1000, discardPath 0xFFFF0000 0x2000] }

/-- Its two paths issue in one cycle. -/
def unsortedTable : State := { State.reset.withWord 0 with waves := [unsortedWave], schedule := [.both 6 0 16] }

/-- The issues of its two paths. -/
def lowIssue : Issue := ⟨unsortedWave, discardPath 0x0000FFFF 0x1000, discardClause 0x1000⟩
def highIssue : Issue := ⟨unsortedWave, discardPath 0xFFFF0000 0x2000, discardClause 0x2000⟩

/-- The machine as the path that holds lane `l` is tried. -/
def unsortedAt (l : Nat) : State := { unsortedTable with schedule := [], cur := some (6, l) }

/-- A word of the wave may issue: it has no copy, walk, mark, token or access. -/
theorem unsorted_ready {i : Issue} {l : Nat} (hw : i.w = unsortedWave) (hi : (unsortedAt l).issue? = some i) (regs held : List RegId) :
    Ready (unsortedAt l) i false regs held := by
  obtain ⟨_, p, c⟩ := i
  subst hw
  have alone : ¬ unsortedWave.behind = true := by decide
  have unhitched : (unsortedAt l).hitchedAt unsortedWave.core = false := by rfl
  exact ⟨⟨hi, rfl, List.forall_mem_nil _, List.forall_mem_nil _, List.forall_mem_nil _, List.forall_mem_nil _,
    fun _ _ => BitVec.getLsbD_zero, fun h => absurd h alone, nofun, rfl⟩, unhitched⟩

theorem discardWord_decodes : decode unsortedWave.env discardWord = .ok (.iadd .always .zero .zero .zero .wrap) := by decide

/-- A lane register of the wave after a meaning. -/
def vregAfter (o : Out State) (r l : Nat) : Option Word :=
  match o with
  | .next t => (t.wave? 6).map (fun w => w.rf.vreg r l)
  | _ => none

theorem unsortedWave_vreg : unsortedWave.rf.vreg 0 5 = 0 := by decide

theorem unsortedTable_vreg : vregAfter (step unsortedTable) 0 5 = some 7 := by decide

end Sys2Proof.Machine

section
open Sys2Proof Sys2Proof.Machine

/-- Refutes O56: the statement asks nothing of the table of lane registers, not even that its keys rise. Where they do not, two words of
one cycle that write nothing still merge the table into one whose keys rise, and a register that read 0 reads 7. -/
theorem not_stepRuns : ¬ Obligations.StepRuns := by
  unfold Obligations.StepRuns
  rintro ⟨-, both⟩
  obtain ⟨t, w, hstep, wave, vregs, -⟩ := both unsortedTable lowIssue highIssue 0 16 .always .always .zero .zero .zero .zero .zero .zero []
    (.inl rfl) rfl (by decide) (by decide) (by decide) (by decide) (unsorted_ready rfl rfl _ _) rfl rfl rfl rfl discardWord_decodes
    (unsorted_ready rfl rfl _ _) rfl rfl rfl rfl discardWord_decodes rfl rfl ⟨rfl, rfl, rfl⟩ ⟨rfl, rfl, rfl⟩
  have kept : w.rf.vreg 0 5 = unsortedWave.rf.vreg 0 5 := vregs 0 5 (by decide)
  have after := unsortedTable_vreg
  rw [hstep] at after
  change (t.wave? lowIssue.w.uid).map _ = _ at after
  rw [wave, Option.map_some, kept, unsortedWave_vreg] at after
  exact absurd after (by decide)

end

/-! The debugger's mailbox (R421): a command that is written to a free mailbox runs, and is answered. -/

namespace Sys2Proof.Machine

/-- The machine with another mailbox. -/
def State.withMail (s : State) (m : Mailbox) : State := { s with mail := m }

/-- The command `ins` runs as `f`, on the machine whose mailbox has taken it: its count of answers and its data window are as they were. -/
def State.debugs (s : State) (ins : Instr) (f : State → State) : Prop :=
  ∃ m : Mailbox, m.seq = s.mail.seq ∧ m.data = s.mail.data ∧ exec ins s = .next (f (s.withMail m))

/-- The command that the machine `s` has taken is answered in `t`. -/
def State.answered (s t : State) (r : Nat) : Prop :=
  t.mail.cmd = .none ∧ t.mail.seq = (s.mail.seq + 1) % 65536 ∧ t.mail.result = r ∧ t.mem = s.mem

/-- The command is refused with a result, and does nothing else. -/
def State.refuses (s : State) (ins : Instr) (r : Nat) : Prop :=
  ∃ t, exec ins s = .next t ∧ s.answered t r ∧ t.waves = s.waves ∧ t.mail.data = s.mail.data

section
variable {s : State} {ins : Instr} {f : State → State} {d : DbgTarget} {m : LaneMask} {v : Word} {r : Nat}

theorem State.answered_dbgAnswer {t : State} (hseq : t.mail.seq = s.mail.seq) (hmem : t.mem = s.mem) : s.answered (t.dbgAnswer r) r :=
  ⟨rfl, congrArg (fun n => (n + 1) % 65536) hseq, rfl, hmem⟩

/-- An answer with data. -/
theorem State.answered_data {m : Mailbox} {data : Map Byte} (hseq : m.seq = s.mail.seq) :
    s.answered (((s.withMail m).withMail { m with data := data }).dbgAnswer r) r := State.answered_dbgAnswer hseq rfl

theorem State.data_answered {m : Mailbox} {data : Map Byte} :
    (((s.withMail m).withMail { m with data := data }).dbgAnswer r).mail.data = data := rfl

theorem State.debugs.refuses (h : s.debugs ins f) (hf : ∀ m, f (s.withMail m) = (s.withMail m).dbgAnswer r) : s.refuses ins r := by
  obtain ⟨m, seq, data, run⟩ := h
  exact ⟨_, run.trans (congrArg _ (hf m)), State.answered_dbgAnswer seq rfl, rfl, data⟩

/-- A command with the mailbox free. -/
theorem State.debugs_of_free {op : Nat} {set : Mailbox → Mailbox} (hr : s.pins.reset = false) (hc : s.mail.cmd = .none)
    (hx : exec ins s = .next (s.dbgCommand op set f)) (hseq : (set s.mail).seq = s.mail.seq) (hdata : (set s.mail).data = s.mail.data) :
    s.debugs ins f := by
  refine ⟨{ set s.mail with cmd := some (BitVec.ofNat 32 op) }, hseq, hdata, hx.trans ?_⟩
  simp only [State.dbgCommand, hr, hc, Bool.false_eq_true, if_false]
  rfl

section
variable (hr : s.pins.reset = false) (hc : s.mail.cmd = none)
include hr hc

theorem debugs_resume : s.debugs (.resume d m) (fun t => t.dbgResume d.num m) := State.debugs_of_free hr hc rfl rfl rfl
theorem debugs_step : s.debugs (.step d m) (fun t => t.dbgStep d.num m) := State.debugs_of_free hr hc rfl rfl rfl
theorem debugs_stop : s.debugs (.stop d) (fun t => t.dbgStop d.kind d.num) := State.debugs_of_free hr hc rfl rfl rfl
theorem debugs_readV : s.debugs (.readV d v) (fun t => t.dbgReadV d.num v) := State.debugs_of_free hr hc rfl rfl rfl
theorem debugs_writeV : s.debugs (.writeV d v) (fun t => t.dbgWriteV d.num v) := State.debugs_of_free hr hc rfl rfl rfl
theorem debugs_readCtl : s.debugs (.readCtl d) (fun t => t.dbgReadCtl d.num) := State.debugs_of_free hr hc rfl rfl rfl
theorem debugs_writeCtl : s.debugs (.writeCtl d) (fun t => t.dbgWriteCtl d.num) := State.debugs_of_free hr hc rfl rfl rfl

end

/-- A target that is no wave is refused with 2. -/
theorem refuses_no_wave (hr : s.pins.reset = false) (hc : s.mail.cmd = none) (hw : s.dbgWave d.num = none) :
    ∀ ins ∈ ([.resume d m, .step d m, .stop d, .readV d v, .writeV d v, .readCtl d, .writeCtl d] : List Instr), s.refuses ins 2 := by
  have absent (m : Mailbox) : (s.withMail m).dbgWave d.num = none := hw
  simp only [List.mem_cons, List.not_mem_nil, or_false, forall_eq_or_imp, forall_eq]
  exact ⟨(debugs_resume hr hc).refuses fun m => by simp only [State.dbgResume, absent],
    (debugs_step hr hc).refuses fun m => by simp only [State.dbgStep, absent],
    (debugs_stop hr hc).refuses fun m => by simp only [State.dbgStop, absent],
    (debugs_readV hr hc).refuses fun m => by simp only [State.dbgReadV, absent],
    (debugs_writeV hr hc).refuses fun m => by simp only [State.dbgWriteV, absent],
    (debugs_readCtl hr hc).refuses fun m => by simp only [State.dbgReadCtl, absent],
    (debugs_writeCtl hr hc).refuses fun m => by simp only [State.dbgWriteCtl, absent]⟩

/-- A command behind another of a different operation is discarded and counted (R404). -/
theorem State.dbgCommand_behind {op : Nat} {set : Mailbox → Mailbox} {c : Word} (hr : s.pins.reset = false) (hc : s.mail.cmd = some c)
    (hop : c.toNat % 16 ≠ op) : s.dbgCommand op set f = s.count 8 0x78 := by
  simp [State.dbgCommand, hr, hc, hop, State.mailDiscard]

/-- A hub counter after an event of it. -/
theorem State.get_count_hub (off : Nat) : Map.get 0 (s.count 8 off).hub.counters off = Map.get 0 s.hub.counters off + 1 := by
  simp [State.count, Map.get_put]

end

/-! Stopping, stepping and letting go (R289, R390, R421). -/

section
variable {s : State} {w : Wave} {num : Nat} {m : LaneMask}

/-- Every path of the wave is at a debugger's stop. -/
def Wave.stopped (w : Wave) : Prop := ∀ p ∈ w.paths, p.dbg = true

theorem Wave.allStopped_iff : w.allStopped = true ↔ w.stopped := List.all_eq_true

/-- The lanes of a mask are at a debugger's stop. -/
def Wave.holds (w : Wave) (m : LaneMask) : Prop :=
  ∀ l, l < 32 → m.getLsbD l = true → ∃ p ∈ w.paths, p.dbg = true ∧ p.lanes.getLsbD l = true

theorem Wave.lanesStopped_iff : w.lanesStopped m = true ↔ w.holds m := by
  simp [Wave.lanesStopped, Wave.holds, mem_lanesOf]

/-- The path stands free at a trap point, with lane `l`. -/
def Path.freeAt (l : Nat) (t : TrapPoint) (p : Path) : Prop := p.lanes.getLsbD l = true ∧ p.dbg = false ∧ p.trapPoint = t

/-- A path that is let go stands where it stood. -/
theorem Path.freed_eq (p : Path) (b : Bool) :
    (p.freed b).lanes = p.lanes ∧ (p.freed b).dbg = false ∧ (p.freed b).step = b ∧ (p.freed b).trapPoint = p.trapPoint := by
  unfold Path.freed
  split <;> exact ⟨rfl, rfl, rfl, rfl⟩

/-- Adding a path leaves one that is free at a point, be it joined to it (R278). -/
theorem addPath_keeps {l : Nat} {t : TrapPoint} (p : Path) {ps : List Path} (h : ∃ q ∈ ps, q.freeAt l t) :
    ∃ q ∈ addPath p ps, q.freeAt l t := by
  induction ps with
  | nil => simp at h
  | cons q ps ih =>
    unfold addPath
    split
    · obtain ⟨x, hx, lane, free, point⟩ := h
      rcases List.mem_cons.1 hx with rfl | hx
      · exact ⟨_, List.mem_cons_self .., by simp [lane], free, point⟩
      · exact ⟨x, List.mem_cons_of_mem _ hx, lane, free, point⟩
    · obtain ⟨x, hx, at_⟩ := h
      rcases List.mem_cons.1 hx with rfl | hx
      · exact ⟨x, List.mem_cons_self .., at_⟩
      · obtain ⟨y, hy, at_⟩ := ih ⟨x, hx, at_⟩
        exact ⟨y, List.mem_cons_of_mem _ hy, at_⟩

/-- Paths that are one stand at one trap point, and neither is stopped. -/
theorem Path.same_spec {p q : Path} (h : p.same q = true) : q.dbg = false ∧ q.trapPoint = p.trapPoint := by
  simp only [Path.same, Bool.and_eq_true, Bool.not_eq_true', Option.isNone_iff_eq_none, beq_iff_eq] at h
  simp [Path.trapPoint, h]

/-- A free path that is added stands among the paths. -/
theorem addPath_adds {l : Nat} {t : TrapPoint} {p : Path} (h : p.freeAt l t) (ps : List Path) : ∃ q ∈ addPath p ps, q.freeAt l t := by
  obtain ⟨lane, free, point⟩ := h
  induction ps with
  | nil =>
    have some_lane : p.lanes ≠ 0 := fun h0 => by simp [h0] at lane
    exact ⟨p, by rw [addPath, if_neg some_lane]; exact List.mem_singleton_self p, lane, free, point⟩
  | cons q ps ih =>
    unfold addPath
    split
    · next hs =>
      obtain ⟨free', point'⟩ := Path.same_spec hs
      exact ⟨_, List.mem_cons_self .., by simp [lane], free', point'.trans point⟩
    · obtain ⟨x, hx, at_⟩ := ih
      exact ⟨x, List.mem_cons_of_mem _ hx, at_⟩

theorem foldl_addPath {l : Nat} {t : TrapPoint} {p : Path} (h : p.freeAt l t) {new : List Path} (hp : p ∈ new) (ps : List Path) :
    ∃ q ∈ new.foldl (fun acc p => addPath p acc) ps, q.freeAt l t := by
  have keeps (new ps : List Path) (h : ∃ q ∈ ps, q.freeAt l t) : ∃ q ∈ new.foldl (fun acc p => addPath p acc) ps, q.freeAt l t := by
    induction new generalizing ps with
    | nil => exact h
    | cons q new ih => exact ih _ (addPath_keeps q h)
  induction new generalizing ps with
  | nil => simp at hp
  | cons q new ih =>
    rcases List.mem_cons.1 hp with rfl | hp
    · exact keeps new _ (addPath_adds h ps)
    · exact ih hp _

/-- The paths of the wave with the lanes of a mask let go. -/
def Wave.resumed (w : Wave) (m : LaneMask) : List Path :=
  ((w.paths.filter (fun p => p.lanes &&& m != 0)).map (fun (p : Path) => { p with lanes := p.lanes &&& m }.freed false)).foldl
    (fun acc p => addPath p acc)
    ((w.paths.map (fun (p : Path) => { p with lanes := p.lanes &&& ~~~m })).filter (fun p => p.lanes != 0))

/-- A named lane is on a free path, at the trap point it had. -/
theorem Wave.resumed_free {p : Path} {l : Nat} (hp : p ∈ w.paths) (hl : p.lanes.getLsbD l = true) (hm : m.getLsbD l = true) :
    ∃ q ∈ w.resumed m, q.freeAt l p.trapPoint := by
  obtain ⟨lanes, free, -, point⟩ := Path.freed_eq { p with lanes := p.lanes &&& m } false
  have both : (p.lanes &&& m).getLsbD l = true := by simp [hl, hm]
  have some_lane : (p.lanes &&& m != 0) = true := bne_iff_ne.2 fun h0 => by simp [h0] at both
  refine foldl_addPath (p := Path.freed { p with lanes := p.lanes &&& m } false) ⟨(congrArg (BitVec.getLsbD · l) lanes).trans both, free, point⟩
    (List.mem_map.2 ⟨p, List.mem_filter.2 ⟨hp, some_lane⟩, rfl⟩) _

theorem State.dbgResume_held (hw : s.dbgWave num = some w) (hh : w.holds m) (hu : s.wave? w.uid = some w) (ht : w.trap.pend = .none) :
    s.dbgResume num m = (s.putWave { w with paths := w.resumed m }).dbgAnswer 0 := by
  have calm : (s.putWave { w with paths := w.resumed m }).settleTrap w.uid = s.putWave { w with paths := w.resumed m } :=
    settleTrap_none (wave?_putWave_self s { w with paths := w.resumed m } w hu) ht
  simp only [State.dbgResume, hw, Wave.lanesStopped_iff.2 hh, Bool.not_true, Bool.false_eq_true, if_false]
  exact congrArg (fun t => t.dbgAnswer 0) calm

theorem State.dbgResume_free (hw : s.dbgWave num = some w) (hh : ¬ w.holds m) : s.dbgResume num m = s.dbgAnswer 1 := by
  have := mt Wave.lanesStopped_iff.1 hh
  simp [State.dbgResume, hw, this]

theorem State.dbgStep_free (hw : s.dbgWave num = some w) (hh : ¬ w.holds m) : s.dbgStep num m = s.dbgAnswer 1 := by
  have := mt Wave.lanesStopped_iff.1 hh
  simp only [State.dbgStep, hw]
  split
  · rfl
  · simp [this]

/-- The paths of the wave with one of them let go for a step. -/
def Wave.stepping (w : Wave) (p : Path) : List Path := w.paths.map (fun q => if q.lanes == p.lanes then q.freed true else q)

/-- That path stands free, at the trap point it had. -/
theorem Wave.stepping_path {p : Path} (hp : p ∈ w.paths) : ∃ q ∈ w.stepping p,
    q.lanes = p.lanes ∧ q.dbg = false ∧ q.step = true ∧ q.trapPoint = p.trapPoint :=
  ⟨p.freed true, List.mem_map.2 ⟨p, hp, by simp⟩, p.freed_eq true⟩

theorem State.dbgStep_held {p : Path} (hw : s.dbgWave num = some w) (hh : w.holds m)
    (hp : (lowestLane m).bind (fun l => w.paths.find? (fun q => q.dbg && q.lanes.getLsbD l)) = some p) :
    s.dbgStep num m = (s.putWave { w with paths := w.stepping p }).dbgAnswer 0 := by
  simp [State.dbgStep, hw, hp, Wave.lanesStopped_iff.2 hh, Wave.stepping]

end

end Sys2Proof.Machine
/-! STOP (R390, R421): each wave of the scope is asked, and stops where it may. -/

namespace Sys2Proof.Machine

section
variable {s t : State} {w x y : Wave} {num scope : Nat}


/-- What STOP leaves of a wave it names: its paths, and the wish to stop until they have. -/
structure Wave.stopping (x y : Wave) : Prop where
  kept : y = { x with paths := y.paths, dbgWant := y.dbgWant }
  asked : y.dbgWant = true ∨ y.stopped

/-- The wave with every path at the stop it was asked for. -/
def Wave.atStop (y : Wave) : Wave := { y with dbgWant := false, paths := y.paths.map (fun p => { p with dbg := true }) }

theorem State.settleDbg_others {u v : Nat} (h : v ≠ u) : (t.settleDbg u).wave? v = t.wave? v := by
  cases hu : t.wave? u with
  | none => simp [State.settleDbg, hu]
  | some y =>
    obtain ⟨_, moved⟩ := moved_settleDbg hu
    exact moved.others v h

theorem State.settleDbg_seq {u : Nat} : (t.settleDbg u).mail.seq = t.mail.seq := by
  unfold State.settleDbg
  split
  · rfl
  · split
    · rfl
    · split <;> rfl

/-- A wave that is asked stops or stays asked. -/
theorem State.settleDbg_stopping (hy : t.wave? x.uid = some y) (h : x.stopping y) :
    ∃ z, (t.settleDbg x.uid).wave? x.uid = some z ∧ x.stopping z := by
  have uid : y.uid = x.uid := wave?_uid _ _ _ hy
  unfold State.settleDbg
  simp only [hy]
  split
  · exact ⟨y, hy, h⟩
  · split
    · have put := wave?_putWave_self t y.atStop y (uid ▸ hy)
      refine ⟨y.atStop, Eq.trans (congrArg _ uid.symm) put, ?_, .inr ?_⟩
      · rw [Wave.atStop, h.kept]
      · simp [Wave.stopped, Wave.atStop]
    · exact ⟨y, hy, h⟩

theorem State.settleAll_others {us : List Wave} {v : Nat} (h : ∀ x ∈ us, x.uid ≠ v) :
    (us.foldl (fun (t : State) x => t.settleDbg x.uid) t).wave? v = t.wave? v := by
  induction us generalizing t with
  | nil => rfl
  | cons x us ih =>
    exact (ih fun y hy => h y (List.mem_cons_of_mem _ hy)).trans (State.settleDbg_others (h x List.mem_cons_self).symm)

theorem State.settleAll_seq {us : List Wave} : (us.foldl (fun (t : State) x => t.settleDbg x.uid) t).mail.seq = t.mail.seq :=
  List.foldlRecOn (motive := fun (u : State) => u.mail.seq = t.mail.seq) us _ rfl fun _ h _ _ => State.settleDbg_seq.trans h

theorem State.settleAll_stopping {us : List Wave} (hy : t.wave? x.uid = some y) (h : x.stopping y) :
    ∃ z, (us.foldl (fun (t : State) x => t.settleDbg x.uid) t).wave? x.uid = some z ∧ x.stopping z := by
  induction us generalizing t y with
  | nil => exact ⟨y, hy, h⟩
  | cons v us ih =>
    by_cases hv : v.uid = x.uid
    · obtain ⟨z, hz, asked⟩ := State.settleDbg_stopping hy h
      exact ih (hv ▸ hz) asked
    · exact ih ((State.settleDbg_others (Ne.symm hv)).trans hy) h

/-- Waves changed in place are found under their numbers. -/
theorem State.wave?_map {f : Wave → Wave} (hf : ∀ x, (f x).uid = x.uid) (u : Nat) :
    { s with waves := s.waves.map f }.wave? u = (s.wave? u).map f := by
  simp [State.wave?, List.find?_map, hf]

theorem State.wave?_of_nodup (h : (s.waves.map (fun x => x.uid)).Nodup) (hx : x ∈ s.waves) : s.wave? x.uid = some x := by
  cases hu : s.wave? x.uid with
  | none => exact absurd (List.find?_eq_none.1 hu x hx) (by simp)
  | some y => rw [eq_of_find?_key h hu hx rfl]

/-- A wave that STOP of a wave's scope asks to stop. -/
def Wave.selects (w : Wave) (scope : Nat) (x : Wave) : Bool :=
  x.live != 0 && x.post.isNone && !x.allStopped
    && ((scope == 0 && x.uid == w.uid) || (scope == 1 && x.gang == w.gang) || (scope == 2 && x.node == w.node))

theorem Wave.selects_iff : w.selects scope x = true ↔ x.live ≠ 0 ∧ x.post = none ∧ ¬ x.stopped
    ∧ ((scope = 0 ∧ x.uid = w.uid) ∨ (scope = 1 ∧ x.gang = w.gang) ∨ (scope = 2 ∧ x.node = w.node)) := by
  simp [Wave.selects, ← Wave.allStopped_iff, and_assoc, or_assoc]

/-- The wave is asked to stop if the scope names it. -/
def Wave.ask (w : Wave) (scope : Nat) (x : Wave) : Wave := if w.selects scope x then { x with dbgWant := true } else x

theorem Wave.ask_uid : (w.ask scope x).uid = x.uid := by
  unfold Wave.ask
  split <;> rfl

/-- STOP of a scope. -/
theorem State.dbgStop_eq (hw : s.dbgWave num = some w) (hk : scope < 3) : s.dbgStop scope num
    = ((s.waves.filter (w.selects scope)).foldl (fun (t : State) x => t.settleDbg x.uid)
        { s with waves := s.waves.map (w.ask scope) }).dbgAnswer 0 := by
  unfold State.dbgStop
  rw [hw]
  dsimp -zeta only
  extract_lets sel
  have same : sel = w.selects scope := by
    funext x
    have : scope = 0 ∨ scope = 1 ∨ scope = 2 := by omega
    rcases this with rfl | rfl | rfl <;> simp [sel, Wave.selects]
  rw [if_neg (Nat.not_le.2 hk), same]
  rfl

theorem State.dbgStop_no_scope (hw : s.dbgWave num = some w) (hk : 3 ≤ scope) : s.dbgStop scope num = s.dbgAnswer 4 := by
  simp [State.dbgStop, hw, hk]

/-- What STOP leaves of each wave. -/
theorem State.dbgStop_wave (hw : s.dbgWave num = some w) (hk : scope < 3) (hnd : (s.waves.map (fun x => x.uid)).Nodup) (hx : x ∈ s.waves) :
    ∃ y, (s.dbgStop scope num).wave? x.uid = some y ∧ if w.selects scope x = true then x.stopping y else y = x := by
  have found : { s with waves := s.waves.map (w.ask scope) }.wave? x.uid = some (w.ask scope x) := by
    rw [State.wave?_map (fun _ => Wave.ask_uid), State.wave?_of_nodup hnd hx, Option.map_some]
  rw [State.dbgStop_eq hw hk]
  by_cases hs : w.selects scope x = true
  · have asked : x.stopping (w.ask scope x) := by
      rw [Wave.ask, if_pos hs]
      exact ⟨rfl, .inl rfl⟩
    obtain ⟨z, hz, stops⟩ := State.settleAll_stopping (us := s.waves.filter (w.selects scope)) found asked
    exact ⟨z, hz, (if_pos hs).symm ▸ stops⟩
  · have alone : ∀ v ∈ s.waves.filter (w.selects scope), v.uid ≠ x.uid := fun v hv hu => by
      obtain ⟨hv, hsel⟩ := List.mem_filter.1 hv
      exact hs (List.inj_on_of_nodup_map hnd hv hx hu ▸ hsel)
    refine ⟨x, (State.settleAll_others alone).trans (found.trans ?_), (if_neg hs).symm ▸ rfl⟩
    rw [Wave.ask, if_neg hs]

theorem State.dbgStop_answered {m : Mailbox} (hw : s.dbgWave num = some w) (hk : scope < 3) (hm : m.seq = s.mail.seq) :
    s.answered ((s.withMail m).dbgStop scope num) 0 := by
  rw [State.dbgStop_eq (s := s.withMail m) hw hk]
  exact State.answered_dbgAnswer (State.settleAll_seq.trans hm) (foldl_mem (fun _ _ => State.settleDbg_mem ..) _ _)

end

end Sys2Proof.Machine
/-! The data window (R421): registers as bytes, and bytes as registers. -/

namespace Sys2Proof.Machine

theorem length_flatMap_range {f : Nat → List Byte} {w : Nat} (hf : ∀ j, (f j).length = w) (n : Nat) :
    ((List.range n).flatMap f).length = w * n := by
  simp [List.length_flatMap, hf, Nat.mul_comm]

/-- A byte of a row of bytes that are laid out in parts of one length. -/
theorem getD_flatMap_range {f : Nat → List Byte} {w n r k : Nat} (hf : ∀ j, (f j).length = w) (hr : r < n) (hk : k < w) :
    ((List.range n).flatMap f).getD (w * r + k) 0 = (f r).getD k 0 := by
  induction n with
  | zero => omega
  | succ n ih =>
    have before := length_flatMap_range hf n
    rw [List.range_succ, List.flatMap_append, List.flatMap_singleton]
    rcases Nat.lt_succ_iff_lt_or_eq.1 hr with h | rfl
    · have : w * r + k < w * n := by nlinarith
      rw [List.getD_append _ _ _ _ (before ▸ this)]
      exact ih h
    · rw [List.getD_append_right _ _ _ _ (by omega), before]
      congr 1
      omega

/-- Bytes that are put one by one. -/
theorem foldl_put_eq_putBytes (bs : List Byte) (m : Map Byte) (a k : Nat) :
    (bs.zipIdx k).foldl (fun m x => Map.put 0 m (a + x.2) x.1) m = putBytes m (a + k) bs := by
  induction bs generalizing m k with
  | nil => rfl
  | cons b t ih =>
    rw [List.zipIdx_cons, List.foldl_cons, ih]
    rfl

/-- A field of a list of bytes that are given one by one. -/
theorem field_map_range {n o k : Nat} {f : Nat → Byte} (h : o + k ≤ n) :
    field ((List.range n).map f) o k = ofBytes ((List.range k).map (fun j => f (o + j))) := by
  unfold field
  congr 1
  refine List.ext_getElem (by simp; omega) fun i _ _ => ?_
  simp

theorem Mailbox.bytes_congr {m m' : Mailbox} (h : m.data = m'.data) (n : Nat) : m.bytes n = m'.bytes n := by rw [Mailbox.bytes, h, Mailbox.bytes]

theorem Mailbox.bytes_length (m : Mailbox) (n : Nat) : (m.bytes n).length = n := by simp [Mailbox.bytes]

section
variable {s : State} {w : Wave} {rf : RegFile} {num first n a r l k : Nat} {arg : Word}

/-- Rows of registers as bytes (R421). -/
theorem RegFile.rows_getD (hr : r < n) (hl : l < 32) (hk : k < 4) :
    (rf.rows a n).getD (128 * r + 4 * l + k) 0 = (toBytes 4 (rf.vreg (a + r) l).toNat).getD k 0 := by
  have lanes (j : Nat) : ((List.range 32).flatMap fun l => toBytes 4 (rf.vreg (a + j) l).toNat).length = 128 :=
    length_flatMap_range (fun _ => toBytes_length ..) 32
  rw [RegFile.rows, Nat.add_assoc, getD_flatMap_range lanes hr (by omega), getD_flatMap_range (fun _ => toBytes_length ..) hl hk]

theorem RegFile.rows_length : (rf.rows a n).length = 128 * n :=
  length_flatMap_range (fun _ => length_flatMap_range (fun _ => toBytes_length ..) 32) n

/-- A file in which rows were loaded in the lanes of a mask: its lane registers, and what stays. -/
structure RegFile.loads (rf rf' : RegFile) (a n : Nat) (q : LaneMask) (f : Nat → Nat → Word) : Prop where
  regs : ∀ r l, l < 32 → rf'.vreg r l = if a ≤ r ∧ r < a + n ∧ q.getLsbD l = true then f (r - a) l else rf.vreg r l
  rest : rf' = { rf with v := rf'.v, bad := rf'.bad }
  errors : ∀ e ∈ rf'.bad, e ∈ rf.bad

theorem RegFile.loads_foldl (a n : Nat) (q : LaneMask) (f : Nat → Nat → Word) :
    rf.loads ((List.range n).foldl (fun r k => r.putV (a + k) q (f k)) rf) a n q f := by
  induction n with
  | zero => exact ⟨fun r l _ => by rw [if_neg (by omega)]; rfl, rfl, fun _ h => h⟩
  | succ n ih =>
    rw [List.range_succ, List.foldl_append, List.foldl_cons, List.foldl_nil]
    refine ⟨fun r l hl => ?_, ?_, fun e he => ih.errors e (List.mem_filter.1 he).1⟩
    · rw [vreg_putV _ _ _ _ _ _ hl, ih.regs r l hl]
      by_cases hr : r = a + n
      · subst hr
        by_cases hq : q.getLsbD l = true <;> simp [hq]
      · have same : r < a + (n + 1) ↔ r < a + n := by omega
        simp only [hr, false_and, if_false, same]
    · have rest := ih.rest
      generalize (List.range n).foldl (fun r k => r.putV (a + k) q (f k)) rf = rf' at rest ⊢
      rw [rest]
      rfl

/-- The file that bytes of the data window leave. -/
theorem Mailbox.loads_rows (m : Mailbox) (a n : Nat) (q : LaneMask) : rf.loads (rf.loadRows a q (m.bytes (128 * n))) a n q
    (fun r l => BitVec.ofNat 32 (field (m.bytes (128 * n)) (128 * r + 4 * l) 4)) := by
  have rows : (m.bytes (128 * n)).length / 128 = n := by rw [Mailbox.bytes_length]; omega
  rw [RegFile.loadRows, rows]
  exact RegFile.loads_foldl a n q _

/-- The range of READ_V and WRITE_V lies in the wave's budget. -/
def Wave.inRange (w : Wave) (arg : Word) : Prop :=
  1 ≤ arg.toNat / 256 % 32 ∧ arg.toNat / 256 % 32 ≤ 16 ∧ arg.toNat % 256 + arg.toNat / 256 % 32 ≤ w.budget

/-- No block of it is with the span. -/
def Wave.hasTokens (w : Wave) (arg : Word) : Prop :=
  ∀ k, arg.toNat % 256 ≤ k → k < arg.toNat % 256 + arg.toNat / 256 % 32 → w.spanHeld.getLsbD (k / 32) = false

theorem Wave.tokenBlocked_iff : w.tokenBlocked ((List.range n).map (fun k => RegId.v (first + k))) = false
    ↔ ∀ k, first ≤ k → k < first + n → w.spanHeld.getLsbD (k / 32) = false := by
  simp only [Wave.tokenBlocked, List.any_map, List.any_eq_false, List.mem_range, Function.comp_apply, Bool.not_eq_true]
  exact ⟨fun h k h1 h2 => by simpa [Nat.add_sub_cancel' h1] using h (k - first) (by omega), fun h k hk => h _ (by omega) (by omega)⟩

theorem Wave.dbgRange_unstopped (h : ¬ w.stopped) : w.dbgRange arg = .error 1 := by
  have := mt Wave.allStopped_iff.1 h
  simp [Wave.dbgRange, this]

theorem Wave.dbgRange_outside (h : w.stopped) (hr : ¬ w.inRange arg) : w.dbgRange arg = .error 3 := by
  have outside : (arg.toNat / 256 % 32 = 0 || 16 < arg.toNat / 256 % 32 || w.budget < arg.toNat % 256 + arg.toNat / 256 % 32) = true := by
    unfold Wave.inRange at hr
    simp only [Bool.or_eq_true, decide_eq_true_eq]
    omega
  simp only [Wave.dbgRange, Wave.allStopped_iff.2 h, outside, Bool.not_true, Bool.false_eq_true, if_false, if_true]

theorem Wave.dbgRange_inside (h : w.stopped) (hr : w.inRange arg) : w.dbgRange arg
    = if w.tokenBlocked ((List.range (arg.toNat / 256 % 32)).map (fun k => RegId.v (arg.toNat % 256 + k))) = true then .error 5
      else .ok (arg.toNat % 256, arg.toNat / 256 % 32) := by
  have inside : (arg.toNat / 256 % 32 = 0 || 16 < arg.toNat / 256 % 32 || w.budget < arg.toNat % 256 + arg.toNat / 256 % 32) = false := by
    unfold Wave.inRange at hr
    simp only [Bool.or_eq_false_iff, decide_eq_false_iff_not]
    omega
  simp only [Wave.dbgRange, Wave.allStopped_iff.2 h, inside, Bool.not_true, Bool.false_eq_true, if_false]

theorem Wave.dbgRange_spanned (h : w.stopped) (hr : w.inRange arg) (ht : ¬ w.hasTokens arg) : w.dbgRange arg = .error 5 := by
  rw [Wave.dbgRange_inside h hr, if_pos (by simpa using mt Wave.tokenBlocked_iff.1 ht)]

theorem Wave.dbgRange_ok (h : w.stopped) (hr : w.inRange arg) (ht : w.hasTokens arg) :
    w.dbgRange arg = .ok (arg.toNat % 256, arg.toNat / 256 % 32) := by
  rw [Wave.dbgRange_inside h hr, if_neg (by simp [Wave.tokenBlocked_iff.2 ht])]

theorem State.dbgReadV_refused {e : Nat} (hw : s.dbgWave num = some w) (h : w.dbgRange arg = .error e) : s.dbgReadV num arg = s.dbgAnswer e := by
  simp only [State.dbgReadV, hw, h]

theorem State.dbgWriteV_refused {e : Nat} (hw : s.dbgWave num = some w) (h : w.dbgRange arg = .error e) :
    s.dbgWriteV num arg = s.dbgAnswer e := by
  simp only [State.dbgWriteV, hw, h]

/-- READ_V puts the registers into the data window. -/
theorem State.dbgReadV_ok (hw : s.dbgWave num = some w) (h : w.dbgRange arg = .ok (first, n)) :
    s.dbgReadV num arg = (s.withMail { s.mail with data := putBytes s.mail.data 0 (w.rf.rows first n) }).dbgAnswer 0 := by
  have put := foldl_put_eq_putBytes (w.rf.rows first n) s.mail.data 0 0
  simp only [Nat.zero_add] at put
  simp only [State.dbgReadV, hw, h, put]
  rfl

/-- WRITE_V puts the data window into the registers. -/
theorem State.dbgWriteV_ok (hw : s.dbgWave num = some w) (h : w.dbgRange arg = .ok (first, n)) :
    s.dbgWriteV num arg = (s.putWave { w with rf := w.rf.loadRows first w.exist (s.mail.bytes (128 * n)) }).dbgAnswer 0 := by
  simp only [State.dbgWriteV, hw, h]

end

end Sys2Proof.Machine
/-! The control fields (R384, R385, R421): the points where lanes stand, as bytes and from bytes. -/

namespace Sys2Proof.Machine

/-- An entry after another is inserted or replaced. -/
theorem Map.find_ins {α : Type} (m : Map α) (n k : Nat) (x : α) : Map.find (Map.ins m n x) k = if k = n then some x else Map.find m k := by
  induction m with
  | nil => simp [Map.ins, Map.find, eq_comm]
  | cons e m ih =>
    obtain ⟨j, y⟩ := e
    simp only [Map.ins]
    split
    · simp [Map.find, eq_comm]
    · split
      · next h =>
        subst h
        by_cases hk : n = k <;> simp [Map.find, hk, eq_comm]
      · next h =>
        by_cases hj : j = k
        · subst hj
          simp [Map.find, Ne.symm h]
        · simp [Map.find, hj, ih]

/-- Entries inserted for some keys. -/
theorem Map.find_foldl_ins {α : Type} (ks : List Nat) (m : Map α) (f : Nat → α) (n : Nat) :
    Map.find (ks.foldl (fun m k => Map.ins m k (f k)) m) n = if n ∈ ks then some (f n) else Map.find m n := by
  induction ks generalizing m with
  | nil => simp
  | cons k t ih =>
    rw [List.foldl_cons, ih, Map.find_ins]
    by_cases hk : n = k
    · subst hk; simp
    · simp [hk]

theorem Map.mem_of_find {α : Type} {m : Map α} {n : Nat} {x : α} (h : Map.find m n = some x) : (n, x) ∈ m := by
  induction m with
  | nil => simp [Map.find] at h
  | cons e m ih =>
    obtain ⟨j, y⟩ := e
    by_cases hj : j = n
    · simp only [Map.find, hj, if_true, Option.some.injEq] at h
      simp [hj, h]
    · simp only [Map.find, hj, if_false] at h
      exact List.mem_cons_of_mem _ (ih h)

/-- A lane that one path alone holds has that path's trap point. -/
theorem find_trapPoints {ps : List Path} {p : Path} {l : Nat} (hp : p ∈ ps) (hl : p.lanes.getLsbD l = true) (h32 : l < 32)
    (h : ∀ q ∈ ps, q.lanes.getLsbD l = true → q = p) : Map.find (trapPoints ps) l = some p.trapPoint := by
  have fold (qs : List Path) (m : Map TrapPoint) (hq : ∀ q ∈ qs, q.lanes.getLsbD l = true → q = p)
      (hm : p ∈ qs ∨ Map.find m l = some p.trapPoint) :
      Map.find (qs.foldl (fun m p => (lanesOf p.lanes).foldl (fun m l => Map.ins m l p.trapPoint) m) m) l = some p.trapPoint := by
    induction qs generalizing m with
    | nil => simpa using hm
    | cons q qs ih =>
      refine ih _ (fun x hx => hq x (List.mem_cons_of_mem _ hx)) ?_
      rw [Map.find_foldl_ins]
      by_cases hql : q.lanes.getLsbD l = true
      · rw [if_pos ((mem_lanesOf _ _).2 ⟨h32, hql⟩), hq q List.mem_cons_self hql]
        exact .inr rfl
      · rw [if_neg (fun h => hql ((mem_lanesOf _ _).1 h).2)]
        refine hm.imp_left fun h => (List.mem_cons.1 h).resolve_left fun e => hql (by rwa [← e])
  exact fold ps [] h (.inl hp)

/-- Paths made of points hold each lane at its point. -/
theorem pointPaths_lane {m : Map TrapPoint} {l : Nat} {t : TrapPoint} (hl : l < 32) (h : Map.find m l = some t) :
    ∃ p ∈ pointPaths m, p.lanes.getLsbD l = true ∧ p.pc = t.hdr ∧ p.entry = t.idx ∧ p.clause = none := by
  refine ⟨t.path (maskOf (fun l => Map.find m l == some t)), List.mem_map.2 ⟨t, ?_, rfl⟩, ?_, rfl, rfl, rfl⟩
  · exact List.mem_eraseDups.2 (List.mem_map.2 ⟨_, Map.mem_of_find h, rfl⟩)
  · exact (getLsbD_maskOf _ l).trans (by simp [hl, h])

section
variable {s : State} {w : Wave} {num l r k : Nat} {b : List Byte} {pts : Map TrapPoint}

/-- The 48 scalar registers as bytes. -/
def RegFile.scalarBytes (rf : RegFile) : List Byte := (List.range 48).flatMap (fun n => toBytes 4 (rf.sreg n).toNat)

/-- The layout of the fields that SAVEW.C names. -/
theorem Wave.ctlParts_eq (w : Wave) (pts : Map TrapPoint) : ∃ time lanes rest, time.length = 4 ∧ lanes.length = 32
    ∧ w.ctlParts pts = [(0, toBytes 4 w.infoLow ++ toBytes 4 w.rf.fpstat.toNat), (0x14, time),
        (0x20, w.rf.scalarBytes ++ lanes ++ pointBytes pts), (0x340, rest)] :=
  ⟨_, _, _, toBytes_length .., length_flatMap_range (fun _ => toBytes_length ..) 32, rfl⟩

theorem RegFile.scalarBytes_length (rf : RegFile) : rf.scalarBytes.length = 192 := length_flatMap_range (fun _ => toBytes_length ..) 48

/-- The header of a lane's point. -/
theorem pointBytes_getD {t : TrapPoint} (hl : l < 32) (hk : k < 8) (h : Map.find pts l = some t) :
    (pointBytes pts).getD (32 + (8 * l + k)) 0 = (toBytes 8 t.hdr.toNat).getD k 0 := by
  rw [pointBytes, List.getD_append_right _ _ _ _ (by rw [length_flatMap_range (fun _ => toBytes_length ..)]; omega),
    length_flatMap_range (fun _ => toBytes_length ..), Nat.add_sub_cancel_left, getD_flatMap_range (fun _ => toBytes_length ..) hl hk]
  dsimp only
  rw [h]
  rfl

theorem pointBytes_length (pts : Map TrapPoint) : (pointBytes pts).length = 288 := by
  rw [pointBytes, List.length_append, length_flatMap_range (fun _ => toBytes_length ..), length_flatMap_range (fun _ => toBytes_length ..)]

/-- The data window after READ_CTL. -/
def Wave.ctlData (w : Wave) (m : Map Byte) : Map Byte :=
  (w.ctlParts (trapPoints w.paths)).foldl (fun m x => putBytes m x.1 x.2) m

theorem State.dbgReadCtl_ok (hw : s.dbgWave num = some w) (h : w.stopped) :
    s.dbgReadCtl num = (s.withMail { s.mail with data := w.ctlData s.mail.data }).dbgAnswer 0 := by
  have put (x : Nat × List Byte) (m : Map Byte) := foldl_put_eq_putBytes x.2 m x.1 0
  simp only [Nat.add_zero] at put
  simp only [State.dbgReadCtl, hw, Wave.allStopped_iff.2 h, Bool.not_true, Bool.false_eq_true, if_false, put]
  rfl

theorem State.dbgReadCtl_unstopped (hw : s.dbgWave num = some w) (h : ¬ w.stopped) : s.dbgReadCtl num = s.dbgAnswer 1 := by
  have := mt Wave.allStopped_iff.1 h
  simp [State.dbgReadCtl, hw, this]

theorem State.dbgWriteCtl_unstopped (hw : s.dbgWave num = some w) (h : ¬ w.stopped) : s.dbgWriteCtl num = s.dbgAnswer 1 := by
  have := mt Wave.allStopped_iff.1 h
  simp [State.dbgWriteCtl, hw, this]

theorem State.dbgWriteCtl_bad (hw : s.dbgWave num = some w) (h : w.stopped) (hm : s.mail.bytes 0x600 = b) (hb : ctlBad b = true) :
    s.dbgWriteCtl num = s.dbgAnswer 6 := by
  simp only [State.dbgWriteCtl, hw, Wave.allStopped_iff.2 h, hm, hb, Bool.not_true, Bool.false_eq_true, if_false, if_true]

/-- What the data window holds after READ_CTL, of FPSTAT and of the part that begins at the scalar registers. -/
theorem Wave.ctlData_get (w : Wave) (m : Map Byte) : ∃ lanes, lanes.length = 32
    ∧ (∀ k, k < 4 → Map.get 0 (w.ctlData m) (4 + k) = (toBytes 4 w.rf.fpstat.toNat).getD k 0)
    ∧ ∀ k, k < 512 → Map.get 0 (w.ctlData m) (0x20 + k) = (w.rf.scalarBytes ++ lanes ++ pointBytes (trapPoints w.paths)).getD k 0 := by
  obtain ⟨time, lanes, rest, htime, hlanes, parts⟩ := w.ctlParts_eq (trapPoints w.paths)
  have first : (toBytes 4 w.infoLow ++ toBytes 4 w.rf.fpstat.toNat).length = 8 := by simp [toBytes_length]
  have main : (w.rf.scalarBytes ++ lanes ++ pointBytes (trapPoints w.paths)).length = 512 := by
    simp [RegFile.scalarBytes_length, hlanes, pointBytes_length]
  have read (x : Nat) (hx : x < 0x340) : Map.get 0 (w.ctlData m) x
      = if 0x20 ≤ x ∧ x < 0x20 + 512 then (w.rf.scalarBytes ++ lanes ++ pointBytes (trapPoints w.paths)).getD (x - 0x20) 0
        else if 0x14 ≤ x ∧ x < 0x14 + 4 then time.getD (x - 0x14) 0
        else if 0 ≤ x ∧ x < 0 + 8 then (toBytes 4 w.infoLow ++ toBytes 4 w.rf.fpstat.toNat).getD (x - 0) 0 else Map.get 0 m x := by
    rw [Wave.ctlData, parts]
    simp only [List.foldl_cons, List.foldl_nil]
    refine (get_putBytes ..).trans ((if_neg (by omega)).trans ((get_putBytes ..).trans ?_))
    rw [main]
    refine if_congr Iff.rfl rfl ((get_putBytes ..).trans ?_)
    rw [htime]
    refine if_congr Iff.rfl rfl ((get_putBytes ..).trans ?_)
    rw [first]
    rfl
  refine ⟨lanes, hlanes, fun k hk => ?_, fun k hk => ?_⟩
  · rw [read _ (by omega), if_neg (by omega), if_neg (by omega), if_pos (by omega),
      List.getD_append_right _ _ _ _ (by rw [toBytes_length]; omega), toBytes_length]
    congr 1
    omega
  · rw [read _ (by omega), if_pos (by omega), Nat.add_sub_cancel_left]

theorem Wave.ctlData_sreg (w : Wave) (m : Map Byte) (hr : r < 48) (hk : k < 4) :
    Map.get 0 (w.ctlData m) (0x20 + 4 * r + k) = (toBytes 4 (w.rf.sreg r).toNat).getD k 0 := by
  obtain ⟨lanes, -, -, main⟩ := w.ctlData_get m
  rw [Nat.add_assoc, main _ (by omega), List.append_assoc, List.getD_append _ _ _ _ (by rw [RegFile.scalarBytes_length]; omega)]
  exact getD_flatMap_range (fun _ => toBytes_length ..) hr hk

theorem Wave.ctlData_point {t : TrapPoint} (w : Wave) (m : Map Byte) (hl : l < 32) (hk : k < 8)
    (h : Map.find (trapPoints w.paths) l = some t) : Map.get 0 (w.ctlData m) (0x120 + 8 * l + k) = (toBytes 8 t.hdr.toNat).getD k 0 := by
  obtain ⟨lanes, hlanes, -, main⟩ := w.ctlData_get m
  have place : 0x120 + 8 * l + k = 0x20 + (224 + (32 + (8 * l + k))) := by omega
  have before : (w.rf.scalarBytes ++ lanes).length = 224 := by simp [RegFile.scalarBytes_length, hlanes]
  rw [place, main _ (by omega), List.getD_append_right _ _ _ _ (by omega), before, Nat.add_sub_cancel_left]
  exact pointBytes_getD hl hk h

/-- No live lane is marked EXITED: none leaves the wave. -/
theorem Wave.exitMarked_none (h : ∀ l, l < 32 → w.live.getLsbD l = true → field b (0xE0 + l) 1 < 128) : w.exitMarked b = w := by
  have none_gone : maskOf (fun l => w.live.getLsbD l && decide (128 ≤ field b (0xE0 + l) 1)) = 0 := by
    refine BitVec.eq_of_getLsbD_eq fun l hl => ?_
    rw [getLsbD_maskOf]
    by_cases live : w.live.getLsbD l = true
    · have := h l hl live
      simp [Nat.not_le.2 this]
    · simp [live]
  rw [Wave.exitMarked, none_gone]
  rfl

/-- What WRITE_CTL loads where no lane leaves. -/
theorem Wave.loadCtl_live (h : ∀ l, l < 32 → w.live.getLsbD l = true → field b (0xE0 + l) 1 < 128) :
    (w.loadCtl b).rf = ctlRegsOf b w.exist w.rf ∧ (w.loadCtl b).live = w.live ∧ (w.loadCtl b).uid = w.uid := by
  simp only [Wave.live] at h
  unfold Wave.loadCtl
  rw [Wave.exitMarked_none]
  · simp only [Wave.live, and_self]
  · simp only [Wave.live]
    exact h

/-- A lane's point in a control area. -/
theorem find_ctlPoints {m : LaneMask} (hl : l < 32) (hm : m.getLsbD l = true) : Map.find (ctlPoints b m) l
    = some { hdr := BitVec.ofNat 64 (field b (0x120 + 8 * l) 8), idx := field b (0x100 + l) 1 % 16
             waitOnly := field b (0x100 + l) 1 / 16 % 2 == 1 } :=
  (Map.find_foldl_ins _ _ _ l).trans (if_pos ((mem_lanesOf m l).2 ⟨hl, hm⟩))

/-- The scalar registers of a control area. -/
theorem ctlRegsOf_sreg {exist : LaneMask} {rf : RegFile} (hr : r < 48) :
    (ctlRegsOf b exist rf).sreg r = BitVec.ofNat 32 (field b (0x20 + 4 * r) 4) := by
  simp only [RegFile.sreg, ctlRegsOf, Map.get_foldl_put, List.mem_range, hr, if_true]

theorem ctlRegsOf_fpstat {exist : LaneMask} {rf : RegFile} : (ctlRegsOf b exist rf).fpstat = BitVec.ofNat 6 (field b 4 4) := by
  simp only [ctlRegsOf]

theorem ctlRegsOf_v {exist : LaneMask} {rf : RegFile} : (ctlRegsOf b exist rf).v = rf.v := by
  simp only [ctlRegsOf]

theorem State.settleOver_live (hw : s.wave? w.uid = some w) (hl : w.live ≠ 0) : s.settleOver w.uid = s := by
  have live : (w.live == 0) = false := beq_eq_false_iff_ne.2 hl
  simp only [State.settleOver, hw, State.over, live, Bool.false_and, Bool.false_eq_true, if_false]

/-- The wave that WRITE_CTL leaves: its registers and points loaded, its lanes stopped at the points. -/
def Wave.loaded (w : Wave) (b : List Byte) : Wave :=
  { w.loadCtl b with paths := (pointPaths (ctlPoints b (w.loadCtl b).live)).map (fun (p : Path) => { p with dbg := true }) }

theorem State.dbgWriteCtl_ok (hw : s.dbgWave num = some w) (hu : s.wave? w.uid = some w) (h : w.stopped) (hm : s.mail.bytes 0x600 = b)
    (hb : ctlBad b = false) (hl : w.live ≠ 0) (hexit : ∀ l, l < 32 → w.live.getLsbD l = true → field b (0xE0 + l) 1 < 128) :
    s.dbgWriteCtl num = (s.putWave (w.loaded b)).dbgAnswer 0 ∧ (s.putWave (w.loaded b)).wave? w.uid = some (w.loaded b) := by
  obtain ⟨-, live, uid⟩ := Wave.loadCtl_live hexit
  have uid' : (w.loaded b).uid = w.uid := uid
  have put := wave?_putWave_self s (w.loaded b) w (uid' ▸ hu)
  have live' : (w.loaded b).live ≠ 0 := fun h0 => hl (live ▸ h0)
  have settled := State.settleOver_live put live'
  rw [uid'] at put settled
  refine ⟨?_, put⟩
  simp only [State.dbgWriteCtl, hw, Wave.allStopped_iff.2 h, hm, hb, Bool.not_true, Bool.false_eq_true, if_false]
  exact congrArg (fun t => t.dbgAnswer 0) settled

theorem Wave.loaded_stopped (w : Wave) (b : List Byte) : (w.loaded b).stopped := by
  simp [Wave.stopped, Wave.loaded]

/-- Each live lane stands at its point of the control area. -/
theorem Wave.loaded_lane (h : ∀ l, l < 32 → w.live.getLsbD l = true → field b (0xE0 + l) 1 < 128) (hl : l < 32)
    (hlive : w.live.getLsbD l = true) : ∃ p ∈ (w.loaded b).paths, p.lanes.getLsbD l = true
      ∧ p.pc = BitVec.ofNat 64 (field b (0x120 + 8 * l) 8) ∧ p.entry = field b (0x100 + l) 1 % 16 ∧ p.clause = none := by
  obtain ⟨-, live, -⟩ := Wave.loadCtl_live h
  obtain ⟨p, hp, lane, pc, entry, clause⟩ := pointPaths_lane hl (find_ctlPoints (b := b) hl (live.symm ▸ hlive))
  exact ⟨{ p with dbg := true }, List.mem_map.2 ⟨p, hp, rfl⟩, lane, pc, entry, clause⟩

end

end Sys2Proof.Machine
/-! Events (R421), and the debugger's commands as the statement has them. -/

namespace Sys2Proof.Machine

section
variable {s : State} {d : DbgTarget} {m : LaneMask} {v : Word} {w : Wave}

theorem debugEventPost_full {e : DbgEvent} {rest : List DbgEvent} (hd : s.mail.due = e :: rest) (h : (s.mail.tail + 1) % 28 = s.mail.head) :
    exec .debugEventPost s = .next s := by
  have full : (s.mail.tail + 1) % 28 = s.mail.head % 28 := by omega
  change execDebugEventPost s = _
  simp only [execDebugEventPost, hd, full, if_true]

theorem debugEventPost_room {e : DbgEvent} {rest : List DbgEvent} (hd : s.mail.due = e :: rest) (h : ¬ (s.mail.tail + 1) % 28 = s.mail.head)
    (ht : s.mail.tail < 28) (hh : s.mail.head < 28) (hlen : s.mail.events.length = 28) : exec .debugEventPost s
      = .next (s.withMail { s.mail with due := rest, events := s.mail.events.set s.mail.tail e, tail := (s.mail.tail + 1) % 28 }) := by
  have place : s.mail.events[s.mail.tail]? = some s.mail.events[s.mail.tail] := List.getElem?_eq_getElem _
  have ring := updAt_eq_set place (fun _ => e)
  change execDebugEventPost s = _
  simp only [execDebugEventPost, hd, Nat.mod_eq_of_lt hh, Nat.mod_eq_of_lt ht, h, if_false, ring]
  rfl

/-- A command behind another is discarded and counted (R404). -/
theorem debugger_behind {c : Word} (hr : s.pins.reset = false) (hc : s.mail.cmd = some c) :
    ∀ row ∈ ([(.resume d m, 1), (.step d m, 2), (.stop d, 3), (.readV d v, 4), (.writeV d v, 5), (.readCtl d, 6), (.writeCtl d, 7)]
      : List (Instr × Nat)), c.toNat % 16 ≠ row.2 → exec row.1 s = .next (s.count 8 0x78) := by
  have discards {op : Nat} {set : Mailbox → Mailbox} {f : State → State} (hop : c.toNat % 16 ≠ op) :
      (Host.Outcome.next (s.dbgCommand op set f) : Out State) = .next (s.count 8 0x78) := congrArg _ (State.dbgCommand_behind hr hc hop)
  simp only [List.mem_cons, List.not_mem_nil, or_false, forall_eq_or_imp, forall_eq]
  exact ⟨discards, discards, discards, discards, discards, discards, discards⟩

section
variable (hr : s.pins.reset = false) (hc : s.mail.cmd = none) (hw : s.dbgWave d.num = some w)
include hr hc hw

theorem debugger_unheld (h : ¬ w.holds m) : s.refuses (.resume d m) 1 ∧ s.refuses (.step d m) 1 :=
  ⟨(debugs_resume hr hc).refuses fun _ => State.dbgResume_free hw h, (debugs_step hr hc).refuses fun _ => State.dbgStep_free hw h⟩

theorem debugger_resume (hu : s.wave? w.uid = some w) (h : w.holds m) (ht : w.trap.pend = none) : ∃ t, exec (.resume d m) s = .next t
    ∧ s.answered t 0 ∧ t.wave? w.uid = some { w with paths := w.resumed m } ∧ ∀ u, u ≠ w.uid → t.wave? u = s.wave? u := by
  obtain ⟨m', seq, -, run⟩ := debugs_resume (d := d) (m := m) hr hc
  have run := run.trans (congrArg _ (State.dbgResume_held (s := s.withMail m') hw h hu ht))
  exact ⟨_, run, State.answered_dbgAnswer seq rfl, wave?_putWave_self s { w with paths := w.resumed m } w hu,
    wave?_putWave_other s { w with paths := w.resumed m }⟩

theorem debugger_step {p : Path} (hu : s.wave? w.uid = some w) (h : w.holds m)
    (hp : (lowestLane m).bind (fun l => w.paths.find? (fun q => q.dbg && q.lanes.getLsbD l)) = some p) : ∃ t w',
      exec (.step d m) s = .next t ∧ s.answered t 0 ∧ t.wave? w.uid = some w' ∧ w' = { w with paths := w'.paths }
      ∧ ∃ q ∈ w'.paths, q.lanes = p.lanes ∧ q.dbg = false ∧ q.step = true ∧ q.trapPoint = p.trapPoint := by
  obtain ⟨m', seq, -, run⟩ := debugs_step (d := d) (m := m) hr hc
  have run := run.trans (congrArg _ (State.dbgStep_held (s := s.withMail m') hw h hp))
  obtain ⟨l, -, found⟩ := Option.bind_eq_some_iff.1 hp
  exact ⟨_, _, run, State.answered_dbgAnswer seq rfl, wave?_putWave_self s { w with paths := w.stepping p } w hu, rfl,
    Wave.stepping_path (List.mem_of_find?_eq_some found)⟩

theorem debugger_stop (hk : d.kind < 3) (hnd : (s.waves.map (fun x => x.uid)).Nodup) : ∃ t, exec (.stop d) s = .next t ∧ s.answered t 0
    ∧ ∀ x ∈ s.waves, ∃ x', t.wave? x.uid = some x' ∧ if w.selects d.kind x = true then x.stopping x' else x' = x := by
  obtain ⟨m', seq, -, run⟩ := debugs_stop (d := d) hr hc
  exact ⟨_, run, State.dbgStop_answered hw hk seq, fun x hx => State.dbgStop_wave (s := s.withMail m') hw hk hnd hx⟩

/-- Commands that need the whole wave stopped are refused with 1. -/
theorem debugger_running (h : ¬ w.stopped) : ∀ ins ∈ ([.readV d v, .writeV d v, .readCtl d, .writeCtl d] : List Instr), s.refuses ins 1 := by
  simp only [List.mem_cons, List.not_mem_nil, or_false, forall_eq_or_imp, forall_eq]
  exact ⟨(debugs_readV hr hc).refuses fun _ => State.dbgReadV_refused hw (Wave.dbgRange_unstopped h),
    (debugs_writeV hr hc).refuses fun _ => State.dbgWriteV_refused hw (Wave.dbgRange_unstopped h),
    (debugs_readCtl hr hc).refuses fun _ => State.dbgReadCtl_unstopped hw h,
    (debugs_writeCtl hr hc).refuses fun _ => State.dbgWriteCtl_unstopped hw h⟩

theorem debugger_range {e : Nat} (h : w.dbgRange v = .error e) : s.refuses (.readV d v) e ∧ s.refuses (.writeV d v) e :=
  ⟨(debugs_readV hr hc).refuses fun _ => State.dbgReadV_refused hw h, (debugs_writeV hr hc).refuses fun _ => State.dbgWriteV_refused hw h⟩

theorem debugger_readV {first n : Nat} (h : w.dbgRange v = .ok (first, n)) : ∃ t, exec (.readV d v) s = .next t ∧ s.answered t 0
    ∧ t.waves = s.waves ∧ ∀ r l k, r < n → l < 32 → k < 4 →
      Map.get 0 t.mail.data (128 * r + 4 * l + k) = (toBytes 4 (w.rf.vreg (first + r) l).toNat).getD k 0 := by
  obtain ⟨m', seq, -, run⟩ := debugs_readV (d := d) (v := v) hr hc
  have run := run.trans (congrArg _ (State.dbgReadV_ok (s := s.withMail m') hw h))
  refine ⟨_, run, State.answered_data seq, rfl, fun r l k hr hl hk => ?_⟩
  refine (get_putBytes ..).trans ((if_pos ⟨Nat.zero_le _, ?_⟩).trans (RegFile.rows_getD hr hl hk))
  rw [RegFile.rows_length]
  omega

theorem debugger_writeV {first n : Nat} (hu : s.wave? w.uid = some w) (h : w.dbgRange v = .ok (first, n)) : ∃ t w',
    exec (.writeV d v) s = .next t ∧ s.answered t 0 ∧ t.wave? w.uid = some w' ∧ w' = { w with rf := w'.rf }
      ∧ w.rf.loads w'.rf first n w.exist (fun r l => BitVec.ofNat 32 (field (s.mail.bytes (128 * n)) (128 * r + 4 * l) 4)) := by
  obtain ⟨m', seq, data, run⟩ := debugs_writeV (d := d) (v := v) hr hc
  have run := run.trans (congrArg _ (State.dbgWriteV_ok (s := s.withMail m') hw h))
  have window : m'.bytes (128 * n) = s.mail.bytes (128 * n) := Mailbox.bytes_congr data _
  rw [← window]
  exact ⟨_, _, run, State.answered_dbgAnswer seq rfl,
    wave?_putWave_self s { w with rf := w.rf.loadRows first w.exist (m'.bytes (128 * n)) } w hu, rfl, m'.loads_rows first n w.exist⟩

theorem debugger_readCtl (h : w.stopped) : ∃ t, exec (.readCtl d) s = .next t ∧ s.answered t 0 ∧ t.waves = s.waves
    ∧ t.mail.data = w.ctlData s.mail.data := by
  obtain ⟨m', seq, data, run⟩ := debugs_readCtl (d := d) hr hc
  have run := run.trans (congrArg _ (State.dbgReadCtl_ok (s := s.withMail m') hw h))
  exact ⟨_, run, State.answered_data seq, rfl, State.data_answered.trans (congrArg w.ctlData data)⟩

theorem debugger_writeCtl_bad {b : List Byte} (h : w.stopped) (hm : s.mail.bytes 0x600 = b) (hb : ctlBad b = true) :
    s.refuses (.writeCtl d) 6 := by
  obtain ⟨m', seq, data, run⟩ := debugs_writeCtl (d := d) hr hc
  have window : m'.bytes 0x600 = b := (Mailbox.bytes_congr data _).trans hm
  exact ⟨_, run.trans (congrArg _ (State.dbgWriteCtl_bad (s := s.withMail m') hw h window hb)), State.answered_dbgAnswer seq rfl, rfl, data⟩

theorem debugger_writeCtl {b : List Byte} (hu : s.wave? w.uid = some w) (h : w.stopped) (hm : s.mail.bytes 0x600 = b)
    (hb : ctlBad b = false) (hl : w.live ≠ 0) (hexit : ∀ l, l < 32 → w.live.getLsbD l = true → field b (0xE0 + l) 1 < 128) :
    ∃ t, exec (.writeCtl d) s = .next t ∧ s.answered t 0 ∧ t.wave? w.uid = some (w.loaded b) := by
  obtain ⟨m', seq, data, run⟩ := debugs_writeCtl (d := d) hr hc
  have window : m'.bytes 0x600 = b := (Mailbox.bytes_congr data _).trans hm
  obtain ⟨written, wave⟩ := State.dbgWriteCtl_ok (s := s.withMail m') hw hu h window hb hl hexit
  exact ⟨_, run.trans (congrArg _ written), State.answered_dbgAnswer seq rfl, wave⟩

end

end

end Sys2Proof.Machine

section
open Sys2Proof Sys2Proof.Machine

/-- Settles O52: a command that a free mailbox takes runs on the wave of its target, clause by clause. -/
theorem debugger : Obligations.Debugger := by
  unfold Obligations.Debugger
  refine ⟨fun s d m v hr hc _ => ?_, fun s d m v c hr hc row hrow hop => ?_, fun s e rest hd => ?_⟩
  · extract_lets answered only stopped held first n range tokens b
    refine ⟨fun hw => refuses_no_wave hr hc hw, fun w hw hu => ⟨debugger_unheld hr hc hw, fun hh ht => ?_, fun hh _ p hp => ?_,
      fun hk => (debugs_stop hr hc).refuses fun _ => State.dbgStop_no_scope hw hk, fun hk hnd => ?_, debugger_running hr hc hw,
      fun hs hn => debugger_range hr hc hw (Wave.dbgRange_outside hs hn),
      fun hs hn ht => debugger_range hr hc hw (Wave.dbgRange_spanned hs hn ht), fun hs hn ht => ⟨?_, ?_⟩, fun hs => ?_,
      fun hs hb => debugger_writeCtl_bad hr hc hw hs rfl hb, fun hs hb hl hm => ?_⟩⟩
    · obtain ⟨t, run, ans, wave, others⟩ := debugger_resume (d := d) hr hc hw hu hh ht
      refine ⟨t, _, run, ans, wave, rfl, others, fun l p _ hm hp => ?_⟩
      obtain ⟨hp, hl⟩ := List.mem_filter.1 (hp ▸ List.mem_singleton_self p)
      exact Wave.resumed_free hp hl hm
    · exact debugger_step hr hc hw hu hh hp
    · obtain ⟨t, run, ans, waves⟩ := debugger_stop hr hc hw hk hnd
      refine ⟨t, run, ans, fun x hx => ?_⟩
      obtain ⟨x', found, stops⟩ := waves x hx
      by_cases hs : w.selects d.kind x = true
      · rw [if_pos hs] at stops
        exact ⟨x', found, stops.kept, (if_pos (Wave.selects_iff.1 hs)).symm ▸ stops.asked⟩
      · rw [if_neg hs] at stops
        exact ⟨x', found, by rw [stops], (if_neg (mt Wave.selects_iff.2 hs)).symm ▸ stops⟩
    · exact debugger_readV hr hc hw (Wave.dbgRange_ok hs hn ht)
    · obtain ⟨t, w', run, ans, wave, kept, loads⟩ := debugger_writeV (d := d) hr hc hw hu (Wave.dbgRange_ok hs hn ht)
      refine ⟨t, w', run, ans, wave, kept, loads.rest, loads.errors, fun r l hl => ?_⟩
      have window (hr : first ≤ r ∧ r < first + n) : field (s.mail.bytes (128 * n)) (128 * (r - first) + 4 * l) 4
          = ofBytes ((List.range 4).map (fun k => Map.get 0 s.mail.data (128 * (r - first) + 4 * l + k))) := field_map_range (by omega)
      exact (loads.regs r l hl).trans (ite_congr rfl (fun h => congrArg _ (window ⟨h.1, h.2.1⟩)) fun _ => rfl)
    · obtain ⟨t, run, ans, waves, data⟩ := debugger_readCtl (d := d) hr hc hw hs
      obtain ⟨-, -, fpstat, -⟩ := w.ctlData_get s.mail.data
      rw [← data] at fpstat
      refine ⟨t, run, ans, waves, fun r k hr hk => ?_, fpstat, fun p l k hp alone hl h32 hk => ?_⟩
      · rw [data, Wave.ctlData_sreg w _ hr hk]
      · rw [data, Wave.ctlData_point w _ h32 hk (find_trapPoints hp hl h32 alone)]
    · obtain ⟨t, run, ans, wave⟩ := debugger_writeCtl (d := d) hr hc hw hu hs rfl hb hl hm
      obtain ⟨rf, -, -⟩ := Wave.loadCtl_live hm
      have file : (w.loaded b).rf = ctlRegsOf b w.exist w.rf := rf
      exact ⟨t, _, run, ans, wave, file ▸ ctlRegsOf_v, w.loaded_stopped b, fun r hr => file ▸ ctlRegsOf_sreg hr, file ▸ ctlRegsOf_fpstat,
        fun l => Wave.loaded_lane hm⟩
  · exact ⟨_, debugger_behind hr hc row hrow hop, rfl, s.get_count_hub 0x78⟩
  · exact ⟨fun hf ht hh hlen => ⟨_, debugEventPost_room hd hf ht hh hlen, rfl, rfl, rfl, rfl, rfl⟩, debugEventPost_full hd⟩

end

namespace Sys2Proof

/-! ENCODING AND DECODING AGREE. First, a word and its fields (R61). -/

/-- Every field lies within its bits (R61). -/
structure Fields.Fits (f : Fields) : Prop where
  op : f.op < 512
  d : f.d < 256
  a : f.a < 256
  b : f.b < 256
  c : f.c < 256
  e : f.e < 256
  gp : f.gp < 8
  gpn : f.gpn < 2
  gc : f.gc < 4
  gq : f.gq < 8
  gqn : f.gqn < 2
  mod : f.mod < 16

theorem fld_ofNat {x : Nat} (h : x < 2 ^ 64) (lo n : Nat) : fld (BitVec.ofNat 64 x) lo n = x / 2 ^ lo % 2 ^ n := by
  rw [fld, BitVec.toNat_ofNat, Nat.mod_eq_of_lt h]

theorem packFields_lt {f : Fields} (h : f.Fits) : f.op * 2 ^ 54 + f.d * 2 ^ 46 + f.a * 2 ^ 38 + f.b * 2 ^ 30 + f.c * 2 ^ 22
    + f.e * 2 ^ 14 + f.gp * 2 ^ 11 + f.gpn * 2 ^ 10 + f.gc * 2 ^ 8 + f.gq * 2 ^ 5 + f.gqn * 2 ^ 4 + f.mod < 2 ^ 63 := by
  obtain ⟨hop, hd, ha, hb, hc, he, hgp, hgpn, hgc, hgq, hgqn, hmod⟩ := h
  omega

theorem fieldsOf_packFields {f : Fields} (h : f.Fits) : fieldsOf (packFields f) = f := by
  have hx := packFields_lt h
  obtain ⟨hop, hd, ha, hb, hc, he, hgp, hgpn, hgc, hgq, hgqn, hmod⟩ := h
  obtain ⟨op, d, a, b, c, e, gp, gpn, gc, gq, gqn, mod⟩ := f
  dsimp only at *
  unfold fieldsOf packFields
  simp only [fld_ofNat (Nat.lt_trans hx (by decide))]
  congr 1 <;> omega

theorem kindOf_packFields {f : Fields} (h : f.Fits) : kindOf (packFields f) = .full := by
  have hx := packFields_lt h
  unfold kindOf packFields
  rw [fld_ofNat (Nat.lt_trans hx (by decide)), if_pos (by omega)]


/-! Parsers that find nothing wrong. -/

section
variable {α β : Type} (x : α)

@[simp] theorem P.mk_nil : (⟨x, []⟩ : P α) = .ok x := rfl
@[simp] theorem P.val_ok : (P.ok x).val = x := rfl
@[simp] theorem P.errs_ok : (P.ok x).errs = [] := rfl
@[simp] theorem P.ap_ok (k : α → β) : (P.ok k).ap (.ok x) = .ok (k x) := rfl
@[simp] theorem P.map_ok (k : α → β) : (P.ok x).map k = .ok (k x) := rfl
@[simp] theorem P.also_nil : (P.ok x).also [] = .ok x := rfl

end

@[simp] theorem unused_blank : unused 0xFF = [] := rfl
@[simp] theorem unusedE_blank : unusedE 0xFF = [] := rfl
@[simp] theorem unusedM_blank : unusedM 0 = [] := rfl

/-! Operand codes (R64, R65, R116, R139): each lies within its byte, and its class reads it back. -/

@[simp] theorem Dst.code_lt (d : Dst) : d.code < 256 := by
  cases d <;> simp only [Dst.code] <;> omega

@[simp] theorem Src.code_lt (a : Src) : a.code < 256 := by
  cases a <;> simp only [Src.code] <;> omega

theorem Src.code_ne_absent (a : Src) : a.code ≠ 0xFF := by
  cases a <;> simp only [Src.code] <;> omega

theorem Dst.code_ne_absent (d : Dst) : d.code ≠ 0xFF := by
  cases d <;> simp only [Dst.code] <;> omega

@[simp] theorem optCode_lt (a : Option Src) : optCode a < 256 := by
  cases a <;> simp [optCode]

@[simp] theorem optDstCode_lt (d : Option Dst) : optDstCode d < 256 := by
  cases d <;> simp [optDstCode]

@[simp] theorem optPredCode_lt (p : Option (Fin 8)) : optPredCode p < 256 := by
  cases p <;> simp only [optPredCode] <;> omega

theorem vErrs_run {b al n r : Nat} (h : runOk b al n r = true) (hn : 0 < n) : vErrs b al n r = [] := by
  simp only [runOk, Bool.and_eq_true, beq_iff_eq, decide_eq_true_eq] at h
  obtain ⟨hal, hlt⟩ := h
  simp [vErrs, hal, hlt, show ¬ b ≤ r by omega]

section
variable {b : Nat}

@[simp] theorem pRun_code {k n : Nat} {r : Fin 192} (h : runOk b k n r = true) (hn : 0 < n) : pRun b k n r = .ok r := by
  simp [pRun, vErrs_run h hn]

@[simp] theorem pDst_code {d : Dst} (h : d.ok32 b = true) : pDst b 1 d.code = .ok d := by
  cases d with
  | v n => simp [pDst, Dst.code, vErrs_run h]
  | s n => simp [pDst, Dst.code, sErrs, Nat.mod_one]
  | zero => rfl

@[simp] theorem pDst_code64 {d : Dst} (h : d.ok64 b = true) : pDst b 2 d.code = .ok d := by
  cases d with
  | v n => simp [pDst, Dst.code, vErrs_run h]
  | s n => simp [pDst, Dst.code, sErrs, show n.val % 2 = 0 by simpa [Dst.ok64] using h]
  | zero => rfl

@[simp] theorem pDst_codeW {d : Dst} {w : Bool} (h : d.okW b w = true) : pDst b (al w) d.code = .ok d := by
  cases w with
  | false => exact pDst_code h
  | true => exact pDst_code64 h

@[simp] theorem pSrc_code {a : Src} (h : a.ok32 b = true) : pSrc b 1 a.code = .ok a := by
  cases a with
  | v n => simp [pSrc, Src.code, vErrs_run h]
  | s n => simp [pSrc, Src.code, sErrs, Nat.mod_one]
  | zero | lit | lane => rfl

@[simp] theorem pSrc_code64 {a : Src} (h : a.ok64 b = true) : pSrc b 2 a.code = .ok a := by
  cases a with
  | v n => simp [pSrc, Src.code, vErrs_run h]
  | s n => simp [pSrc, Src.code, sErrs, show n.val % 2 = 0 by simpa [Src.ok64] using h]
  | zero | lit | lane => rfl

@[simp] theorem pSrc_codeW {a : Src} {w : Bool} (h : a.okW b w = true) : pSrc b (al w) a.code = .ok a := by
  cases w with
  | false => exact pSrc_code h
  | true => exact pSrc_code64 h

@[simp] theorem pSc2_code {a : Src} (h : a.okSc2 b = true) : pSc2 b a.code = .ok a := by
  cases a with
  | v n => simp [pSc2, Src.code, vErrs_run h]
  | s n => simp [pSc2, Src.code, sErrs, show n.val % 2 = 0 by simpa [Src.okSc2] using h]
  | zero | lit | lane => exact absurd h Bool.false_ne_true

@[simp] theorem pRunDst_code {d : Dst} {n : Nat} (h : d.okRun b n = true) (hn : 0 < n) : pRunDst b n d.code = .ok d := by
  unfold Dst.okRun at h
  unfold pRunDst
  split at h
  · rw [if_pos ‹n = 1›, pDst_code h]
  · rw [if_neg ‹n ≠ 1›]
    cases d with
    | v r =>
      split
      · subst n; simp [pDstPair, Dst.code, vErrs_run h]
      · simp [pDstRun, Dst.code, pRun_code h hn]
    | s r =>
      simp only [Bool.and_eq_true, beq_iff_eq] at h
      simp [pDstPair, Dst.code, sErrs, h]
    | zero => exact absurd h Bool.false_ne_true

@[simp] theorem pRunSrc_code {a : Src} {n : Nat} (h : a.okRun b n = true) (hn : 0 < n) : pRunSrc b n a.code = .ok a := by
  unfold Src.okRun at h
  unfold pRunSrc
  split at h
  · rw [if_pos ‹n = 1›, pSrc_code h]
  · rw [if_neg ‹n ≠ 1›]
    split at h
    · rw [if_pos ‹n = 2›, pSrc_code64 h]
    · rw [if_neg ‹n ≠ 2›]
      cases a with
      | v r => simp [pSrcRun, Src.code, pRun_code h hn]
      | s _ | zero | lit | lane => exact absurd h Bool.false_ne_true

@[simp] theorem pSrcRun_code8 {a : Src} (h : a.okRun b 8 = true) : pSrcRun b 2 8 a.code = .ok a := pRunSrc_code h (by decide)

@[simp] theorem pSp_code {n : Fin 48} (h : (n.val % 2 == 0) = true) : pSp (0xC0 + n) = .ok n := by
  simp [pSp, sErrs, beq_iff_eq.1 h]

@[simp] theorem pSpE_code {n : Fin 48} (h : (n.val % 2 == 0) = true) : pSpE (0xC0 + n) = .ok n := by
  simp [pSpE, beq_iff_eq.1 h]

@[simp] theorem pOpt_code {a : Option Src} (h : okOpt (·.ok32 b) a = true) : pOpt b (optCode a) = .ok a := by
  cases a with
  | none => rfl
  | some a => simp [pOpt, optCode, a.code_ne_absent, pSrc_code (show a.ok32 b = true from h)]

@[simp] theorem pOptDst_none : pOptDst b (optDstCode none) = .ok none := rfl

@[simp] theorem pOptDst_some {d : Dst} (h : d.ok32 b = true) : pOptDst b (optDstCode (some d)) = .ok (some d) := by
  simp [pOptDst, optDstCode, d.code_ne_absent, h]

@[simp] theorem pLoad_code {d : Dst} {sz : LoadSize} (h : d.okLoad b sz = true) : pLoad b sz d.code = .ok d := by
  cases sz with
  | z8 | s8 | z16 | s16 | b32 => exact pDst_code h
  | b64 => exact pDst_code64 h
  | b128 => cases d with
    | v r => simp [pLoad, pDstRun, Dst.code, pRun_code h]
    | s _ | zero => exact absurd h Bool.false_ne_true

@[simp] theorem pStore_code {c : Src} {sz : StoreSize} (h : c.okStore b sz = true) : pStore b sz c.code = .ok c := by
  cases sz with
  | b8 | b16 | b32 => exact pSrc_code h
  | b64 => exact pSrc_code64 h
  | b128 => cases c with
    | v r => simp [pStore, pSrcRun, Src.code, pRun_code h]
    | s _ | zero | lit | lane => exact absurd h Bool.false_ne_true

@[simp] theorem pCas_code {o : AtomOp} {w : Bool} {c : Option Src} (h : okCas b o w c = true) :
    pCas b o w (optCode c) = .ok c := by
  cases c with
  | none =>
    have ho : o ≠ .cas := by
      rintro rfl
      exact absurd h Bool.false_ne_true
    simp [pCas, ho, optCode]
  | some c =>
    cases o with
    | cas => simp [pCas, optCode, pSrc_codeW (show c.okW b w = true from h)]
    | _ => exact absurd h Bool.false_ne_true

end


/-! Predicates, immediates and guards (R61 to R63, R116). -/

@[simp] theorem pPred_val (p : Fin 8) : pPred p = .ok p := by simp [pPred]

@[simp] theorem pPred2_val (p : Fin 4) : pPred2 (2 * p) = .ok p := by
  simp [pPred2, show 2 * p.val < 8 by omega]

@[simp] theorem pOptPred_code (p : Option (Fin 8)) : pOptPred (optPredCode p) = .ok p := by
  cases p with
  | none => rfl
  | some p => simp [pOptPred, optPredCode, show p.val ≠ 255 by omega]

@[simp] theorem PComb.code_lt (c : PComb) : c.code < 16 := by
  unfold PComb.code
  split <;> omega

@[simp] theorem pComb_code (c : PComb) : pComb c.code = .ok c := by
  obtain ⟨p, neg⟩ := c
  cases neg <;> simp [pComb, PComb.code]

@[simp] theorem pImm_val {n : Nat} (j : Fin n) (hn : 0 < n) : pImm n j hn = .ok j := by simp [pImm]

@[simp] theorem pByte_toNat (x : BitVec 8) : pByte x.toNat = .ok x := by simp [pByte]

@[simp] theorem ofNat_val256 (n : Fin 256) : Fin.ofNat 256 n = n := by simp

theorem bit_lt (b : Bool) : bit b < 2 := by cases b <;> decide

@[simp] theorem bit_beq (b : Bool) : (bit b == 1) = b := by cases b <;> rfl

section
variable (g : Guard) (f : Fields)

@[simp] theorem Guard.fields_op : (g.fields f).op = f.op := by rcases g with ⟨p, n, _ | _ | _⟩ <;> rfl
@[simp] theorem Guard.fields_d : (g.fields f).d = f.d := by rcases g with ⟨p, n, _ | _ | _⟩ <;> rfl
@[simp] theorem Guard.fields_a : (g.fields f).a = f.a := by rcases g with ⟨p, n, _ | _ | _⟩ <;> rfl
@[simp] theorem Guard.fields_b : (g.fields f).b = f.b := by rcases g with ⟨p, n, _ | _ | _⟩ <;> rfl
@[simp] theorem Guard.fields_c : (g.fields f).c = f.c := by rcases g with ⟨p, n, _ | _ | _⟩ <;> rfl
@[simp] theorem Guard.fields_e : (g.fields f).e = f.e := by rcases g with ⟨p, n, _ | _ | _⟩ <;> rfl
@[simp] theorem Guard.fields_mod : (g.fields f).mod = f.mod := by rcases g with ⟨p, n, _ | _ | _⟩ <;> rfl

@[simp] theorem pGuard_fields : pGuard (g.fields f) = .ok g := by
  obtain ⟨p, n, comb⟩ := g
  cases comb <;> simp [pGuard, Guard.fields]

theorem Guard.fields_fits {f : Fields} (hop : f.op < 512) (hd : f.d < 256) (ha : f.a < 256) (hb : f.b < 256) (hc : f.c < 256)
    (he : f.e < 256) (hmod : f.mod < 16) : (g.fields f).Fits := by
  obtain ⟨p, n, comb⟩ := g
  have hp := p.isLt
  cases comb with
  | only => exact ⟨hop, hd, ha, hb, hc, he, hp, bit_lt n, (by decide : 0 < 4), (by decide : 0 < 8), (by decide : 0 < 2), hmod⟩
  | and q m => exact ⟨hop, hd, ha, hb, hc, he, hp, bit_lt n, (by decide : 1 < 4), q.isLt, bit_lt m, hmod⟩
  | or q m => exact ⟨hop, hd, ha, hb, hc, he, hp, bit_lt n, (by decide : 2 < 4), q.isLt, bit_lt m, hmod⟩

end

/-! MOD and E (R62, R109, R122, R131, R134, R148, R202, R204, R216, R292, R296, R320): each modifier's code is read back. -/

@[simp] theorem mBool_bit (b : Bool) : mBool (bit b) = .ok b := by cases b <;> rfl
@[simp] theorem mAdd_code (m : AddMod) : mAdd m.code = .ok m := by cases m <;> rfl
@[simp] theorem mCombine_code (k : PCombine) : mCombine k.code = .ok k := by cases k <;> rfl
@[simp] theorem mLoad_code (z : LoadSize) : mLoad z.code = .ok z := by cases z <;> rfl
@[simp] theorem mStore_code (z : StoreSize) : mStore z.code = .ok z := by cases z <;> rfl
@[simp] theorem mAtom_code (o : AtomOp) : mAtom o.code = .ok o := by cases o <;> rfl
@[simp] theorem mShfl_code (w : ShflWidth) : mShfl w.code = .ok w := by cases w <;> rfl
@[simp] theorem mRedux_code (o : ReduxOp) : mRedux o.code = .ok o := by cases o <;> rfl
@[simp] theorem mUnpack_code (u : UnpackForm) : mUnpack u.code = .ok u := by cases u <;> rfl
@[simp] theorem mBlend_code (o : BlendOp) : mBlend o.code = .ok o := by cases o <;> rfl
@[simp] theorem cvtTyOf_code (t : CvtTy) : cvtTyOf t.code = t := by cases t <;> rfl
@[simp] theorem pairOpOf_code (o : PairOp) : pairOpOf o.code = some o := by cases o <;> rfl

@[simp] theorem AddMod.code_lt (m : AddMod) : m.code < 16 := by cases m <;> decide
@[simp] theorem PCombine.code_lt (k : PCombine) : k.code < 16 := by cases k <;> decide
@[simp] theorem LoadSize.code_lt (z : LoadSize) : z.code < 16 := by cases z <;> decide
@[simp] theorem StoreSize.code_lt (z : StoreSize) : z.code < 16 := by cases z <;> decide
@[simp] theorem AtomOp.code_lt (o : AtomOp) : o.code < 16 := by cases o <;> decide
@[simp] theorem ShflWidth.code_lt (w : ShflWidth) : w.code < 16 := by cases w <;> decide
@[simp] theorem ReduxOp.code_lt (o : ReduxOp) : o.code < 16 := by cases o <;> decide
@[simp] theorem UnpackForm.code_lt (u : UnpackForm) : u.code < 16 := by cases u <;> decide
@[simp] theorem BlendOp.code_lt (o : BlendOp) : o.code < 16 := by cases o <;> decide
@[simp] theorem CvtTy.code_lt (t : CvtTy) : t.code < 16 := by cases t <;> decide
@[simp] theorem Rnd.code_lt (r : Rnd) : r.code < 4 := by cases r <;> decide
@[simp] theorem FpMode.code_lt (m : FpMode) : m.code < 8 := by
  obtain ⟨r, _ | _⟩ := m <;> cases r <;> decide
@[simp] theorem CpyDir.code_lt (c : CpyDir) : c.code < 8 := by cases c <;> decide
@[simp] theorem PairOp.code_lt (o : PairOp) : o.code < 127 := by cases o <;> decide
@[simp] theorem ICmp.code_lt (c : ICmp) : c.code < 8 := by cases c <;> decide
@[simp] theorem FCompare.code_lt (c : FCompare) : c.code < 64 := by
  obtain ⟨k, _ | _, _ | _⟩ := c <;> cases k <;> decide
@[simp] theorem SMod.code_lt (m : SMod) : m.code < 256 := by
  obtain ⟨na, nb, nc, aa, ab, ac⟩ := m
  revert na nb nc aa ab ac
  decide
@[simp] theorem Attr.code_lt (t : Attr) : t.code < 256 := by
  obtain ⟨s, o, _ | _, h⟩ := t <;> cases s <;> cases o <;> cases h <;> decide
@[simp] theorem EnqDie.code_lt (d : EnqDie) : d.code < 256 := by
  cases d <;> simp only [EnqDie.code] <;> omega
@[simp] theorem SpanSrc.code_lt (a : SpanSrc) : a.code < 256 := by
  cases a <;> simp only [SpanSrc.code] <;> omega

@[simp] theorem rndOf_code (r : Rnd) : rndOf r.code = r := by cases r <;> rfl

/-- The parts of an FP mode with a bit above it (R131, R147). -/
theorem FpMode.code_parts (m : FpMode) (k : Nat) :
    rndOf ((m.code + 8 * k) % 4) = m.rnd ∧ ((m.code + 8 * k) / 4 % 2 == 1) = m.sat ∧ (m.code + 8 * k) / 8 = k := by
  have hr := m.rnd.code_lt
  have hs := bit_lt m.sat
  unfold FpMode.code
  rw [show (m.rnd.code + 4 * bit m.sat + 8 * k) % 4 = m.rnd.code by omega,
    show (m.rnd.code + 4 * bit m.sat + 8 * k) / 4 % 2 = bit m.sat by omega]
  exact ⟨rndOf_code _, bit_beq _, by omega⟩

@[simp] theorem mFp_code (m : FpMode) : mFp m.code = .ok m := by
  obtain ⟨hr, hs, hk⟩ := m.code_parts 0
  simp only [Nat.mul_zero, Nat.add_zero] at hr hs hk
  simp [mFp, hr, hs, hk]

@[simp] theorem mRed_code {o : AtomOp} (h : o.okRed = true) : mRed o.code = .ok o := by simp [mRed, h]

@[simp] theorem mLdt_code {z : LoadSize} (h : z.okLdt = true) : mLdt z.code = .ok z := by
  cases z with
  | b32 | b64 | b128 => rfl
  | z8 | z16 | s8 | s16 => exact absurd h Bool.false_ne_true

@[simp] theorem eICmp_code (c : ICmp) (z : Bool) : eICmp (c.code + 8 * bit z) = .ok c := by
  cases z <;> cases c <;> rfl

@[simp] theorem eICmpZ_code (c : ICmp) (z : Bool) : eICmpZ (c.code + 8 * bit z) = .ok z := by
  cases z <;> cases c <;> rfl

@[simp] theorem eFCompare_code (c : FCompare) : eFCompare c.code = .ok c := by
  obtain ⟨k, aa, ab⟩ := c
  cases aa <;> cases ab <;> cases k <;> rfl

/-- The source-modifier byte holds its bits inverted, under two ones (R131). -/
theorem SMod.code_parts (m : SMod) : m.code / 64 = 3 ∧ (⟨m.code / 32 % 2 == 0, m.code / 16 % 2 == 0, m.code / 8 % 2 == 0,
    m.code / 4 % 2 == 0, m.code / 2 % 2 == 0, m.code % 2 == 0⟩ : SMod) = m := by
  obtain ⟨na, nb, nc, aa, ab, ac⟩ := m
  revert na nb nc aa ab ac
  decide

@[simp] theorem eSMod_code {three : Bool} {m : SMod} (h : three = true ∨ m.ok2 = true) : eSMod three m.code = .ok m := by
  obtain ⟨hone, hm⟩ := m.code_parts
  rw [eSMod, hm, if_pos ⟨hone, h⟩]
  rfl

@[simp] theorem scopeOf_code (c : Scope) : scopeOf c.code = .ok c := by cases c <;> rfl
@[simp] theorem orderOf_code (o : Order) : orderOf o.code = o := by cases o <;> rfl
@[simp] theorem hintOf_code (h : Hint) : hintOf h.code = h := by cases h <;> rfl

theorem Attr.code_parts (t : Attr) :
    t.code / 32 = t.scope.code ∧ t.code / 8 % 4 = t.order.code ∧ t.code / 4 % 2 = bit t.bit2 ∧ t.code % 4 = t.hint.code := by
  have ho : t.order.code < 4 := by cases t.order <;> decide
  have hh : t.hint.code < 4 := by cases t.hint <;> decide
  have hb := bit_lt t.bit2
  unfold Attr.code
  omega

@[simp] theorem eAttr_code {ok : Attr → Bool} {t : Attr} (h : ok t = true) : eAttr ok t.code = .ok t := by
  obtain ⟨hs, ho, hb, hh⟩ := t.code_parts
  simp [eAttr, hs, ho, hb, hh, h]

@[simp] theorem eDie_code (d : EnqDie) : eDie d.code = .ok d := by
  cases d with
  | vd n => simp [eDie, EnqDie.code]
  | any | own => rfl

@[simp] theorem mCpyDir_code (c : CpyDir) (shw : Bool) : mCpyDir (c.code + 8 * bit shw) = .ok c := by
  cases shw <;> cases c <;> rfl


/-! Fields that hold more than one operand, and the tile byte of SPAN.MMA. -/

@[simp] theorem bit_mod (b : Bool) : bit b % 2 = bit b := by cases b <;> rfl

@[simp] theorem bit_eq_one (b : Bool) : bit b = 1 ↔ b = true := by cases b <;> decide

@[simp] theorem Rnd.code_mod (r : Rnd) : r.code % 4 = r.code := Nat.mod_eq_of_lt r.code_lt

@[simp] theorem rnd_bit_div (r : Rnd) (b : Bool) : (r.code + 4 * bit b) / 4 = bit b := by
  have := r.code_lt
  omega

@[simp] theorem rnd_bit_lt (r : Rnd) (b : Bool) : r.code + 4 * bit b < 8 := by
  have := r.code_lt
  have := bit_lt b
  omega

@[simp] theorem bits_div (a b : Bool) : (bit a + 2 * bit b) / 2 = bit b := by
  have := bit_lt a
  omega

@[simp] theorem bits_lt (a b : Bool) : bit a + 2 * bit b < 4 := by
  have := bit_lt a
  have := bit_lt b
  omega

theorem CvtTy.codes_div (x y : CvtTy) : (16 * x.code + y.code) / 16 = x.code := by
  have := y.code_lt
  omega

theorem CvtTy.codes_mod (x y : CvtTy) : (16 * x.code + y.code) % 16 = y.code := by
  have := y.code_lt
  omega

@[simp] theorem copy_bit_div (c : CpyDir) (b : Bool) : (c.code + 8 * bit b) / 8 = bit b := by
  have := c.code_lt
  omega

@[simp] theorem eBsel_val (x y : Fin 4) : eBsel (x + 4 * y) = .ok (x, y) := by
  have hx : Fin.ofNat 4 (x.val + 4 * y.val) = x := Fin.ext (by simp [Fin.ofNat])
  have hy : Fin.ofNat 4 ((x.val + 4 * y.val) / 4) = y := Fin.ext (by simp only [Fin.ofNat]; omega)
  rw [eBsel, hx, hy, if_pos (by omega)]
  rfl

@[simp] theorem pSrc_scalarLit {b : Nat} {a : Src} (h : a.okScalarLit = true) : pSrc b 1 a.code = .ok a := by
  cases a with
  | s _ | lit => exact pSrc_code rfl
  | v _ | zero | lane => exact absurd h Bool.false_ne_true

@[simp] theorem pSpanSrc_code {b n : Nat} {a : SpanSrc} {tile : Fin 16} (h : a.ok b n tile = true) (hn : 0 < n) :
    pSpanSrc b n a.code tile = .ok a := by
  cases a with
  | run r =>
    simp only [SpanSrc.ok, Bool.and_eq_true, beq_iff_eq] at h
    obtain ⟨hr, rfl⟩ := h
    simp [pSpanSrc, SpanSrc.code, vErrs_run hr hn]
  | desc p => simp [pSpanSrc, SpanSrc.code, sErrs, show p.val % 2 = 0 by simpa [SpanSrc.ok] using h]

@[simp] theorem pMma_fields {b bn op c gp gpn gc gq gqn mod : Nat} {g : Guard} {o : MmaOps} (h : o.ok b bn = true) (hbn : 0 < bn) :
    pMma b bn (g.fields ⟨op, o.d, o.a.code, o.b.code, c, o.tiles, gp, gpn, gc, gq, gqn, mod⟩) = .ok o := by
  simp only [MmaOps.ok, Bool.and_eq_true] at h
  obtain ⟨⟨hod, hoa⟩, hob⟩ := h
  have hlow : o.tiles % 16 = o.aTile := by unfold MmaOps.tiles; omega
  have hhigh : o.tiles / 16 = o.bTile := by unfold MmaOps.tiles; omega
  have ht : Fin.ofNat 16 o.tiles = o.aTile := Fin.ext hlow
  simp only [pMma, Guard.fields_d, Guard.fields_a, Guard.fields_b, Guard.fields_e, hlow, hhigh, ht, pRun_code hod,
    pSpanSrc_code hoa, pSpanSrc_code hob hbn, Fin.ofNat_eq_cast, Fin.cast_val_eq_self, Nat.zero_lt_succ, P.ap_ok]

theorem CvtTy.width_cases (t : CvtTy) : t.width = 4 ∨ t.width = 8 ∨ t.width = 16 ∨ t.width = 32 ∨ t.width = 64 := by
  cases t <;> decide

/-- A CVT reads and writes at least one register (R148). -/
theorem cvtRun_pos (dt st : CvtTy) : 0 < cvtRun (cvtCount dt st) dt.width ∧ 0 < cvtRun (cvtCount dt st) st.width := by
  unfold cvtCount cvtRun
  rcases dt.width_cases with hd | hd | hd | hd | hd <;> rcases st.width_cases with hs | hs | hs | hs | hs <;>
    rw [hd, hs] <;> decide

theorem UnpackForm.run_pos (u : UnpackForm) : 0 < u.run := by cases u <;> decide

@[simp] theorem mBool_zero : mBool 0 = .ok false := rfl
@[simp] theorem mBool_one : mBool 1 = .ok true := rfl

@[simp] theorem rndOf_fpMode (m : FpMode) : rndOf (m.code % 4) = m.rnd := (m.code_parts 0).1
@[simp] theorem fpMode_sat (m : FpMode) : (m.code / 4 % 2 == 1) = m.sat := (m.code_parts 0).2.1
@[simp] theorem rndOf_fpMode8 (m : FpMode) : rndOf ((m.code + 8) % 4) = m.rnd := (m.code_parts 1).1
@[simp] theorem fpMode_sat8 (m : FpMode) : ((m.code + 8) / 4 % 2 == 1) = m.sat := (m.code_parts 1).2.1

/-- CVT's modifier is an FP mode under the bit of stochastic rounding (R150). -/
theorem cvt_mod (r : Rnd) (sat sr : Bool) : rndOf ((r.code + 4 * bit sat + 8 * bit sr) % 4) = r
    ∧ ((r.code + 4 * bit sat + 8 * bit sr) / 4 % 2 == 1) = sat ∧ (r.code + 4 * bit sat + 8 * bit sr) / 8 = bit sr :=
  FpMode.code_parts ⟨r, sat⟩ (bit sr)

@[simp] theorem pRun_save {b : Nat} {n : Fin 256} {r : Fin 192} (h : runOk b 8 (8 * n) r = true) (hn : 1 ≤ n.val) :
    pRun b 8 (8 * n) r = .ok r := pRun_code h (by omega)

/-- The opcode of an instruction lies in a page of the opcode map (R92); a pair and a device step lie in none. -/
def Instr.inPage (i : Instr) (lo hi : Nat) : Bool :=
  match i.fields with
  | some (_, f) => Nat.ble lo f.op && Nat.blt f.op hi
  | none => false

theorem decodeInt_fields {env : DecodeEnv} {i : Instr} (hop : i.inPage 0x000 0x040 = true) (h : i.wf env = true) :
    ∃ g f, i.fields = some (g, f) ∧ decodeInt env (g.fields f) = some (.ok i) := by
  cases i with
  | iadd | iadd3 | isub | ineg | iabs | imul24 | imul24h | imad24 | imul | imulh | imad | imin | imax | isetp | sel |
  lop3 | shl | shr | sha | shf | bfe | bfi | brev | popc | clz | ctz | prmt | lea | iadd64 | mov | movi | movs | mts |
  plop3 =>
    refine ⟨_, _, rfl, ?_⟩
    simp only [Instr.wf, Bool.and_eq_true] at h
    simp [decodeInt, fDA, fDAB, fDABC, fCmp, blank, row, rowDA, rowDAB, rowDABC, rowDAB64, rowCmp, P.noE, P.noM, P.noEM, h]
  | scale _ _ _ _ e => cases e <;> exact absurd hop Bool.false_ne_true
  | pack _ _ p => cases p <;> exact absurd hop Bool.false_ne_true
  | _ => exact absurd hop Bool.false_ne_true

theorem decodeFloat_fields {env : DecodeEnv} {i : Instr} (hop : i.inPage 0x040 0x080 = true) (h : i.wf env = true) :
    ∃ g f, i.fields = some (g, f) ∧ decodeFloat env (g.fields f) = some (.ok i) := by
  cases i with
  | fadd | fmul | fmin | fmax | ffma | fsetp | fclass | frnd | dadd | dmul | dfma | dsetp =>
    refine ⟨_, _, rfl, ?_⟩
    simp only [Instr.wf, Bool.and_eq_true] at h
    simp [decodeFloat, fDA, fDAB, fDABC, fCmp, blank, row, rowDAB, rowDABC, rowDAB64, rowCmp, P.noE, P.noM, h]
  | scale _ _ _ _ e => cases e <;> exact absurd hop Bool.false_ne_true
  | pack _ _ p => cases p <;> exact absurd hop Bool.false_ne_true
  | _ => exact absurd hop Bool.false_ne_true

theorem decodeNarrow_fields {env : DecodeEnv} {i : Instr} (hop : i.inPage 0x080 0x0C0 = true) (h : i.wf env = true) :
    ∃ g f, i.fields = some (g, f) ∧ decodeNarrow env (g.fields f) = some (.ok i) := by
  cases i with
  | hadd2F16 | hadd2Bf16 | hmul2F16 | hmul2Bf16 | hfma2F16 | hfma2Bf16 | hmin2F16 | hmin2Bf16 | hmax2F16 | hmax2Bf16 |
  hsetp2F16 | hsetp2Bf16 | dot4S8 | dot4Z8 | dot8S4 | dot8Z4 | dot4fE4m3 | dot4fE5m2 | dot8fE2m1 | unpack | rcp | rsq |
  sqrt | ex2 | lg2 | sin | cos | tanh =>
    refine ⟨_, _, rfl, ?_⟩
    simp only [Instr.wf, Bool.and_eq_true] at h
    simp [decodeNarrow, fDA, fDAB, fDABC, fCmp, blank, row, rowDA, rowDAB, rowDABC, rowHset, rowDot, rowDotF,
      UnpackForm.run_pos, P.noE, P.noM, P.noEM, h]
  | cvt g d a dt st r sat sr =>
    refine ⟨_, _, rfl, ?_⟩
    simp only [Instr.wf, Bool.and_eq_true] at h
    obtain ⟨hr, hs, hq⟩ := cvt_mod r sat sr
    simp only [decodeNarrow, rowCvt, row, fDA, blank, Guard.fields_op, Guard.fields_d, Guard.fields_a, Guard.fields_b, Guard.fields_c,
      Guard.fields_e, Guard.fields_mod, CvtTy.codes_div, CvtTy.codes_mod, cvtTyOf_code, hr, hs, hq]
    simp [h, cvtRun_pos]
  | scale g d a b e8 fm =>
    simp only [Instr.wf, Bool.and_eq_true] at h
    cases e8 <;> exact ⟨_, _, rfl, by simp [decodeNarrow, fDA, fDAB, blank, row, rowDAB, rowScale, h]⟩
  | pack g d p =>
    cases p <;> simp only [Instr.wf, PackForm.ok, Bool.and_eq_true] at h <;>
      exact ⟨_, _, rfl, by simp [decodeNarrow, blank, row, rowPack, PackForm.fields, h]⟩
  | _ => exact absurd hop Bool.false_ne_true

theorem decodeCross_fields {env : DecodeEnv} {i : Instr} (hop : i.inPage 0x0C0 0x100 = true) (h : i.wf env = true) :
    ∃ g f, i.fields = some (g, f) ∧ decodeCross env (g.fields f) = some (.ok i) := by
  cases i with
  | shflIdx | shflUp | shflDn | shflXor | voteAny | voteAll | voteEq | voteBal | redux | scan | matchLanes | barArr |
  barWait | barSync | pbarArr | gbarGrid | gbarGang =>
    refine ⟨_, _, rfl, ?_⟩
    simp only [Instr.wf, Src.okCount, Bool.and_eq_true] at h
    simp [decodeCross, fDA, fDAB, fAB, fShfl, blank, row, rowDA, rowG, rowShfl, rowVote, P.noE, P.noM, P.noEM, h]
  | pbarWait g d a b clu =>
    simp only [Instr.wf, Bool.and_eq_true] at h
    cases d <;> exact ⟨_, _, rfl, by simp [decodeCross, fAB, blank, row, P.noE, h]⟩
  | scale _ _ _ _ e => cases e <;> exact absurd hop Bool.false_ne_true
  | pack _ _ p => cases p <;> exact absurd hop Bool.false_ne_true
  | _ => exact absurd hop Bool.false_ne_true

theorem decodeControl_fields {env : DecodeEnv} {i : Instr} (hop : i.inPage 0x100 0x140 = true) (h : i.wf env = true) :
    ∃ g f, i.fields = some (g, f) ∧ decodeControl env (g.fields f) = some (.ok i) := by
  cases i with
  | bra | brx | call | calli | ret | join | waitj | dropj | exit | yield | nop | bpt | trap | rftResume | rftTo =>
    refine ⟨_, _, rfl, ?_⟩
    simp only [Instr.wf, Bool.and_eq_true] at h
    simp [decodeControl, blank, row, rowG, P.noE, P.noM, P.noEM, h]
  | scale _ _ _ _ e => cases e <;> exact absurd hop Bool.false_ne_true
  | pack _ _ p => cases p <;> exact absurd hop Bool.false_ne_true
  | _ => exact absurd hop Bool.false_ne_true

theorem decodeMem_fields {env : DecodeEnv} {i : Instr} (hop : i.inPage 0x140 0x1C0 = true) (h : i.wf env = true) :
    ∃ g f, i.fields = some (g, f) ∧ decodeMem env (g.fields f) = some (.ok i) := by
  cases i with
  | ldf | stf | lds | sts | ats | ldc | stc | atc | ldg | stg | atg | redg | pf | ldt | ldh | sth | ath | redh | cpy |
  cpyx | synci | fence | fenceXp | fencePt | publish =>
    refine ⟨_, _, rfl, ?_⟩
    simp only [Instr.wf, Bool.and_eq_true] at h
    simp [decodeMem, fDA, fDAB, fDABC, fAB, fLoad, fStore, fAtom, fRed, blank, row, rowG, rowLoad, rowStore, rowAtom, rowRed,
      P.noE, P.noM, P.noEM, h]
  | syncw g d a b clu =>
    simp only [Instr.wf, Bool.and_eq_true] at h
    cases d <;> exact ⟨_, _, rfl, by simp [decodeMem, fAB, blank, row, P.noE, h]⟩
  | scale _ _ _ _ e => cases e <;> exact absurd hop Bool.false_ne_true
  | pack _ _ p => cases p <;> exact absurd hop Bool.false_ne_true
  | _ => exact absurd hop Bool.false_ne_true

theorem decodeSpan_fields {env : DecodeEnv} {i : Instr} (hop : i.inPage 0x1C0 0x1E0 = true) (h : i.wf env = true) :
    ∃ g f, i.fields = some (g, f) ∧ decodeSpan env (g.fields f) = some (.ok i) := by
  cases i with
  | hitch | unhitch | spanAcq | spanRel | spanZero | spanStat | spanRbox | spanLoop | spanMmaBf16 | spanMmaE4m3 |
  spanMmaE5m2 | spanMmaE2m1 | spanMmaW4bf | spanMmaWf4bf | spanMmaE4m3B32 | spanMmaE5m2B32 | spanMmaE2m1B32 =>
    refine ⟨_, _, rfl, ?_⟩
    simp only [Instr.wf, Bool.and_eq_true] at h
    simp [decodeSpan, blank, row, rowG, rowMmaC, MmaOps.fields, P.noM, P.noEM, h]
  | spanRelSt g d a b shw =>
    simp only [Instr.wf, Bool.and_eq_true] at h
    cases shw <;> exact ⟨_, _, rfl, by simp [decodeSpan, blank, row, P.noE, h]⟩
  | scale _ _ _ _ e => cases e <;> exact absurd hop Bool.false_ne_true
  | pack _ _ p => cases p <;> exact absurd hop Bool.false_ne_true
  | _ => exact absurd hop Bool.false_ne_true

theorem decodeSys_fields {env : DecodeEnv} {i : Instr} (hop : i.inPage 0x1E0 0x200 = true) (h : i.wf env = true) :
    ∃ g f, i.fields = some (g, f) ∧ decodeSys env (g.fields f) = some (.ok i) := by
  cases i with
  | rastEmit | pixOrd | pixBlend | pixLd | enq | enqg | dhops | savewC | savewV | savewS | restwC | restwV | restwS |
  yieldSaved =>
    refine ⟨_, _, rfl, ?_⟩
    simp only [Instr.wf, decide_eq_true_eq, Bool.and_eq_true] at h
    simp [decodeSys, fDA, fDAB, fDABC, fAB, blank, row, rowDAB, rowG, rowSave, P.noE, P.noM, P.noEM, h]
  | scale _ _ _ _ e => cases e <;> exact absurd hop Bool.false_ne_true
  | pack _ _ p => cases p <;> exact absurd hop Bool.false_ne_true
  | _ => exact absurd hop Bool.false_ne_true

/-- The row of a full word's opcode, where it has one (R92). -/
def rowOf (env : DecodeEnv) (f : Fields) : Option (P Instr) :=
  if f.op < 0x040 then decodeInt env f
  else if f.op < 0x080 then decodeFloat env f
  else if f.op < 0x0C0 then decodeNarrow env f
  else if f.op < 0x100 then decodeCross env f
  else if f.op < 0x140 then decodeControl env f
  else if f.op < 0x1C0 then decodeMem env f
  else if f.op < 0x1E0 then decodeSpan env f
  else decodeSys env f

theorem decodeFull_of_row {env : DecodeEnv} {w : Word64} {p : P Instr} (h : rowOf env (fieldsOf w) = some p) :
    decodeFull env w = p := by
  unfold rowOf at h
  unfold decodeFull
  dsimp only
  rw [h]

theorem Instr.inPage_iff {i : Instr} {g : Guard} {f : Fields} (hf : i.fields = some (g, f)) {lo hi : Nat} :
    i.inPage lo hi = true ↔ lo ≤ f.op ∧ f.op < hi := by
  simp [Instr.inPage, hf]


/-! Every field of an encoded instruction lies within its bits. -/

section
variable {n : Nat}

theorem bit_lt_of_le (hn : 2 ≤ n) (b : Bool) : bit b < n := Nat.lt_of_lt_of_le (bit_lt b) hn
theorem PComb.code_lt_of_le (hn : 16 ≤ n) (c : PComb) : c.code < n := Nat.lt_of_lt_of_le c.code_lt hn
theorem FpMode.code_lt_of_le (hn : 8 ≤ n) (m : FpMode) : m.code < n := Nat.lt_of_lt_of_le m.code_lt hn
theorem FCompare.code_lt_of_le (hn : 64 ≤ n) (c : FCompare) : c.code < n := Nat.lt_of_lt_of_le c.code_lt hn
theorem rnd_bit_lt_of_le (hn : 8 ≤ n) (r : Rnd) (b : Bool) : r.code + 4 * bit b < n := Nat.lt_of_lt_of_le (rnd_bit_lt r b) hn
theorem bits_lt_of_le (hn : 4 ≤ n) (a b : Bool) : bit a + 2 * bit b < n := Nat.lt_of_lt_of_le (bits_lt a b) hn

end

theorem ICmp.code_bit_lt (c : ICmp) (z : Bool) : c.code + 8 * bit z < 256 := by
  have := c.code_lt
  have := bit_lt z
  omega

theorem copy_bit_lt (c : CpyDir) (b : Bool) : c.code + 8 * bit b < 16 := by
  have := c.code_lt
  have := bit_lt b
  omega

theorem cvt_mod_lt (r : Rnd) (sat sr : Bool) : r.code + 4 * bit sat + 8 * bit sr < 16 := by
  have := rnd_bit_lt r sat
  have := bit_lt sr
  omega

theorem CvtTy.codes_lt (x y : CvtTy) : 16 * x.code + y.code < 256 := by
  have := x.code_lt
  have := y.code_lt
  omega

theorem MmaOps.tiles_lt (o : MmaOps) : o.tiles < 256 := by
  unfold MmaOps.tiles
  omega

theorem byte_toNat_lt (x : BitVec 8) : x.toNat < 256 := x.isLt

theorem Instr.fields_fits {i : Instr} {g : Guard} {f : Fields} (hf : i.fields = some (g, f)) : (g.fields f).Fits := by
  cases i with
  | scale g d a b e8 fm =>
    have hm := fm.code_lt
    cases e8 <;> simp only [Instr.fields, Option.some.injEq, Prod.mk.injEq] at hf <;> obtain ⟨rfl, rfl⟩ := hf <;>
      apply Guard.fields_fits <;> simp [fDA, fDAB, blank, FpMode.code_lt_of_le, Fin.val_lt_of_le]
    omega
  | pack g d p =>
    cases p <;> simp only [Instr.fields, Option.some.injEq, Prod.mk.injEq] at hf <;> obtain ⟨rfl, rfl⟩ := hf <;>
      apply Guard.fields_fits <;> simp [blank, PackForm.fields]
  | spanRelSt g d a b shw =>
    cases shw <;> simp only [Instr.fields, Option.some.injEq, Prod.mk.injEq] at hf <;> obtain ⟨rfl, rfl⟩ := hf <;>
      apply Guard.fields_fits <;> simp [blank, Fin.val_lt_of_le] <;> omega
  | _ =>
    simp only [Instr.fields, Option.some.injEq, Prod.mk.injEq, reduceCtorEq] at hf <;>
    (obtain ⟨rfl, rfl⟩ := hf
     apply Guard.fields_fits <;> simp [fDA, fDAB, fDABC, fAB, fCmp, fLoad, fStore, fAtom, fRed, fShfl, MmaOps.fields, blank,
      Fin.val_lt_of_le, bit_lt_of_le, PComb.code_lt_of_le, FpMode.code_lt_of_le, FCompare.code_lt_of_le, rnd_bit_lt_of_le,
      bits_lt_of_le, ICmp.code_bit_lt, copy_bit_lt, cvt_mod_lt, CvtTy.codes_lt, MmaOps.tiles_lt, byte_toNat_lt] <;> omega)

/-! Pair words (R67 to R69). -/

theorem PairHalf.codes_lt (x : PairHalf) :
    x.codes.1 < 128 ∧ x.codes.2.1 < 256 ∧ x.codes.2.2.1 < 256 ∧ x.codes.2.2.2 < 256 := by
  cases x with
  | empty => decide
  | op o d a b => exact ⟨Nat.lt_succ_of_lt o.code_lt, d.code_lt, a.code_lt, optCode_lt b⟩

theorem pHalf_codes {b : Nat} {x : PairHalf} (h : x.ok b = true) :
    pHalf b x.codes.1 x.codes.2.1 x.codes.2.2.1 x.codes.2.2.2 = .ok x := by
  cases x with
  | empty => rfl
  | op o d a y =>
    have ho : o.code ≠ 0x7F := Nat.ne_of_lt o.code_lt
    simp only [PairHalf.ok, Bool.and_eq_true] at h
    cases y with
    | none =>
      obtain ⟨⟨hd, ha⟩, h2⟩ := h
      simp [pHalf, PairHalf.codes, ho, hd, ha, Bool.not_eq_true' _ ▸ h2, optCode]
    | some y =>
      obtain ⟨⟨hd, ha⟩, hy⟩ := h
      obtain ⟨h2, hy⟩ := Bool.and_eq_true_iff.1 hy
      simp [pHalf, PairHalf.codes, ho, hd, ha, h2, hy, optCode]

theorem encodePair_fields (x y : PairHalf) (lo n : Nat) : fld (encodePair x y) lo n = (2 * 2 ^ 62 + x.codes.1 * 2 ^ 55
    + x.codes.2.1 * 2 ^ 47 + x.codes.2.2.1 * 2 ^ 39 + x.codes.2.2.2 * 2 ^ 31 + y.codes.1 * 2 ^ 24 + y.codes.2.1 * 2 ^ 16
    + y.codes.2.2.1 * 2 ^ 8 + y.codes.2.2.2) / 2 ^ lo % 2 ^ n := by
  have hx := x.codes_lt
  have hy := y.codes_lt
  exact fld_ofNat (by omega) lo n

theorem kindOf_encodePair (x y : PairHalf) : kindOf (encodePair x y) = .pair := by
  have hx := x.codes_lt
  have hy := y.codes_lt
  unfold kindOf
  rw [encodePair_fields, encodePair_fields, if_neg (by omega), if_pos (by omega)]

theorem decodePair_encodePair {env : DecodeEnv} {x y : PairHalf} (h : (Instr.pair x y).wf env = true) :
    decodePair env (encodePair x y) = .ok (.pair x y) := by
  simp only [Instr.wf, Bool.and_eq_true] at h
  obtain ⟨⟨⟨hx, hy⟩, hd⟩, hr⟩ := h
  have hx' := x.codes_lt
  have hy' := y.codes_lt
  have x1 : fld (encodePair x y) 55 7 = x.codes.1 := by rw [encodePair_fields]; omega
  have x2 : fld (encodePair x y) 47 8 = x.codes.2.1 := by rw [encodePair_fields]; omega
  have x3 : fld (encodePair x y) 39 8 = x.codes.2.2.1 := by rw [encodePair_fields]; omega
  have x4 : fld (encodePair x y) 31 8 = x.codes.2.2.2 := by rw [encodePair_fields]; omega
  have y1 : fld (encodePair x y) 24 7 = y.codes.1 := by rw [encodePair_fields]; omega
  have y2 : fld (encodePair x y) 16 8 = y.codes.2.1 := by rw [encodePair_fields]; omega
  have y3 : fld (encodePair x y) 8 8 = y.codes.2.2.1 := by rw [encodePair_fields]; omega
  have y4 : fld (encodePair x y) 0 8 = y.codes.2.2.2 := by rw [encodePair_fields]; omega
  simp [decodePair, x1, x2, x3, x4, y1, y2, y3, y4, pHalf_codes hx, pHalf_codes hy, hd, hr]

/-! Every page of the opcode map, and so every word. -/

theorem rowOf_fields {env : DecodeEnv} {i : Instr} {g : Guard} {f : Fields} (hf : i.fields = some (g, f)) (h : i.wf env = true) :
    rowOf env (g.fields f) = some (.ok i) := by
  have hop : f.op < 0x200 := by simpa using (Instr.fields_fits hf).op
  have page {lo hi : Nat} {table : Fields → Option (P Instr)} (hlo : lo ≤ f.op) (hhi : f.op < hi)
      (ht : i.inPage lo hi = true → ∃ g f, i.fields = some (g, f) ∧ table (g.fields f) = some (.ok i)) :
      table (g.fields f) = some (.ok i) := by
    obtain ⟨g', f', hf', hrow⟩ := ht ((Instr.inPage_iff hf).2 ⟨hlo, hhi⟩)
    cases hf.symm.trans hf'
    exact hrow
  unfold rowOf
  rw [Guard.fields_op]
  split_ifs with h1 h2 h3 h4 h5 h6 h7
  · exact page (Nat.zero_le _) h1 (decodeInt_fields · h)
  · exact page (Nat.le_of_not_lt h1) h2 (decodeFloat_fields · h)
  · exact page (Nat.le_of_not_lt h2) h3 (decodeNarrow_fields · h)
  · exact page (Nat.le_of_not_lt h3) h4 (decodeCross_fields · h)
  · exact page (Nat.le_of_not_lt h4) h5 (decodeControl_fields · h)
  · exact page (Nat.le_of_not_lt h5) h6 (decodeMem_fields · h)
  · exact page (Nat.le_of_not_lt h6) h7 (decodeSpan_fields · h)
  · exact page (Nat.le_of_not_lt h7) hop (decodeSys_fields · h)

theorem decode_of_parse {env : DecodeEnv} {w : Word64} {i : Instr} (h : parseWord env w = .ok i) : decode env w = .ok i := by
  unfold decode
  rw [h]
  rfl

/-- Only a pair has a word that does not hold the fields of a full instruction (R61). -/
theorem encode_of_not_pair {i : Instr} (hp : ∀ x y, i ≠ .pair x y) :
    encode i = i.fields.map (fun x => packFields (x.1.fields x.2)) := by
  rw [encode]
  · rcases i.fields with _ | ⟨g, f⟩ <;> rfl
  · exact hp

/-- The word of a full instruction, and its reading (R61). -/
theorem encode_full {env : DecodeEnv} {i : Instr} {g : Guard} {f : Fields} (hf : i.fields = some (g, f)) (h : i.wf env = true) :
    encode i = some (packFields (g.fields f)) ∧ kindOf (packFields (g.fields f)) = .full
      ∧ decode env (packFields (g.fields f)) = .ok i := by
  have fits := Instr.fields_fits hf
  have kind := kindOf_packFields fits
  refine ⟨?_, kind, decode_of_parse ?_⟩
  · rw [encode_of_not_pair (fun x y e => by subst e; cases hf), hf]
    rfl
  · rw [parseWord, kind]
    exact decodeFull_of_row (by rw [fieldsOf_packFields fits, rowOf_fields hf h])

/-- The word of a pair, and its reading (R67). -/
theorem encode_pair {env : DecodeEnv} {x y : PairHalf} (h : (Instr.pair x y).wf env = true) :
    encode (.pair x y) = some (encodePair x y) ∧ kindOf (encodePair x y) = .pair ∧ decode env (encodePair x y) = .ok (.pair x y) := by
  refine ⟨rfl, kindOf_encodePair x y, decode_of_parse ?_⟩
  rw [parseWord, kindOf_encodePair]
  exact decodePair_encodePair h

end Sys2Proof

section
open Sys2Proof

/-- Settles O58: the word of a full instruction holds its fields, whose row reads every operand back; a pair's word holds its halves. -/
theorem decodeEncode : Obligations.DecodeEncode := by
  intro env i _ h
  rcases hf : i.fields with _ | ⟨g, f⟩
  · by_cases hp : ∃ x y, i = .pair x y
    · obtain ⟨x, y, rfl⟩ := hp
      obtain ⟨word, kind, read⟩ := encode_pair h
      rw [word]
      refine ⟨fun w hw => ?_, fun _ => Option.some_ne_none _⟩
      cases hw
      exact ⟨read, by rw [kind]; decide⟩
    · rw [encode_of_not_pair (fun x y e => hp ⟨x, y, e⟩), hf]
      exact ⟨fun w hw => (nomatch hw), fun k => absurd k (by simp [hp])⟩
  · obtain ⟨word, kind, read⟩ := encode_full hf h
    rw [word]
    refine ⟨fun w hw => ?_, fun _ => Option.some_ne_none _⟩
    cases hw
    exact ⟨read, by rw [kind]; decide⟩

end

/-! Results of one register or one pair, and of a pair word: what `exec` unfolds to is what the shared lemmas complete. -/

namespace Sys2Proof.Machine

/-! `exec` at the FP64 instructions that read or write other than two pairs. -/

theorem exec_dfma (g : Guard) (d : Dst) (a b c : Src) (sm : Sys2Proof.SMod) (fm : FpMode) (s : State) :
    exec (.dfma g d a b c sm fm) s = execDfma g d a b c sm fm s := rfl

theorem exec_frnd_wide (g : Guard) (d : Dst) (a : Src) (rnd : Rnd) (s : State) :
    exec (.frnd g d a rnd true) s = regIssue g (a.regsRun 2) (d.regsRun 2) false (fun x =>
      (x.rf.write64 d x.q (fun l => (fp64.roundIntegral rnd (a.read64 x.rf x.lit .fp l).toNat).w64.1),
        orLanes x.q (fun l => (fp64.roundIntegral rnd (a.read64 x.rf x.lit .fp l).toNat).w64.2))) s := rfl

theorem exec_fclass_wide (g : Guard) (d : Dst) (a : Src) (s : State) :
    exec (.fclass g d a true) s = regIssue g (a.regsRun 2) d.regs false (fun x =>
      noFlags (x.rf.write d x.q (fun l => BitVec.ofNat 32 (fp64.classify (a.read64 x.rf x.lit .fp l).toNat)))) s := rfl

end Sys2Proof.Machine

section
open Sys2Proof Sys2Proof.Machine

/-- Settles O8: DADD, DMUL, DFMA and FRND.64 write one register pair, FCLASS.64 one register. -/
theorem float64 : Obligations.Float64 := by
  refine ⟨fun s i g d a b sm fm => ?_, fun s i g d a b c sm fm => ?_, fun s i g d a rnd => ⟨fun h hu => ?_, fun h => ?_⟩⟩
  · intro x y h
    simp only [List.forall_mem_cons, List.not_mem_nil, false_implies, implies_true, and_true]
    exact ⟨fun hu => op2w_completes (f := fun x y => (faddV fp64 sm fm x.toNat y.toNat).w64) rfl h hu,
      fun hu => op2w_completes (f := fun x y => (fmulV fp64 sm fm x.toNat y.toNat).w64) rfl h hu⟩
  · intro r h hu
    exact reg64_completes (fun l => (BitVec.ofNat 64 (r l).bits, (r l).fl)) (exec_dfma ..) rfl h hu
  · exact reg64_completes (fun l => (fp64.roundIntegral rnd (i.val64 a .fp l).toNat).w64) (exec_frnd_wide ..) rfl h hu
  · exact reg32_completes (fun l => (BitVec.ofNat 32 (fp64.classify (i.val64 a .fp l).toNat), 0)) (exec_fclass_wide ..)
      (by rw [orLanes_zero]; rfl) h (untrapped_satc fun _ => .inl rfl)

end

namespace Sys2Proof.Machine

/-- Where a half writes: the discarding destination for an empty one (R68). -/
def halfDst : PairHalf → Dst
  | .empty => .zero
  | .op _ d _ _ => d

theorem writesRun_halfWrite (h : PairHalf) (rf : RegFile) (q : LaneMask) (f : Nat → Word) :
    WritesRun rf (halfWrite h rf q f) (halfDst h) 1 q (fun _ => f) 0 := by
  cases h with
  | empty => exact writesRun_write rf .zero q f
  | op o d a b => exact writesRun_write rf d q f

theorem exec_pair (h1 h2 : PairHalf) (s : State) : exec (.pair h1 h2) s = execPair h1 h2 s := rfl

/-- The operations of one source set no flag. -/
theorem pairV_one_flags {o : PairOp} (ho : o.two = false) (x y : Word) : (pairV o x y).2 = 0 := by
  cases o with
  | mov | ineg | iabs | brev | popc | clz | ctz => rfl
  | _ => cases ho

end Sys2Proof.Machine

section
open Sys2Proof Sys2Proof.Machine

/-- Settles O13: both halves are functions of the registers before, written one after the other, and each operation of the map is its
full form without modifiers. -/
theorem pairWord : Obligations.PairWord := by
  refine ⟨fun s i h1 h2 => ?_, fun s i g d a b => ?_⟩
  · extract_lets dst v
    intro h hu
    have hdst : ∀ x, dst x = halfDst x := fun x => by cases x <;> rfl
    rw [hdst, hdst]
    exact regIssue_completes (exec_pair ..) h hu.no_trap ⟨_, writesRun_halfWrite h1 .., writesRun_flags (writesRun_halfWrite h2 ..) _⟩
  · extract_lets plain rne two one
    have full : ∀ row ∈ two, exec row.2 s = op2 g d a b (pairV row.1) s := by
      subst plain rne two
      simp only [List.forall_mem_cons, List.not_mem_nil, false_implies, implies_true, and_true]
      and_intros <;> rfl
    have full1 : ∀ row ∈ one, row.1.two = false ∧ exec row.2 s = op1 g d a false (fun x => pairV row.1 x 0) s := by
      subst one
      simp only [List.forall_mem_cons, List.not_mem_nil, false_implies, implies_true, and_true]
      and_intros <;> rfl
    refine ⟨fun h row hrow hu => op2_completes (full row hrow) h hu, fun h row hrow => ?_⟩
    obtain ⟨ho, hx⟩ := full1 row hrow
    exact op1_completes hx h (untrapped_satc fun l => .inl (pairV_one_flags ho _ _))

/-- Settles O57: each word is decoded by computation. -/
theorem decodeWords : Obligations.DecodeWords := by
  unfold Obligations.DecodeWords
  decide

end

/-! The special functions: one function of the operand for each, whose listed values are computed. -/

namespace Sys2Proof.Machine

/-- A special function has the listed results and flags, and R154's at a signalling and a quiet NaN. -/
def hasValues (F : Nat → FpRes) (rows : List (Word × Word × BitVec 6)) : Bool :=
  rows.all (fun e => (F e.1.toNat).w32 == e.2) && (F 0x7F800001).w32 == (0x7FC00000, 1) && (F 0x7FC12345).w32 == (0x7FC00000, 0)

/-- Where no trap is enabled, every word completes. -/
theorem untrapped_of_trapEn_zero {s : State} {i : Issue} (h : (s.descOf i.w).trapEn = 0) (g : Guard) (fl : Nat → BitVec 6) :
    Untrapped s i g fl := by
  intro l _
  rw [h]
  exact BitVec.and_zero

/-- A special function completes with its rounded value. -/
theorem special_completes {s : State} {i : Issue} {g : Guard} {d : Dst} {a : Src} {ins : Instr} (F : Nat → FpRes)
    (hx : exec ins s = op1 g d a true (fun x => (F x.toNat).w32) s)
    (h : Ready s i false (g.regs ++ a.regs ++ d.regs) d.regs) (hu : Untrapped s i g (fun l => (F (i.val a l).toNat).fl)) :
    Completes32 s i g ins d (fun l => (BitVec.ofNat 32 (F (i.val a l).toNat).bits, (F (i.val a l).toNat).fl)) :=
  op1_completes hx h hu

/-- Where no trap is enabled it completes in every state, with the values of its row of R154's table. -/
theorem special_completes_with_values {s : State} {i : Issue} {g : Guard} {d : Dst} {a : Src} {ins : Instr} (F : Nat → FpRes)
    {rows : List (Word × Word × BitVec 6)} (hx : exec ins s = op1 g d a true (fun x => (F x.toNat).w32) s)
    (h : Ready s i false (g.regs ++ a.regs ++ d.regs) d.regs) (ht : (s.descOf i.w).trapEn = 0) (hv : hasValues F rows = true) :
    ∃ f : Word → Word × BitVec 6, (∀ e ∈ rows, f e.1 = e.2) ∧ f 0x7F800001 = (0x7FC00000, 1) ∧ f 0x7FC12345 = (0x7FC00000, 0)
      ∧ Completes32 s i g ins d (fun l => f (i.val a l)) := by
  simp only [hasValues, Bool.and_eq_true, List.all_eq_true, beq_iff_eq] at hv
  obtain ⟨⟨hrows, hsignalling⟩, hquiet⟩ := hv
  exact ⟨fun x => (F x.toNat).w32, hrows, hsignalling, hquiet, op1_completes hx h (untrapped_of_trapEn_zero ht g _)⟩

end Sys2Proof.Machine

section
open Sys2Proof Sys2Proof.Machine

/-- Settles O12: each special function is one function of its operand, whose values at the special operands are computed. -/
theorem specialFunctions : Obligations.SpecialFunctions := by
  intro s i g d a h
  refine ⟨List.forall_iff_forall_mem.1 ?_, fun ht => List.forall_iff_forall_mem.1 ?_⟩
  · exact ⟨special_completes rcpF rfl h, special_completes rsqF rfl h, special_completes sqrtF rfl h, special_completes ex2F rfl h,
      special_completes lg2F rfl h, special_completes sinF rfl h, special_completes cosF rfl h, special_completes tanhF rfl h⟩
  · exact ⟨special_completes_with_values rcpF rfl h ht (by dsimp only; decide +kernel), special_completes_with_values rsqF rfl h ht (by dsimp only; decide +kernel),
      special_completes_with_values sqrtF rfl h ht (by dsimp only; decide +kernel), special_completes_with_values ex2F rfl h ht (by dsimp only; decide +kernel),
      special_completes_with_values lg2F rfl h ht (by dsimp only; decide +kernel), special_completes_with_values sinF rfl h ht (by dsimp only; decide +kernel),
      special_completes_with_values cosF rfl h ht (by dsimp only; decide +kernel), special_completes_with_values tanhF rfl h ht (by dsimp only; decide +kernel)⟩

end

/-! A word in which no lane qualifies (R63): the shared issue of its instruction lets the path move past it. -/

namespace Sys2Proof.Machine

/-- A word that moves past with its wave as it was, up to its count of words beyond the checkpoint, completes. -/
theorem completes_of_retire {s : State} {i : Issue} {ins : Instr} {j : Issue} (hi : s.issue? = some i)
    (hx : exec ins s = .next (s.retire j j.w)) (hj : j = i ∨ j = i.counted) : Completes s i ins (fun rf => rf = i.w.rf) := by
  have hp : s.retire j j.w = s.retire i j.w := by
    obtain rfl | rfl := hj <;> rfl
  obtain ⟨w', his, ha, hrf, _, _⟩ := retire_issued (s1 := s) j.w hi rfl rfl rfl (by obtain rfl | rfl := hj <;> rfl)
    (by obtain rfl | rfl := hj <;> rfl) (fun _ hd => by obtain rfl | rfl := hj <;> exact ⟨rfl, hd, rfl⟩)
  exact ⟨_, w', hx.trans (congrArg _ hp), his, ha, hrf.trans (by obtain rfl | rfl := hj <;> rfl)⟩

/-- The instruction `ins` is the word `t` of the shared issue of words that reach beyond registers. -/
theorem memWord_none {s : State} {i : Issue} {g : Guard} {ins : Instr} {l regs dests : List RegId}
    {f : State → Issue → LaneMask → Option State} (t : Out State) (he : exec ins s = t) (hx : t = memIssue g regs dests f s)
    (hl : regs ++ dests = l) (hq : i.lanes g = 0) (h : Ready s i true (g.regs ++ l) l) :
    Completes s i ins (fun rf => rf = i.w.rf) := by
  subst hl
  exact completes_of_retire h.here (he.trans (hx.trans (memIssue_none h hq))) (.inl rfl)

theorem load_none {s : State} {i : Issue} {g : Guard} {ins : Instr} {d : Dst} {a b : Src} {sz : LoadSize} {l : List RegId} (m : MemOp)
    (hx : exec ins s = loadIssue ins g d a b m sz s)
    (hl : (if m.space.mapped && m.space != .frame then a.regsRun 2 else a.regs) ++ b.regs ++ d.regsRun sz.regs = l)
    (hq : i.lanes g = 0) (h : Ready s i true (g.regs ++ l) l) : Completes s i ins (fun rf => rf = i.w.rf) :=
  memWord_none _ hx (by unfold loadIssue; rfl) hl hq h

theorem store_none {s : State} {i : Issue} {g : Guard} {ins : Instr} {a b c : Src} {sz : StoreSize} {l : List RegId} (m : MemOp)
    (hx : exec ins s = storeIssue ins g a b c m sz s)
    (hl : (if m.space.mapped && m.space != .frame then a.regsRun 2 else a.regs) ++ b.regs ++ c.regsRun sz.regs = l)
    (hq : i.lanes g = 0) (h : Ready s i true (g.regs ++ l) l) : Completes s i ins (fun rf => rf = i.w.rf) :=
  memWord_none _ hx (by unfold storeIssue; rfl) ((List.append_nil _).trans hl) hq h

/-- The registers of an optional operand, as a run of `n`. -/
def optRun (c : Option Src) (n : Nat) : List RegId := match c with | some x => x.regsRun n | none => []
def optDst (d : Option Dst) (n : Nat) : List RegId := match d with | some x => x.regsRun n | none => []

theorem atom_none {s : State} {i : Issue} {g : Guard} {ins : Instr} {d : Option Dst} {a b : Src} {c : Option Src} {o : AtomOp}
    {l : List RegId} {n : Nat} (m : MemOp) (hx : exec ins s = atomIssue ins g d a b c m o s) (hn : m.len / 4 = n)
    (hl : (if m.space.mapped then a.regsRun 2 else a.regs) ++ b.regsRun n ++ optRun c n ++ optDst d n = l)
    (hq : i.lanes g = 0) (h : Ready s i true (g.regs ++ l) l) : Completes s i ins (fun rf => rf = i.w.rf) := by
  subst hn
  exact memWord_none _ hx (by unfold atomIssue; rfl) hl hq h

/-- An atomic reads one register of an operand, or a pair where bit 2 of its attributes is set. -/
theorem atomLen_div (t : Attr) : t.atomLen / 4 = if t.bit2 then 2 else 1 := by
  unfold Attr.atomLen
  cases t.bit2 <;> rfl

theorem cpy_none {s : State} {i : Issue} {g : Guard} {a b : Src} {c : Option Src} {z : Fin 48} {shw : Bool} {l : List RegId} (dir : CpyDir)
    (hl : (if dir.srcDev then a.regsRun 2 else a.regs) ++ (if dir.dstDev then b.regsRun 2 else b.regs) ++ Src.regsOpt c
      ++ (Src.s z).regsRun 2 = l)
    (hq : i.lanes g = 0) (h : Ready s i true (g.regs ++ l) l) :
    Completes s i (.cpy g a b c z dir shw) (fun rf => rf = i.w.rf) :=
  memWord_none (execCpy g a b c z dir shw s) rfl (by unfold execCpy; rfl) ((List.append_nil _).trans hl) hq h

theorem save_none {s : State} {i : Issue} {g : Guard} {ins : Instr} {l regs dests : List RegId}
    {r : State → Issue → LaneMask → Option Nat} {f : State → Issue → LaneMask → State} (t : Out State) (he : exec ins s = t)
    (hx : t = saveIssue g regs dests r f s) (hl : regs ++ dests = l) (hq : i.lanes g = 0) (h : Ready s i true (g.regs ++ l) l) :
    Completes s i ins (fun rf => rf = i.w.rf) :=
  memWord_none _ (he.trans hx) rfl hl hq h

/-- The instruction `ins` is the word `t` of the shared issue of words that move paths. -/
theorem pathWord_none {s : State} {i : Issue} {g : Guard} {ins : Instr} {toks reads writes : List RegId}
    {f : State → Issue → LaneMask → Option State} (t : Out State) (he : exec ins s = t) (hx : t = pathIssue g toks reads writes f s)
    (hq : i.lanes g = 0) (h : ReadyPath s i g toks reads writes) : Completes s i ins (fun rf => rf = i.w.rf) :=
  completes_of_retire h.here (he.trans (hx.trans (pathIssue_none h hq))) (.inr rfl)

end Sys2Proof.Machine

section
open Sys2Proof Sys2Proof.Machine

/-- Settles O19: every row is a word of one of the two shared issues. -/
theorem noLaneQualifies : Obligations.NoLaneQualifies := by
  intro s i g a b c d oc od at_ ls ss name j r r2 n o z l2 clu die e op rows hq third result k
  refine ⟨List.forall_iff_forall_mem.1 ?_, List.forall_iff_forall_mem.1 ?_⟩
  · exact ⟨pathWord_none (execBra g s) rfl rfl hq, pathWord_none (execBrx g a s) rfl rfl hq, pathWord_none (execRet g a s) rfl rfl hq,
      pathWord_none (execJoin g j (some a) s) rfl rfl hq, pathWord_none (execWaitj g j s) rfl rfl hq,
      pathWord_none (execDropj g j (some a) s) rfl rfl hq, pathWord_none (execYield g s) rfl rfl hq,
      pathWord_none (execNop g s) rfl rfl hq, pathWord_none (execCall g r s) rfl rfl hq,
      pathWord_none (execCalli g r a s) rfl rfl hq⟩
  · exact ⟨memWord_none (execExit g s) rfl rfl rfl hq,
      memWord_none (execTrap g n s) rfl rfl rfl hq,
      memWord_none (execBpt g n s) rfl rfl rfl hq,
      memWord_none (execRftResume g s) rfl rfl rfl hq,
      memWord_none (execRftTo g a s) rfl rfl (List.append_nil _) hq,
      memWord_none (gbar false (.gbarGrid g) g s) rfl rfl rfl hq,
      memWord_none (gbar true (.gbarGang g) g s) rfl rfl rfl hq,
      memWord_none (execBarArr g name a s) rfl rfl (List.append_nil _) hq,
      memWord_none (execBarWait g name s) rfl rfl rfl hq,
      memWord_none (execBarSync g name a s) rfl rfl (List.append_nil _) hq,
      memWord_none (execPbarArr g a b clu s) rfl rfl (List.append_nil _) hq,
      memWord_none (execPbarWait g od a b clu s) rfl (by unfold execPbarWait; rfl) rfl hq,
      load_none ⟨.frame, at_, ls.bytes⟩ rfl rfl hq,
      load_none ⟨.scratch, at_, ls.bytes⟩ rfl rfl hq,
      load_none ⟨.cluster, at_, ls.bytes⟩ rfl rfl hq,
      load_none ⟨.device, at_, ls.bytes⟩ rfl rfl hq,
      load_none ⟨.sampler, at_, ls.bytes⟩ rfl rfl hq,
      load_none ⟨.host, at_, ls.bytes⟩ rfl rfl hq,
      store_none ⟨.frame, at_, ss.bytes⟩ rfl rfl hq,
      store_none ⟨.scratch, at_, ss.bytes⟩ rfl rfl hq,
      store_none ⟨.cluster, at_, ss.bytes⟩ rfl rfl hq,
      store_none ⟨.device, at_, ss.bytes⟩ rfl rfl hq,
      store_none ⟨.host, at_, ss.bytes⟩ rfl rfl hq,
      atom_none (d := some d) (c := oc) ⟨.scratch, at_, at_.atomLen⟩ rfl (atomLen_div _) rfl hq,
      atom_none (d := some d) (c := oc) ⟨.cluster, at_, at_.atomLen⟩ rfl (atomLen_div _) rfl hq,
      atom_none (d := some d) (c := oc) ⟨.device, at_, at_.atomLen⟩ rfl (atomLen_div _) rfl hq,
      atom_none (d := some d) (c := oc) ⟨.host, at_, at_.atomLen⟩ rfl (atomLen_div _) rfl hq,
      atom_none (d := none) (c := none) ⟨.device, at_, at_.atomLen⟩ rfl (atomLen_div _) (by rw [optRun, optDst, List.append_nil, List.append_nil]; rfl) hq,
      atom_none (d := none) (c := none) ⟨.host, at_, at_.atomLen⟩ rfl (atomLen_div _) (by rw [optRun, optDst, List.append_nil, List.append_nil]; rfl) hq,
      memWord_none (execPf g a b l2 s) rfl rfl (List.append_nil _) hq,
      cpy_none .d2s rfl hq,
      cpy_none .d2c rfl hq,
      cpy_none .s2d rfl hq,
      cpy_none .c2d rfl hq,
      cpy_none .d2d rfl hq,
      memWord_none (execCpyx g r b oc clu rows s) rfl rfl (List.append_nil _) hq,
      memWord_none (execSynci g a b oc clu s) rfl rfl (List.append_nil _) hq,
      memWord_none (execSyncw g od a b clu s) rfl (by unfold execSyncw; rfl) rfl hq,
      memWord_none (execFence g at_ s) rfl rfl rfl hq,
      memWord_none (execFenceXp g at_ s) rfl rfl rfl hq,
      memWord_none (execFencePt g s) rfl rfl rfl hq,
      memWord_none (execPublish g d a b c s) rfl rfl rfl hq,
      memWord_none (execRastEmit g r z r2 e s) rfl rfl (List.append_nil _) hq,
      memWord_none (execPixOrd g s) rfl rfl rfl hq,
      memWord_none (execPixLd g r s) rfl rfl rfl hq,
      memWord_none (execPixBlend g r op s) rfl rfl (List.append_nil _) hq,
      memWord_none (execEnq g d a b c die clu s) rfl rfl rfl hq,
      memWord_none (execEnqg g d a s) rfl rfl rfl hq,
      save_none (execSavewC g s) rfl rfl (List.append_nil _) hq,
      save_none (execRestwC g s) rfl rfl rfl hq,
      save_none (execSavewV g r n s) rfl rfl (List.append_nil _) hq,
      save_none (execRestwV g r n s) rfl rfl rfl hq,
      save_none (padSave (.savewS g a b) g a b s) rfl rfl (List.append_nil _) hq,
      save_none (padSave (.restwS g a b) g a b s) rfl rfl (List.append_nil _) hq,
      memWord_none (execYieldSaved g s) rfl rfl rfl hq⟩

end

/-! Taking a user trap (R377): where the wave's lanes stand when its last path stops. -/

namespace Sys2Proof.Machine

/-! ## Where the paths of a trap stand -/

/-- The path has stopped, and lane `l`, if it holds it, stands at `t`. -/
def Path.standsAt (l : Nat) (t : TrapPoint) (p : Path) : Prop := p.atStop = true ∧ (p.lanes.getLsbD l = true → p.trapPoint = t)

/-- A path joined to the one it is the same as stands where that one stood (R278). -/
theorem Path.standsAt_join {l : Nat} {t : TrapPoint} {p q : Path} (hs : p.same q = true) (hp : p.lanes ≠ 0 → p.standsAt l t)
    (hq : q.standsAt l t) : ({ q with lanes := p.lanes ||| q.lanes, passed := max p.passed q.passed } : Path).standsAt l t := by
  refine ⟨hq.1, fun h => ?_⟩
  rw [BitVec.getLsbD_or, Bool.or_eq_true] at h
  obtain h | h := h
  · have some_lane : p.lanes ≠ 0 := fun h0 => by simp [h0] at h
    exact (Path.same_spec hs).2.trans ((hp some_lane).2 h)
  · exact hq.2 h

theorem addPath_standsAt {l : Nat} {t : TrapPoint} {p : Path} (hp : p.lanes ≠ 0 → p.standsAt l t) {ps : List Path}
    (h : ∀ q ∈ ps, q.standsAt l t) : ∀ q ∈ addPath p ps, q.standsAt l t := by
  induction ps with
  | nil =>
    unfold addPath
    split
    · exact h
    · next some_lane => exact fun q hq => List.mem_singleton.1 hq ▸ hp some_lane
  | cons x ps ih =>
    obtain ⟨hx, hps⟩ := List.forall_mem_cons.1 h
    unfold addPath
    split
    · next hs => exact List.forall_mem_cons.2 ⟨Path.standsAt_join hs hp hx, hps⟩
    · exact List.forall_mem_cons.2 ⟨hx, ih hps⟩

/-- No lane is lost where a path is added. -/
theorem addPath_lane {l : Nat} {p : Path} {ps : List Path} (h : ∃ q ∈ p :: ps, q.lanes.getLsbD l = true) :
    ∃ q ∈ addPath p ps, q.lanes.getLsbD l = true := by
  simp only [List.exists_mem_cons_iff] at h
  induction ps with
  | nil =>
    have lane : p.lanes.getLsbD l = true := by simpa using h
    have some_lane : p.lanes ≠ 0 := fun h0 => by simp [h0] at lane
    exact ⟨p, by rw [addPath, if_neg some_lane]; exact List.mem_singleton_self p, lane⟩
  | cons x ps ih =>
    unfold addPath
    simp only [List.exists_mem_cons_iff] at h
    split
    · simp only [List.exists_mem_cons_iff, BitVec.getLsbD_or, Bool.or_eq_true]
      tauto
    · rw [List.exists_mem_cons_iff]
      obtain h | h | h := h
      · exact .inr (ih (.inl h))
      · exact .inl h
      · exact .inr (ih (.inr h))

theorem foldl_addPath_lane {l : Nat} {new ps : List Path} (h : ∃ q ∈ new ++ ps, q.lanes.getLsbD l = true) :
    ∃ q ∈ new.foldl (fun acc p => addPath p acc) ps, q.lanes.getLsbD l = true := by
  induction new generalizing ps with
  | nil => exact h
  | cons p new ih =>
    obtain ⟨q, hq, lane⟩ := h
    refine ih ?_
    by_cases hn : q ∈ new
    · exact ⟨q, List.mem_append_left _ hn, lane⟩
    · have : q ∈ p :: ps := by simpa [hn] using hq
      obtain ⟨x, hx, lane⟩ := addPath_lane ⟨q, this, lane⟩
      exact ⟨x, List.mem_append_right _ hx, lane⟩

theorem foldl_addPath_standsAt {l : Nat} {t : TrapPoint} {new ps : List Path} (hnew : ∀ p ∈ new, p.lanes ≠ 0 → p.standsAt l t)
    (h : ∀ q ∈ ps, q.standsAt l t) : ∀ q ∈ new.foldl (fun acc p => addPath p acc) ps, q.standsAt l t := by
  induction new generalizing ps with
  | nil => exact h
  | cons p new ih =>
    obtain ⟨hp, hnew⟩ := List.forall_mem_cons.1 hnew
    exact ih hnew (addPath_standsAt hp h)

/-- The paths put in the place of those of some lanes stand where they are put, if the others have stopped. -/
theorem replacePath_standsAt {l : Nat} {t : TrapPoint} {ps new : List Path} {q : LaneMask} (hl : q.getLsbD l = true)
    (hstop : ∀ p ∈ ps, p.lanes &&& q = 0 → p.atStop = true) (hnew : ∀ p ∈ new, p.lanes ≠ 0 → p.standsAt l t) :
    ∀ p ∈ replacePath ps q new, p.standsAt l t := by
  refine foldl_addPath_standsAt hnew fun p hp => ?_
  obtain ⟨hp, apart⟩ := List.mem_filter.1 hp
  rw [beq_iff_eq] at apart
  refine ⟨hstop p hp apart, fun h => ?_⟩
  have := congrArg (fun m : LaneMask => m.getLsbD l) apart
  simp [h, hl] at this

/-- A lane has the trap point at which every path that holds it stands. -/
theorem find_trapPoints_standsAt {ps : List Path} {l : Nat} {t : TrapPoint} (h32 : l < 32) (some_path : ∃ p ∈ ps, p.lanes.getLsbD l = true)
    (h : ∀ p ∈ ps, p.standsAt l t) : Map.find (trapPoints ps) l = some t := by
  have fold (qs : List Path) (m : Map TrapPoint) (hq : ∀ q ∈ qs, q.standsAt l t)
      (hm : (∃ p ∈ qs, p.lanes.getLsbD l = true) ∨ Map.find m l = some t) :
      Map.find (qs.foldl (fun m p => (lanesOf p.lanes).foldl (fun m l => Map.ins m l p.trapPoint) m) m) l = some t := by
    induction qs generalizing m with
    | nil => simpa using hm
    | cons q qs ih =>
      obtain ⟨stands, hqs⟩ := List.forall_mem_cons.1 hq
      refine ih _ hqs ?_
      rw [Map.find_foldl_ins]
      by_cases lane : q.lanes.getLsbD l = true
      · rw [if_pos ((mem_lanesOf _ _).2 ⟨h32, lane⟩), stands.2 lane]
        exact .inr rfl
      · rw [if_neg fun h => lane ((mem_lanesOf _ _).1 h).2]
        rw [List.exists_mem_cons_iff] at hm
        exact hm.imp_left fun h => h.resolve_left lane
  exact fold ps [] h (.inl some_path)

/-! ## The trap is taken -/

/-- The issuing path is the current lane's, inside its clause before that ends. -/
theorem issue?_path {s : State} {i : Issue} (h : s.issue? = some i) :
    i.p ∈ i.w.paths ∧ (∃ l, i.p.lanes.getLsbD l = true) ∧ i.p.clause = some i.c ∧ i.c.idx < i.c.words.length := by
  unfold State.issue? at h
  split at h
  · cases h
  · split at h
    · cases h
    · split at h
      · cases h
      · next hp =>
        split at h
        · cases h
        · next hc =>
          split at h
          · next hx =>
            cases h
            exact ⟨List.mem_of_find?_eq_some hp, ⟨_, by simpa using List.find?_some hp⟩, hc, hx⟩
          · cases h

theorem State.queueEvents_rest (e : Path → DbgEvent) (l : List Path) (s : State) :
    ∃ m, l.foldl (fun t p => t.queueEvent (e p)) s = { s with mail := m } := by
  induction l generalizing s with
  | nil => exact ⟨s.mail, rfl⟩
  | cons p l ih =>
    obtain ⟨m, hm⟩ := ih (s.queueEvent (e p))
    exact ⟨m, hm⟩

/-- The end of a step only queues events. -/
theorem State.noteStep_rest (s : State) (b : Wave) : ∃ m, s.noteStep b = { s with mail := m } := by
  unfold State.noteStep
  split
  · exact ⟨s.mail, rfl⟩
  · exact State.queueEvents_rest (fun p => s.dbgEvent _ 2 0 p.lanes p.trapPoint.pc) _ s

/-- The wave of a trap that waits, with `rf` for its registers. -/
def Issue.trapping (i : Issue) (rf : RegFile) (code : Nat) (new : List Path) : Wave :=
  { i.w with rf := rf, paths := replacePath i.w.paths i.p.lanes new, trap := { i.w.trap with pend := some code } }

/-- Outside a handler, with a handler to go to and no trap waiting, a user trap waits for the wave's paths and is taken if they have
stopped. -/
theorem raiseTrap_eq {s : State} {i : Issue} (ht : Trappable s i) (rf : RegFile) (code : Nat) (new : List Path) :
    s.raiseTrap i { i.w with rf := rf } code new = (s.putWave (i.trapping rf code new)).settleTrap i.w.uid := by
  obtain ⟨out, handler, pend, -, -⟩ := ht
  have handler' : (s.descOf { i.w with rf := rf }).handler ≠ 0 := handler
  simp only [State.raiseTrap, out, handler', pend, Bool.false_eq_true, if_false, Option.isSome_none, Issue.trapping]

/-- A waiting trap whose wave has stopped is taken; a step that ends with it queues its events. -/
theorem settleTrap_taken {s : State} {w : Wave} {code : Nat} (h : s.wave? w.uid = some w) (pend : w.trap.pend = some code)
    (ahead : w.behind = false) (stopped : w.paths.all Path.atStop = true) :
    ∃ m, s.settleTrap w.uid = { s.putWave (w.enterTrap (s.descOf w).handler code) with mail := m } := by
  obtain ⟨m, hm⟩ := State.noteStep_rest (s.putWave (w.enterTrap (s.descOf w).handler code)) w
  refine ⟨m, ?_⟩
  rw [← hm]
  simp only [State.settleTrap, h, pend, ahead, stopped, Bool.not_false, Bool.and_self, if_true]

/-- A WAITING TRAP IS TAKEN (R377) where the paths put in the place of the issuing one have stopped, each lane of it at `pt`. -/
theorem raiseTrap_taken {s : State} {i : Issue} {rf : RegFile} {code : Nat} {new : List Path} {pt : TrapPoint}
    (hi : s.issue? = some i) (ht : Trappable s i) (hb : i.w.behind = false)
    (hnew : ∀ p ∈ new, p.lanes ≠ 0 → p.atStop = true ∧ p.trapPoint = pt)
    (hall : ∀ l, i.p.lanes.getLsbD l = true → ∃ p ∈ new, p.lanes.getLsbD l = true) :
    ∃ w', TrapTaken s (s.raiseTrap i { i.w with rf := rf } code new) i code pt w' ∧ w'.rf = rf := by
  rw [raiseTrap_eq ht]
  obtain ⟨-, -, -, live, stopped⟩ := ht
  have stands {l : Nat} (hl : i.p.lanes.getLsbD l = true) : ∀ p ∈ (i.trapping rf code new).paths, p.standsAt l pt :=
    replacePath_standsAt hl stopped fun p hp h => ⟨(hnew p hp h).1, fun _ => (hnew p hp h).2⟩
  obtain ⟨-, ⟨l0, hl0⟩, -, -⟩ := issue?_path hi
  have put : (s.putWave (i.trapping rf code new)).wave? i.w.uid = some (i.trapping rf code new) :=
    wave?_putWave_self s (i.trapping rf code new) i.w (issue?_wave s i hi)
  obtain ⟨m, hm⟩ := settleTrap_taken (w := i.trapping rf code new) put rfl hb
    (List.all_eq_true.2 fun p hp => (stands hl0 p hp).1)
  have hm : (s.putWave (i.trapping rf code new)).settleTrap i.w.uid = _ := hm
  rw [hm]
  refine ⟨(i.trapping rf code new).enterTrap (s.descOf i.w).handler code, ⟨?_, fun u hu => ?_, rfl, fun _ => rfl, ⟨rfl, rfl, rfl, rfl, rfl⟩,
    fun l h32 hl => ?_, ⟨_, if_neg live, rfl, rfl, rfl, rfl⟩, rfl⟩, rfl⟩
  · exact wave?_putWave_self _ ((i.trapping rf code new).enterTrap (s.descOf i.w).handler code) _ put
  · exact (wave?_putWave_other _ ((i.trapping rf code new).enterTrap (s.descOf i.w).handler code) u hu).trans
      (wave?_putWave_other s (i.trapping rf code new) u hu)
  · obtain ⟨p, hp, lane⟩ := hall l hl
    exact find_trapPoints_standsAt h32 (foldl_addPath_lane ⟨p, List.mem_append_left _ hp, lane⟩) (stands hl)

/-- A user trap at its own word. -/
theorem userTrap_taken {s : State} {i : Issue} (rf : RegFile) (code : Nat) (hi : s.issue? = some i) (ht : Trappable s i)
    (hb : i.w.behind = false) : ∃ w', TrapTaken s (s.userTrap i { i.w with rf := rf } code) i code
      { hdr := i.c.addr, idx := i.c.idx + 1, waitOnly := i.p.waitOnly } w' ∧ w'.rf = rf := by
  obtain ⟨-, -, clause, -⟩ := issue?_path hi
  refine raiseTrap_taken hi ht hb (fun p hp _ => ?_) fun l hl => ⟨_, List.mem_singleton_self _, hl⟩
  obtain rfl := List.mem_singleton.1 hp
  exact ⟨by simp [Path.atStop], by simp [Path.trapPoint, clause]⟩

/-! ## A trap after its word (R288) -/

theorem Path.advance_lanes (p : Path) (c : Clause) : (p.advance c).lanes = p.lanes := by
  unfold Path.advance
  split <;> rfl

/-- Where a path goes does not depend on its lanes. -/
theorem Path.advance_trapPoint (p : Path) (q : LaneMask) (c : Clause) :
    ({ p with lanes := q }.advance c).trapPoint = (p.advance c).trapPoint := by
  unfold Path.advance
  split <;> rfl

theorem Issue.lanes_sub (i : Issue) (g : Guard) {l : Nat} (h : (i.lanes g).getLsbD l = true) : i.p.lanes.getLsbD l = true := by
  simp only [Issue.lanes, qualify, getLsbD_maskOf, Bool.and_eq_true] at h
  exact h.2.1

/-- Lanes of the path that do not qualify, unless all do. -/
theorem Issue.others_ne_zero {i : Issue} {g : Guard} (h : i.lanes g ≠ i.p.lanes) : i.p.lanes &&& ~~~(i.lanes g) ≠ 0 := by
  intro h0
  refine h (BitVec.eq_of_getLsbD_eq fun l hl => Bool.eq_iff_iff.2 ⟨i.lanes_sub g, fun lane => ?_⟩)
  have := congrArg (fun m : LaneMask => m.getLsbD l) h0
  simpa [lane, hl] using this

/-- The path of the lanes `q` that trap after the word. -/
def Issue.trapPath (i : Issue) (q : LaneMask) : Path := { { i.p with lanes := q }.advance i.c with halted := true }

/-- The path on which the other lanes go on. -/
def Issue.otherPath (i : Issue) (q : LaneMask) : Path := { i.p with lanes := i.p.lanes &&& ~~~q }.advance i.c

theorem Issue.trapPath_spec (i : Issue) (q : LaneMask) :
    (i.trapPath q).lanes = q ∧ (i.trapPath q).atStop = true ∧ (i.trapPath q).trapPoint = (i.p.advance i.c).trapPoint :=
  ⟨Path.advance_lanes .., Bool.or_true _, Path.advance_trapPoint ..⟩

theorem Issue.otherPath_spec (i : Issue) (q : LaneMask) :
    (i.otherPath q).lanes = i.p.lanes &&& ~~~q ∧ (i.otherPath q).trapPoint = (i.p.advance i.c).trapPoint :=
  ⟨Path.advance_lanes .., Path.advance_trapPoint ..⟩

/-- Inside the clause the other lanes have not stopped, unless they were halted. -/
theorem Issue.otherPath_inside {i : Issue} (q : LaneMask) (inside : i.c.idx + 1 < i.c.words.length) :
    (i.otherPath q).halted = i.p.halted ∧ (i.otherPath q).atStop = i.p.halted := by
  simp [Issue.otherPath, Path.advance, inside, Path.atStop]

/-- At the end of the clause they have. -/
theorem Issue.otherPath_end {i : Issue} (q : LaneMask) (last : i.c.idx + 1 = i.c.words.length) : (i.otherPath q).atStop = true := by
  simp [Issue.otherPath, Path.advance, last, Path.at, Path.atStop]

theorem userTrapAfter_eq (s : State) (i : Issue) (q : LaneMask) (code : Nat) :
    s.userTrapAfter i q code = s.raiseTrap i { i.w with rf := i.w.rf } code [i.trapPath q, i.otherPath q] := rfl

/-- A trap after its word is taken at once where no lane goes on inside the clause. -/
theorem userTrapAfter_taken {s : State} {i : Issue} {g : Guard} (code : Nat) (hi : s.issue? = some i) (ht : Trappable s i)
    (hb : i.w.behind = false) (hq : i.lanes g = i.p.lanes ∨ i.c.idx + 1 = i.c.words.length) :
    ∃ w', TrapTaken s (s.userTrapAfter i (i.lanes g) code) i code (i.p.advance i.c).trapPoint w' ∧ w'.rf = i.w.rf := by
  rw [userTrapAfter_eq]
  obtain ⟨trap_lanes, trap_stop, trap_point⟩ := i.trapPath_spec (i.lanes g)
  obtain ⟨other_lanes, other_point⟩ := i.otherPath_spec (i.lanes g)
  refine raiseTrap_taken hi ht hb ?_ fun l hl => ?_
  · simp only [List.forall_mem_cons, List.not_mem_nil, false_implies, implies_true, and_true]
    refine ⟨fun _ => ⟨trap_stop, trap_point⟩, fun some_lane => ⟨?_, other_point⟩⟩
    obtain hq | hq := hq
    · rw [other_lanes, hq, BitVec.and_not_self] at some_lane
      exact absurd rfl some_lane
    · exact Issue.otherPath_end _ hq
  · simp only [List.exists_mem_cons_iff, List.not_mem_nil, false_and, exists_false, or_false, trap_lanes, other_lanes,
      BitVec.getLsbD_and, BitVec.getLsbD_not, hl, BitVec.lt_of_getLsbD hl, decide_true, Bool.true_and]
    cases (i.lanes g).getLsbD l <;> simp

/-- A path that is the same as none is added as it is. -/
theorem addPath_apart {p : Path} {ps : List Path} (hp : p.lanes ≠ 0) (h : ∀ q, p.same q = false) : addPath p ps = ps ++ [p] := by
  induction ps with
  | nil => exact if_neg hp
  | cons q ps ih => simp [addPath, h q, ih]

/-- A waiting trap waits on while a path has not stopped. -/
theorem settleTrap_waits {s : State} {u : Nat} {w : Wave} {p : Path} (h : s.wave? u = some w) (hp : p ∈ w.paths) (going : p.atStop = false) :
    s.settleTrap u = s := by
  have : w.paths.all Path.atStop = false := List.all_eq_false.2 ⟨p, hp, by simp [going]⟩
  simp only [State.settleTrap, h, this, Bool.and_false, Bool.false_eq_true, if_false]
  split <;> rfl

/-- Where other lanes go on inside the clause, the trap waits, with those lanes on a path of their own. -/
theorem userTrapAfter_waits {s : State} {i : Issue} {g : Guard} (code : Nat) (hi : s.issue? = some i) (ht : Trappable s i)
    (some_lane : i.lanes g ≠ 0) (hq : i.lanes g ≠ i.p.lanes) (inside : i.c.idx + 1 < i.c.words.length) (free : i.p.halted = false) :
    ∃ w', s.userTrapAfter i (i.lanes g) code = s.putWave w'
      ∧ w' = { i.w with paths := w'.paths, trap := { i.w.trap with pend := some code } }
      ∧ i.trapPath (i.lanes g) ∈ w'.paths ∧ i.otherPath (i.lanes g) ∈ w'.paths := by
  obtain ⟨w', hw'⟩ : ∃ w', w' = i.trapping i.w.rf code [i.trapPath (i.lanes g), i.otherPath (i.lanes g)] := ⟨_, rfl⟩
  have paths : w'.paths = i.w.paths.filter (fun p => p.lanes &&& i.p.lanes == 0) ++ [i.trapPath (i.lanes g)] ++ [i.otherPath (i.lanes g)] := by
    subst hw'
    simp only [Issue.trapping, replacePath, List.foldl_cons, List.foldl_nil]
    rw [addPath_apart (p := i.trapPath _), addPath_apart (p := i.otherPath _)]
    · rw [(i.otherPath_spec _).1]; exact Issue.others_ne_zero hq
    · intro q; simp [Path.same, Issue.otherPath, Path.advance, inside]
    · rw [(i.trapPath_spec _).1]; exact some_lane
    · intro q; simp [Path.same, Issue.trapPath]
  have going : i.otherPath (i.lanes g) ∈ w'.paths := by simp [paths]
  refine ⟨w', ?_, by rw [hw']; rfl, by simp [paths], going⟩
  rw [userTrapAfter_eq, raiseTrap_eq ht, ← hw']
  have put : (s.putWave w').wave? i.w.uid = some w' := by
    rw [hw']
    exact wave?_putWave_self s (i.trapping ..) i.w (issue?_wave s i hi)
  exact settleTrap_waits put going ((Issue.otherPath_inside _ inside).2.trans free)

/-! ## The words that trap -/

/-- A word whose flags meet an enable traps, with the flags in FPSTAT and no result (R114, R115). -/
theorem op2_traps {ins : Instr} {g : Guard} {d : Dst} {a b : Src} {f : Word → Word → Word × BitVec 6} {s : State} {i : Issue}
    {fl : Nat → BitVec 6} (hx : exec ins s = op2 g d a b f s) (hfl : ∀ l, (f (i.val a l) (i.val b l)).2 = fl l)
    (h : Ready s i false (g.regs ++ (a.regs ++ b.regs) ++ d.regs) d.regs) (hb : i.w.behind = false)
    (ht : (orLanes (i.lanes g) fl).extractLsb' 0 5 &&& (s.descOf i.w).trapEn ≠ 0) :
    exec ins s = .next (s.userTrap i { i.w with rf := i.w.rf.orFlags (orLanes (i.lanes g) fl) } 4) := by
  have hit : trapHit (s.descOf i.w).trapEn (orLanes (i.lanes g) (fun l => (f (i.val a l) (i.val b l)).2)) = true := by
    rw [funext hfl]
    exact bne_iff_ne.2 ht
  have hg := h.go
  have hf := h.free
  have hs := fun l q => h.whole l q
  rw [hx, ← funext hfl]
  unfold Issue.lanes Issue.val at *
  simp only [op2, regIssue, h.here, hg, hf, hs, hit, hb, Bool.false_eq_true, if_false, if_true]

/-- What a word that goes has passed at issue, but for the tokens. -/
theorem gate_go_inv {s : State} {w : Wave} {regs : List RegId} (h : s.gate w false regs = .go) :
    s.hitchedAt w.core = false ∧ s.running w = true
      ∧ ((s.copies.any (fun c => c.wave == w.uid && c.dead) || s.walks.any (fun c => c.wave == w.uid && c.dead)) && !w.behind) = false
      ∧ (w.marked regs || (w.behind && (false || decide (64 ≤ w.beyond))) || (false && w.fencing)) = false := by
  unfold State.gate State.gateAny at h
  split_ifs at h with hitched off dead held
  exact ⟨Bool.not_eq_true _ ▸ hitched, by simpa using off, Bool.not_eq_true _ ▸ dead, Bool.not_eq_true _ ▸ held⟩

/-- TOKEN (R44, R160): a token of the span stops what would go without it. -/
theorem gate_token {s : State} {ws : List Wave} {w : Wave} {none_held : BitVec 6} {regs : List RegId}
    (h : ({ s with waves := ws } : State).gate { w with spanHeld := none_held } false regs = .go) (ht : w.tokenBlocked regs = true)
    (hb : w.behind = false) : s.gate w false regs = .token := by
  obtain ⟨hitched, on, dead, held⟩ := gate_go_inv h
  have hitched : s.hitchedAt w.core = false := hitched
  have on : s.running w = true := on
  have dead : ((s.copies.any (fun c => c.wave == w.uid && c.dead) || s.walks.any (fun c => c.wave == w.uid && c.dead)) && !w.behind)
      = false := dead
  have held : (w.marked regs || (w.behind && (false || decide (64 ≤ w.beyond))) || (false && w.fencing)) = false := held
  unfold State.gate State.gateAny
  rw [hitched, on, dead, held, ht, hb]
  rfl

/-- A word of two sources that names a register of a block whose token the span holds traps. -/
theorem op2_token {ins : Instr} {g : Guard} {d : Dst} {a b : Src} {f : Word → Word → Word × BitVec 6} {s : State} {i : Issue}
    (hx : exec ins s = op2 g d a b f s) (hi : s.issue? = some i)
    (h : s.gate i.w false (g.regs ++ (a.regs ++ b.regs) ++ d.regs) = .token) : exec ins s = .next (s.userTrap i i.w 6) := by
  rw [hx]
  simp only [op2, regIssue, hi, h]

/-- A block that is with the span holds back what names a register of it. -/
theorem tokenBlocked_of_mem {w : Wave} {regs : List RegId} {r : Nat} (hr : RegId.v r ∈ regs) (h : w.spanHeld.getLsbD (r / 32) = true) :
    w.tokenBlocked regs = true := List.any_eq_true.2 ⟨_, hr, h⟩

/-- TRAP, and BPT where no debugger is attached, are user traps after their word. -/
theorem exec_trap_eq {s : State} {i : Issue} {g : Guard} (n : Fin 256) (h : Ready s i true (g.regs ++ []) []) (hq : i.lanes g ≠ 0) :
    exec (.trap g n) s = .next (s.userTrapAfter i (i.lanes g) 3) :=
  memIssue_ready (regs := []) (dests := []) (f := fun s i q => some (s.userTrapAfter i q 3)) h hq

theorem exec_bpt_eq {s : State} {i : Issue} {g : Guard} (n : Fin 256) (h : Ready s i true (g.regs ++ []) []) (hq : i.lanes g ≠ 0)
    (hd : (s.descOf i.w).dbgAttach = false) : exec (.bpt g n) s = .next (s.userTrapAfter i (i.lanes g) 2) := by
  have hx : exec (.bpt g n) s = execBpt g n s := rfl
  rw [hx, execBpt, memIssue_ready (regs := []) (dests := []) h hq]
  simp only [hd, Bool.false_eq_true, if_false]

end Sys2Proof.Machine

section
open Sys2Proof Sys2Proof.Machine

/-- Settles O24: a raised trap is taken when the paths put in the place of the issuing one have stopped, and waits while one has not. -/
theorem userTraps : Obligations.UserTraps := by
  refine ⟨fun s i g n d a b sm fm ht => ?_, fun s i g n h hq => ⟨fun inside => ?_, fun out no_handler => ?_⟩⟩
  · intro here fl
    refine ⟨fun h hq row hrow hbpt => ?_, fun h hb hit => ?_, fun r hr held hb h hi => ?_⟩
    · have hi := h.here
      have hb : i.w.behind = false := Bool.not_eq_true _ ▸ fun hb => Bool.noConfusion (h.ahead hb).1
      have hx : exec row.1 s = .next (s.userTrapAfter i (i.lanes g) row.2) := by
        simp only [List.mem_cons, List.not_mem_nil, or_false] at hrow
        obtain rfl | rfl := hrow
        · exact exec_trap_eq n h hq
        · exact exec_bpt_eq n h hq (hbpt rfl)
      refine ⟨fun stop => ?_, fun part inside free => ?_⟩
      · obtain ⟨w', taken, rf⟩ := userTrapAfter_taken row.2 hi ht hb stop
        exact ⟨_, w', hx, taken, rf⟩
      · obtain ⟨w', eq, kept, trap, other⟩ := userTrapAfter_waits row.2 hi ht hq part inside free
        have uid : w'.uid = i.w.uid := by rw [kept]
        refine ⟨_, w', hx.trans (congrArg _ eq), uid ▸ wave?_putWave_self s w' i.w (uid ▸ issue?_wave s i hi), rfl,
          fun u hu => wave?_putWave_other s w' u (uid ▸ hu), kept, ⟨_, trap, ?_⟩, _, other, ?_⟩
        · obtain ⟨lanes, -, point⟩ := i.trapPath_spec (i.lanes g)
          exact ⟨lanes, rfl, point⟩
        · obtain ⟨lanes, point⟩ := i.otherPath_spec (i.lanes g)
          exact ⟨lanes, (Issue.otherPath_inside _ inside).1.trans free, point⟩
    · obtain ⟨w', taken, rf⟩ := userTrap_taken (i.w.rf.orFlags fl) 4 h.here ht hb
      exact ⟨_, w', op2_traps (f := fun x y => (faddV fp32 sm fm x.toNat y.toNat).w32) rfl (fun _ => rfl) h hb hit, taken, rf⟩
    · obtain ⟨w', taken, rf⟩ := userTrap_taken i.w.rf 6 hi ht hb
      exact ⟨_, w', op2_token rfl hi (gate_token h.go (tokenBlocked_of_mem hr held) hb), taken, rf⟩
  · rw [exec_trap_eq n h hq, userTrapAfter_eq, State.raiseTrap, if_pos inside]
  · rw [exec_trap_eq n h hq, userTrapAfter_eq, State.raiseTrap, if_neg (by rw [out]; exact Bool.false_ne_true), if_pos no_handler]

end

/-! No step of a fault takes back a report that has been made (R73, R371). -/

namespace Sys2Proof.Machine

/-- Every report of `s` is one of `t`. -/
def ReportsKept (s t : State) : Prop := ∀ r ∈ s.reports, r ∈ t.reports

theorem ReportsKept.trans {s t u : State} (h : ReportsKept s t) (k : ReportsKept t u) : ReportsKept s u := fun r hr => k r (h r hr)

theorem ReportsKept.of_eq {s t : State} (h : t.reports = s.reports) : ReportsKept s t := fun _ hr => h ▸ hr

theorem ReportsKept.foldl {α : Type} {f : State → α → State} (h : ∀ s x, ReportsKept s (f s x)) (l : List α) (s : State) :
    ReportsKept s (l.foldl f s) := by
  induction l generalizing s with
  | nil => exact .of_eq rfl
  | cons x l ih => exact (h s x).trans (ih (f s x))

theorem reportsKept_count (s : State) (unit off : Nat) : ReportsKept s (s.count unit off) := by
  unfold State.count
  split <;> exact .of_eq rfl

theorem reportsKept_reportBad (s : State) (spoke pa : Nat) : ReportsKept s (s.reportBad spoke pa) :=
  ReportsKept.trans (t := s.report _) (fun _ hr => List.mem_append_left _ hr) (reportsKept_count _ _ _)

theorem reportsKept_writeBack (s : State) (x : Write) : ReportsKept s (s.writeBack x).1 := by
  unfold State.writeBack
  split
  · exact reportsKept_reportBad s x.spoke x.pa
  · exact .of_eq rfl

theorem reportsKept_homeWrite (s : State) (wave op pa : Nat) (data : List Byte) : ReportsKept s (s.homeWrite wave op pa data) := by
  unfold State.homeWrite
  extract_lets secs s1 s2
  refine ReportsKept.trans (t := s2) (.of_eq rfl) (ReportsKept.foldl (fun t e => ?_) _ s2)
  dsimp only
  split <;> exact .of_eq rfl

theorem reportsKept_updateLines (s : State) (sel : Place → Bool) (pa : Nat) (data : List Byte) :
    ReportsKept s (s.updateLines sel pa data) := .of_eq rfl

theorem reportsKept_land (s : State) (x : Write) : ReportsKept s (s.land x) := by
  have dropped : ReportsKept s { (s.writeBack x).1 with writes := (s.writeBack x).1.writes.filter (fun y => y != x) } :=
    (reportsKept_writeBack s x).trans (.of_eq rfl)
  unfold State.land
  exact dropped.trans ((reportsKept_updateLines _ _ _ _).trans (reportsKept_homeWrite _ _ _ _ _))

theorem reportsKept_landAll (s : State) (sel : Write → Bool) : ReportsKept s (s.landAll sel) :=
  (ReportsKept.foldl reportsKept_land _ s).trans (ReportsKept.foldl reportsKept_land _ _)

theorem reportsKept_share (s : State) (pa : Nat) : ReportsKept s (s.share pa) := by
  unfold State.share
  split
  · exact .of_eq rfl
  · exact (reportsKept_landAll s _).trans (.of_eq rfl)
  · exact .of_eq rfl

theorem reportsKept_cpWrite (s : State) (pa : Nat) (data : List Byte) : ReportsKept s (s.cpWrite pa data) :=
  (reportsKept_share s pa).trans (.of_eq rfl)

theorem reportsKept_goneEvents (s : State) (gone : Nat → Bool) : ReportsKept s (s.goneEvents gone) := by
  refine ReportsKept.foldl (fun t w => ?_) _ s
  split <;> exact .of_eq rfl

theorem reportsKept_dropNode (s : State) (u : Nat) (kill : Bool) : ReportsKept s (s.dropNode u kill) := by
  unfold State.dropNode
  extract_lets mine s0 s1 s2
  have events : ReportsKept s s0 := by
    unfold s0
    split
    · exact reportsKept_goneEvents s mine
    · exact .of_eq rfl
  exact events.trans ((ReportsKept.foldl (fun t p => reportsKept_cpWrite t _ _) _ s0).trans (.of_eq rfl))

theorem reportsKept_failNode (s : State) (n : Node) (reason : Nat) : ReportsKept s (s.failNode n reason) :=
  (reportsKept_cpWrite s _ _).trans ((reportsKept_cpWrite _ _ _).trans (reportsKept_dropNode _ _ _))

theorem reportsKept_killDomain (s : State) (r : Nat) (also : Option Nat) : ReportsKept s (s.killDomain r also) := by
  refine ReportsKept.foldl (fun t n => (reportsKept_failNode t n 0x09).trans ?_) _ s
  dsimp only
  split <;> exact .of_eq rfl

theorem reportsKept_startPosts (s : State) : ReportsKept s s.startPosts := by
  unfold State.startPosts
  refine ReportsKept.trans (t := { s with posts := s.posts.map (fun p => { p with beat := s.tick }) }) (.of_eq rfl)
    (ReportsKept.foldl ?_ s.postSites _)
  exact fun _ _ => .of_eq rfl

theorem reportsKept_restartPosts (s : State) : ReportsKept s s.restartPosts := by
  unfold State.restartPosts State.failRunning
  extract_lets s1
  have failed : ReportsKept s s1 := ReportsKept.trans (t := { s with waves := s.waves.filter (fun w => w.post.isNone) }) (.of_eq rfl)
    (ReportsKept.foldl (fun t n => reportsKept_failNode t n 0x0D) _ _)
  have counted : ReportsKept s { s1.count 8 0x60 with posts := Post.resets } := failed.trans (reportsKept_count s1 8 0x60)
  exact counted.trans (reportsKept_startPosts _)

/-- The record of an uncontained fault is among the reports (R73). -/
theorem mem_reports_uncontained (s : State) (w : Wave) (r : Report) : r ∈ (s.uncontained w r).reports := by
  have made : r ∈ s.reports ++ [r] := List.mem_append_right _ (List.mem_singleton_self r)
  unfold State.uncontained
  dsimp only
  split
  · exact reportsKept_restartPosts _ r made
  · split
    · exact made
    · exact reportsKept_killDomain _ _ _ r made

end Sys2Proof.Machine

/-! CLAUSE_START (R51, R52, R55, R275, R279): what the fetch keeps of the machine, and where the path stands when its clause starts. -/

namespace Sys2Proof.Machine

/-! ## A fetch changes only what the translator and the fault filters hold -/

/-- The machine with other fault filters and translations held. -/
def State.withMaps (s : State) (fs : List Filter) (tl : List TlbEntry) : State := { s with filters := fs, tlb := tl }

theorem State.numAt_withMaps (s : State) (fs : List Filter) (tl : List TlbEntry) (a n : Nat) :
    (s.withMaps fs tl).numAt a n = s.numAt a n := congrArg ofBytes (State.bytesAt_congr fun _ _ => rfl)

/-- One level of the walk (R345 to R349), given what the levels below it answer: the body of `walkFrom`. -/
def State.walkLevel (s : State) (want : Want) (site va k level table : Nat) (ptes : List Nat) (below : Nat → Nat → List Nat → Tr) : Tr :=
  let idx := va / 2 ^ (12 + 9 * level) % 512
  let own := s.numAt (table + 8 * idx) 8
  let at_ := if level = 2 then s.spanLeaf table idx k own else (table + 8 * idx, own, own)
  let e := at_.2.1
  let read := at_.2.2
  let seen := ptes ++ [at_.1]
  if s.ptPend.any (fun p => p.pte == at_.1) then .refused
  else if !pteBit e 0 then .bad 0x01 level read
  else if pteBit e 1 || pteBit e 2 || pteBit e 3 then
    match leafSize e level (va / 2 ^ 30 % 512) with
    | .none => .bad 0x07 level read
    | some size =>
      let unit := if size = 0x400000000 then 0x40000000 else size
      let pa := pteField e 10 44 * 4096 / unit * unit + va % unit
      match s.leafCheck want site e pa with
      | some cause => .bad cause level read
      | .none => .ok
        { pa := pa, pbmt := pteField e 61 2, lease := pteField e 56 2, atom := pteBit e 55, va := va / size * size, size := size
          ptes := seen }
  else if !s.nonLeafOk e then .bad 0x07 level e
  else match level with
    | 0 => .bad 0x07 0 e
    | l + 1 => below l (pteField e 10 44 * 4096) seen

theorem State.walkFrom_eq (s : State) (want : Want) (site va k level table : Nat) (ptes : List Nat) :
    s.walkFrom want site va k level table ptes
      = s.walkLevel want site va k level table ptes (fun l t p => s.walkFrom want site va k l t p) := by
  cases level <;> (delta State.walkFrom; rfl)

theorem State.walkLevel_withMaps (s : State) (fs : List Filter) (tl : List TlbEntry) (want : Want) (site va k level table : Nat)
    (ptes : List Nat) (below : Nat → Nat → List Nat → Tr) :
    (s.withMaps fs tl).walkLevel want site va k level table ptes below = s.walkLevel want site va k level table ptes below := by
  have pend : (s.withMaps fs tl).ptPend = s.ptPend := rfl
  have leaf (w : Want) (site e pa : Nat) : (s.withMaps fs tl).leafCheck w site e pa = s.leafCheck w site e pa := rfl
  have node (e : Nat) : (s.withMaps fs tl).nonLeafOk e = s.nonLeafOk e := rfl
  have span (a b c d : Nat) : (s.withMaps fs tl).spanLeaf a b c d = s.spanLeaf a b c d := by
    simp only [State.spanLeaf, State.numAt_withMaps]
  unfold State.walkLevel
  simp -zeta only [span, State.numAt_withMaps, pend, leaf, node]

theorem State.walkFrom_withMaps (s : State) (fs : List Filter) (tl : List TlbEntry) (want : Want) (site va k level table : Nat)
    (ptes : List Nat) : (s.withMaps fs tl).walkFrom want site va k level table ptes = s.walkFrom want site va k level table ptes := by
  induction level generalizing table ptes with
  | zero => rw [State.walkFrom_eq, State.walkFrom_eq, State.walkLevel_withMaps]; rfl
  | succ l ih =>
    rw [State.walkFrom_eq, State.walkFrom_eq, State.walkLevel_withMaps]
    simp only [State.walkLevel, ih]

theorem State.translate_withMaps (s : State) (fs : List Filter) (tl : List TlbEntry) (c : Ctx) (want : Want) (va : Nat) :
    (s.withMaps fs tl).translate c want va = s.translate c want va := by
  have choices : (s.withMaps fs tl).choices = s.choices := rfl
  have pend : (s.withMaps fs tl).ptPend = s.ptPend := rfl
  simp only [State.translate, State.walkFrom_withMaps, choices, pend]

theorem State.xlate_withMaps (s : State) (fs : List Filter) (tl : List TlbEntry) (w : Wave) (want : Want) (va : Nat) :
    (s.withMaps fs tl).xlate w want va = s.xlate w want va := by
  have ctx (n : Nat) : (s.withMaps fs tl).ctx? n = s.ctx? n := rfl
  have posts : (s.withMaps fs tl).posts = s.posts := rfl
  have kind (a : Nat) : (s.withMaps fs tl).physKind a = s.physKind a := rfl
  have read (n : Nat) : (s.withMaps fs tl).readCtx n = s.readCtx n := rfl
  simp only [State.xlate, State.translate_withMaps, ctx, posts, kind, read]

theorem State.codeWord_withMaps (s : State) (fs : List Filter) (tl : List TlbEntry) (w : Wave) (va : Nat) :
    (s.withMaps fs tl).codeWord w va = s.codeWord w va := by
  simp only [State.codeWord, State.xlate_withMaps, State.numAt_withMaps]

theorem State.codeWords_withMaps (s : State) (fs : List Filter) (tl : List TlbEntry) (w : Wave) (va n : Nat) :
    (s.withMaps fs tl).codeWords w va n = s.codeWords w va n := by
  induction n generalizing va with
  | zero => rfl
  | succ n ih => simp only [State.codeWords, State.codeWord_withMaps, ih]

/-- What the translator keeps of a translation is its own. -/
theorem State.noteTlb_maps (s : State) (c : Ctx) (m : Mapped) (spoke : Nat) : ∃ tl, s.noteTlb c m spoke = s.withMaps s.filters tl := by
  unfold State.noteTlb
  dsimp only
  split <;> exact ⟨_, rfl⟩

theorem State.noteMaps_maps (s : State) (w : Wave) (ms : List Mapped) : ∃ tl, s.noteMaps w ms = s.withMaps s.filters tl := by
  have fold (c : Ctx) (l : List Mapped) (s : State) :
      ∃ tl, l.foldl (fun t m => t.noteTlb c m (spokeOfCore w.core)) s = s.withMaps s.filters tl := by
    induction l generalizing s with
    | nil => exact ⟨s.tlb, rfl⟩
    | cons m l ih =>
      obtain ⟨tl, h⟩ := s.noteTlb_maps c m (spokeOfCore w.core)
      obtain ⟨tl', h'⟩ := ih (s.withMaps s.filters tl)
      exact ⟨tl', by rw [List.foldl_cons, h, h']; rfl⟩
  unfold State.noteMaps
  dsimp only
  split
  · exact fold _ _ s
  · exact ⟨s.tlb, rfl⟩

theorem State.noteVa_maps (s : State) (w : Wave) (want : Want) (va : Nat) : ∃ tl, s.noteVa w want va = s.withMaps s.filters tl := by
  unfold State.noteVa
  split
  · exact s.noteMaps_maps w _
  all_goals exact ⟨s.tlb, rfl⟩

theorem State.noteCode_maps (s : State) (w : Wave) (va n : Nat) : ∃ tl, s.noteCode w va n = s.withMaps s.filters tl := by
  unfold State.noteCode
  obtain ⟨tl, h⟩ := s.noteVa_maps w Want.fetch va
  rw [h]
  obtain ⟨tl', h'⟩ := (s.withMaps s.filters tl).noteVa_maps w Want.fetch ((va + n - 8) % 2 ^ 64)
  exact ⟨tl', h'⟩

/-- No waiter waits anew where some leave their entries. -/
theorem State.blocked_of_leave {s : State} {gone : Nat × Nat → Bool} {u op : Nat} (h : (s.leave gone).blocked u op = true) :
    s.blocked u op = true := by
  simp only [State.blocked, State.leave, List.any_eq_true, Bool.and_eq_true, Bool.not_eq_true', List.mem_filter, List.mem_map,
    List.contains_eq_mem, decide_eq_true_eq, decide_eq_false_iff_not] at h ⊢
  obtain ⟨_, ⟨⟨f, hf, rfl⟩, -⟩, ⟨open_, waits⟩, idle⟩ := h
  obtain ⟨waits, stays⟩ := List.mem_filter.1 waits
  exact ⟨f, hf, ⟨open_, waits⟩, fun todo => idle (List.mem_filter.2 ⟨todo, stays⟩)⟩

/-- THE FETCH'S NOTES: the waiters of its pages leave their entries, and the translator keeps what it has translated. -/
theorem State.fetchNotes (s : State) (w : Wave) (u a b va n : Nat) :
    ∃ fs tl, ((s.unwait u a).unwait u b).noteCode w va n = s.withMaps fs tl
      ∧ ∀ v k, (s.withMaps fs tl).blocked v k = true → s.blocked v k = true := by
  obtain ⟨tl, h⟩ := ((s.unwait u a).unwait u b).noteCode_maps w va n
  exact ⟨_, tl, h, fun v k hb => State.blocked_of_leave (State.blocked_of_leave (s := s.unwait u a) hb)⟩

/-- What could start still can after such notes. -/
theorem State.couldStart_withMaps {s : State} {fs : List Filter} {tl : List TlbEntry} {w : Wave} {q : Path}
    (hb : ∀ v k, (s.withMaps fs tl).blocked v k = true → s.blocked v k = true) (h : s.couldStart w q = true) :
    (s.withMaps fs tl).couldStart w q = true := by
  have fault (x : Nat × Tr) (h : s.canFault w x = true) : (s.withMaps fs tl).canFault w x = true := by
    have free (k : Nat) (hk : (!s.blocked w.uid k) = true) : (!(s.withMaps fs tl).blocked w.uid k) = true := by
      rw [Bool.not_eq_true'] at hk ⊢
      exact Bool.eq_false_iff.2 fun hb' => by simp [hb _ _ hb'] at hk
    unfold State.canFault at h ⊢
    split at h
    · cases h
    all_goals exact free _ h
  have run : (s.withMaps fs tl).running w = s.running w := rfl
  simp only [State.couldStart, State.codeWord_withMaps, State.codeWords_withMaps, run, Bool.and_eq_true] at h ⊢
  obtain ⟨may, code⟩ := h
  refine ⟨may, ?_⟩
  split at code
  · exact fault _ code
  · simp only [Bool.or_eq_true] at code ⊢
    refine code.imp_right fun words => ?_
    split at words
    · exact fault _ words
    · exact words

theorem State.reportOf_withMaps (s : State) (fs : List Filter) (tl : List TlbEntry) (w : Wave) (code reason : Nat)
    (word addr hdr : Word64) : (s.withMaps fs tl).reportOf w code reason word addr hdr = s.reportOf w code reason word addr hdr := rfl

/-! ## Whether a path may start -/

theorem Wave.mayStart_iff {w : Wave} {p : Path} : w.mayStart p = true ↔
    p.clause = none ∧ p.waiting = false ∧ p.halted = false ∧ p.dbg = false ∧ w.trap.pend = none ∧ w.dbgWant = false
      ∧ (w.paths.filter (fun q => q.slot && q.clause.isSome && !q.waiting && !q.halted && !q.dbg)).length < 2 := by
  simp only [Wave.mayStart, Wave.slotFree, Bool.and_eq_true, Bool.not_eq_true', Option.isNone_iff_eq_none, decide_eq_true_eq, and_assoc]
  rfl

/-- The flags let a path that is not stepping start unless WAIT holds it or a flag has no room. -/
theorem Wave.flagsLet_iff {w : Wave} {p : Path} {h : Header} {ws : List Word64} (hs : p.step = false) : w.flagsLet p h ws = true ↔
    ¬ (p.entry = 0 ∧ ∃ f, f < 12 ∧ h.wait.getLsbD f = true ∧ w.flagCount f ≠ 0)
      ∧ ∀ f, f < 12 → bindsTo h ws (p.entry - 1) f = 0 ∨ w.flagCount f + w.flagOwed f + bindsTo h ws (p.entry - 1) f ≤ 15 := by
  simp only [Wave.flagsLet, List.all_eq_true, List.mem_range, hs, Bool.and_eq_true, Bool.or_eq_true, bne_iff_ne, Bool.not_eq_true',
    beq_iff_eq, decide_eq_true_eq, Bool.not_false, and_true]
  constructor
  · refine fun all => ⟨fun ⟨entry, f, hf, wait, busy⟩ => ?_, fun f hf => (all f hf).2⟩
    have := (all f hf).1
    simp [entry, wait, busy] at this
  · refine fun ⟨free, room⟩ f hf => ⟨?_, room f hf⟩
    by_contra stuck
    simp only [not_or, not_not, Bool.not_eq_false] at stuck
    exact free ⟨stuck.1.1, f, hf, stuck.1.2, stuck.2⟩

/-! ## The steps of CLAUSE_START -/

section
variable {s : State} {w : Wave} {p : Path} {l : Nat} {h : Word64}

/-- A path that may not start, or whose turn has not come, leaves the machine as it is. -/
theorem clauseStart_held (hw : s.wave? w.uid = some w) (hp : w.paths.find? (fun x => x.lanes.getLsbD l) = some p)
    (hh : (w.mayStart p && s.waveTurn w && s.ranksFirst w p) = false) : s.clauseStart w.uid l = s := by
  have stop : (!w.mayStart p || !s.running w || !s.waveTurn w || !s.ranksFirst w p) = true := by
    simp only [Bool.and_eq_false_iff] at hh
    obtain (h | h) | h := hh <;> simp [h]
  simp only [State.clauseStart, hw, hp, stop, if_true]

/-- A word that the wave's translation reaches, and that holds no error. -/
def State.fetches (s : State) (w : Wave) (va : Nat) (x : Word64) : Prop :=
  ∃ m, s.xlate w Want.fetch va = .ok m ∧ s.numAt m.pa 8 = x.toNat ∧ s.bad.contains (m.pa / 64) = false

theorem codeWord_of_fetches {va : Nat} {x : Word64} (h : s.fetches w va x) :
    ∃ pa, s.codeWord w va = .ok (x, pa) ∧ s.bad.contains (pa / 64) = false := by
  obtain ⟨m, map, num, whole⟩ := h
  exact ⟨m.pa, by simp only [State.codeWord, map, num, BitVec.ofNat_toNat, BitVec.setWidth_eq], whole⟩

/-- Words that are fetched one after the other, from an address on. -/
theorem codeWords_of_fetches {ws : List Word64} {va : Nat} (h : ∀ k, k < ws.length → s.fetches w ((va + 8 * k) % 2 ^ 64) (ws.getD k 0))
    (hva : va < 2 ^ 64) : ∃ xs, s.codeWords w va ws.length = .ok xs ∧ xs.map (fun x => x.1) = ws
      ∧ xs.any (fun x => s.bad.contains (x.2 / 64)) = false := by
  induction ws generalizing va with
  | nil => exact ⟨[], rfl, rfl, rfl⟩
  | cons x ws ih =>
    have first := h 0 (Nat.succ_pos _)
    rw [Nat.mul_zero, Nat.add_zero, Nat.mod_eq_of_lt hva] at first
    obtain ⟨pa, word, whole⟩ := codeWord_of_fetches first
    obtain ⟨xs, words, same, clean⟩ := ih (va := (va + 8) % 2 ^ 64) (fun k hk => by
      have := h (k + 1) (Nat.succ_lt_succ hk)
      rwa [show (va + 8 * (k + 1)) % 2 ^ 64 = ((va + 8) % 2 ^ 64 + 8 * k) % 2 ^ 64 by omega] at this) (Nat.mod_lt _ (by decide))
    refine ⟨(x, pa) :: xs, ?_, by rw [List.map_cons, same], ?_⟩
    · simp only [State.codeWords, List.length_cons, word, words]
      rfl
    · simp only [List.any_cons, whole, clean, Bool.or_false]

/-- A word that is no header is ILLEGAL 0x10 (R73). -/
theorem clauseStart_no_header (hw : s.wave? w.uid = some w) (hp : w.paths.find? (fun x => x.lanes.getLsbD l) = some p)
    (hr : s.running w = true) (may : w.mayStart p = true) (turn : s.waveTurn w = true) (first : s.ranksFirst w p = true)
    (hf : s.fetches w p.pc.toNat h) (kind : kindOf h ≠ .header) :
    s.clauseStart w.uid l = s.illegalClause w 0x10 h p.pc p.prev := by
  obtain ⟨pa, word, whole⟩ := codeWord_of_fetches hf
  simp only [State.clauseStart, hw, hp, may, hr, turn, first, word, whole, bne_iff_ne.2 kind, Bool.not_true, Bool.or_self,
    Bool.false_eq_true, if_false, if_true]

/-- With its words fetched the clause starts in the machine that has noted the fetch. -/
theorem clauseStart_fetched {ws : List Word64} (hw : s.wave? w.uid = some w)
    (hp : w.paths.find? (fun x => x.lanes.getLsbD l) = some p) (hr : s.running w = true) (may : w.mayStart p = true)
    (turn : s.waveTurn w = true) (first : s.ranksFirst w p = true) (hf : s.fetches w p.pc.toNat h) (kind : kindOf h = .header)
    (count : (headerOf h).count = ws.length)
    (hws : ∀ k, k < ws.length → s.fetches w ((p.pc.toNat + 8 * (k + 1)) % 2 ^ 64) (ws.getD k 0)) :
    ∃ fs tl, s.clauseStart w.uid l = (s.withMaps fs tl).startClause w p h ws
      ∧ ∀ v k, (s.withMaps fs tl).blocked v k = true → s.blocked v k = true := by
  obtain ⟨xs, words, same, clean⟩ := codeWords_of_fetches (va := (p.pc.toNat + 8) % 2 ^ 64) (fun k hk => by
    have := hws k hk
    rwa [show (p.pc.toNat + 8 * (k + 1)) % 2 ^ 64 = ((p.pc.toNat + 8) % 2 ^ 64 + 8 * k) % 2 ^ 64 by omega] at this)
    (Nat.mod_lt _ (by decide))
  obtain ⟨fs, tl, notes, blocked⟩ := s.fetchNotes w w.uid (fetchKey p.pc.toNat) (fetchKey (p.pc.toNat + 64)) p.pc.toNat (8 * ws.length + 8)
  refine ⟨fs, tl, ?_, blocked⟩
  obtain ⟨pa, word, whole⟩ := codeWord_of_fetches hf
  rw [← count] at words notes
  simp only [State.clauseStart, hw, hp, may, hr, turn, first, word, whole, kind, words, clean, same, notes, bne_self_eq_false,
    Bool.not_true, Bool.or_self, Bool.false_eq_true, if_false]

end

/-! ## The clause starts -/

theorem lowestLane_spec {m : LaneMask} {l : Nat} (h : m.getLsbD l = true) : ∃ k, lowestLane m = some k ∧ m.getLsbD k = true := by
  have mem : l ∈ lanesOf m := (mem_lanesOf m l).2 ⟨BitVec.lt_of_getLsbD h, h⟩
  obtain ⟨k, hk⟩ := Option.isSome_iff_exists.1 (List.isSome_head?.2 (List.ne_nil_of_mem mem))
  exact ⟨k, hk, ((mem_lanesOf m k).1 (List.mem_of_head? hk)).2⟩

/-- Paths that hold none of some lanes come first, the path of those lanes last: a lane of it finds it. -/
theorem find_path_last {ps : List Path} {p : Path} {k : Nat} (hk : p.lanes.getLsbD k = true) (h : ∀ q ∈ ps, q.lanes &&& p.lanes = 0) :
    (ps ++ [p]).find? (fun q => q.lanes.getLsbD k) = some p := by
  have others : ps.find? (fun q => q.lanes.getLsbD k) = none := by
    refine List.find?_eq_none.2 fun q hq lane => ?_
    have := congrArg (fun m : LaneMask => m.getLsbD k) (h q hq)
    simp [hk, lane] at this
  rw [List.find?_append, others, Option.none_or, List.find?_singleton, hk]
  rfl

/-- A path that another one goes before: passed over once more, if it was ready (R275). -/
def State.passedOver (s : State) (w : Wave) (p q : Path) : Path :=
  if q.lanes &&& p.lanes == 0 && (q.back || s.couldStart w q) then { q with passed := q.passed + 1 } else q

theorem State.passedOver_spec (s : State) (w : Wave) (p q : Path) :
    (s.passedOver w p q).lanes = q.lanes ∧ (s.passedOver w p q).clause = q.clause
      ∧ (q.lanes &&& p.lanes = 0 → (q.back = true ∨ s.couldStart w q = true) → q.passed + 1 ≤ (s.passedOver w p q).passed) := by
  unfold State.passedOver
  split
  · exact ⟨rfl, rfl, fun _ _ => Nat.le_refl _⟩
  · next no => exact ⟨rfl, rfl, fun apart ready => absurd (by simp [apart, ready]) no⟩

/-- The path inside its clause, at the word of its entry. -/
def Path.started (p : Path) (hd : Header) (ws : List Word64) : Path :=
  { p with clause := some { addr := p.pc, head := hd, words := ws, idx := p.entry - 1 }, slot := true, entry := 0, passed := 0 }

/-- The wave with a path started, the others that were ready passed over. -/
def State.startedWave (s : State) (w : Wave) (p : Path) (hd : Header) (ws : List Word64) : Wave :=
  { w with
    paths := (w.paths.map (s.passedOver w p)).filter (fun q => q.lanes &&& p.lanes == 0) ++ [p.started hd ws], turn := s.fresh }

section
variable {s : State} {w : Wave} {p : Path} {h : Word64} {ws : List Word64}

theorem startClause_illegal {k r : Nat} (hc : clauseReason w.env (headerOf h) ws = some (k, r)) :
    s.startClause w p h ws
      = s.uncontained w (s.reportOf w 0x22 r ((h :: ws).getD k 0) (p.pc + BitVec.ofNat 64 (8 * k)) p.pc) := by
  simp only [State.startClause, hc, State.illegalClause]
  cases k <;> rfl

theorem startClause_waits (hc : clauseReason w.env (headerOf h) ws = none) (hf : w.flagsLet p (headerOf h) ws = false) :
    s.startClause w p h ws = s := by
  simp only [State.startClause, hc, hf, Bool.not_false, if_true]

theorem startClause_starts {k : Nat} (hc : clauseReason w.env (headerOf h) ws = none) (hf : w.flagsLet p (headerOf h) ws = true)
    (hk : lowestLane p.lanes = some k) (some_lane : p.lanes ≠ 0) (inside : p.entry - 1 < ws.length) :
    s.startClause w p h ws
      = { s.putWave (s.startedWave w p (headerOf h) ws) with fresh := s.fresh + 1, cur := some (w.uid, k) } := by
  have start : p.start (headerOf h) ws = p.started (headerOf h) ws := if_pos inside
  have added (ps : List Path) : replacePath ps p.lanes [p.started (headerOf h) ws]
      = ps.filter (fun q => q.lanes &&& p.lanes == 0) ++ [p.started (headerOf h) ws] :=
    addPath_apart (p := p.started (headerOf h) ws) some_lane fun q => by simp [Path.same, Path.started]
  simp only [State.startClause, hc, hf, hk, start, added, Bool.not_true, Bool.false_eq_true, if_false, Option.map_some]
  rfl

/-- The started path's word is the one that issues next. -/
theorem startedWave_issue {t : State} {k : Nat} (hd : Header) (hk : p.lanes.getLsbD k = true) (inside : p.entry - 1 < ws.length)
    (hcur : t.cur = some (w.uid, k)) (hw : t.wave? w.uid = some (s.startedWave w p hd ws)) :
    t.issue? = some ⟨s.startedWave w p hd ws, p.started hd ws, { addr := p.pc, head := hd, words := ws, idx := p.entry - 1 }⟩ := by
  have found : (s.startedWave w p hd ws).paths.find? (fun q => q.lanes.getLsbD k) = some (p.started hd ws) := by
    refine find_path_last (p := p.started hd ws) hk fun q hq => ?_
    exact beq_iff_eq.1 (List.mem_filter.1 hq).2
  have clause : (p.started hd ws).clause = some { addr := p.pc, head := hd, words := ws, idx := p.entry - 1 } := rfl
  simp only [State.issue?, hcur, hw, found, clause, inside, if_true]

end

end Sys2Proof.Machine

section
open Sys2Proof Sys2Proof.Machine

/-- Settles O48: the fetch only notes its translations, and the clause starts, waits or is refused as its header and its words say. -/
theorem clauseStart : Obligations.ClauseStart := by
  intro s w p l h ws hw hp hr free turn fetched waits more room
  have may_iff : w.mayStart p = true ↔ free := Wave.mayStart_iff
  refine ⟨fun held => ?_, fun hfree hturn hf => ?_⟩
  · refine congrArg _ (clauseStart_held hw hp (Bool.eq_false_iff.2 fun all => ?_))
    simp only [Bool.and_eq_true] at all
    obtain ⟨⟨may, first⟩, rank⟩ := all
    exact held.elim (fun no => no (may_iff.1 may)) fun no => no ⟨first, rank⟩
  · have may := may_iff.2 hfree
    obtain ⟨first, rank⟩ := hturn
    refine ⟨fun kind => congrArg _ (clauseStart_no_header hw hp hr may first rank hf kind), fun kind count hws => ?_⟩
    obtain ⟨fs, tl, started, blocked⟩ := clauseStart_fetched hw hp hr may first rank hf kind count hws
    have hx : exec (.clauseStart w.uid l) s = .next ((s.withMaps fs tl).startClause w p h ws) := congrArg _ started
    refine ⟨fun k r hc => ?_, fun hc step => ?_⟩
    · rw [startClause_illegal hc, State.reportOf_withMaps] at hx
      exact ⟨_, hx, mem_reports_uncontained _ w _⟩
    · have flags : w.flagsLet p (headerOf h) ws = true ↔ ¬ waits ∧ room := Wave.flagsLet_iff step
      refine ⟨fun held => ?_, fun no_wait has_room inside => ?_⟩
      · have stuck : w.flagsLet p (headerOf h) ws = false := Bool.eq_false_iff.2 fun hf =>
          held.elim (flags.1 hf).1 fun no => no (flags.1 hf).2
        exact ⟨_, hx.trans (congrArg _ (startClause_waits hc stuck)), rfl⟩
      · obtain ⟨k, hk, lane⟩ := lowestLane_spec (m := p.lanes) (l := l) (by simpa using List.find?_some hp)
        have some_lane : p.lanes ≠ 0 := fun h0 => by simp [h0] at lane
        have starts := startClause_starts (s := s.withMaps fs tl) hc (flags.2 ⟨no_wait, has_room⟩) hk some_lane inside
        have put := wave?_putWave_self (s.withMaps fs tl) ((s.withMaps fs tl).startedWave w p (headerOf h) ws) w hw
        refine ⟨_, (s.withMaps fs tl).startedWave w p (headerOf h) ws, _, hx.trans (congrArg _ starts), put, rfl,
          fun u hu => wave?_putWave_other (s.withMaps fs tl) _ u hu, rfl, fun q hq apart _ => ?_,
          startedWave_issue (headerOf h) lane inside rfl put, rfl, rfl, rfl, rfl⟩
        obtain ⟨lanes, clause, passed⟩ := (s.withMaps fs tl).passedOver_spec w p q
        refine ⟨(s.withMaps fs tl).passedOver w p q, List.mem_append_left _ (List.mem_filter.2 ⟨List.mem_map_of_mem hq, ?_⟩), ?_, clause,
          fun ready => passed apart (ready.imp_right (State.couldStart_withMaps blocked))⟩
        · rw [lanes, apart]; rfl
        · rw [lanes, BitVec.and_not_self]

end

/-! Firmware (R392 to R400, R408): what the writes of a boot and a restart leave alone, and the answers of its commands. -/

namespace Sys2Proof.Machine

/-! ## What a write of the command processor leaves alone -/

/-- Only memory, its caches and what counts and reports their errors have changed: the firmware, the pins, the waves and the nodes have
not. -/
structure HomeOnly (s t : State) : Prop where
  board : t.board = s.board
  fw : t.fw = s.fw
  pins : t.pins = s.pins
  variant : t.variant = s.variant
  waves : t.waves = s.waves
  nodes : t.nodes = s.nodes
  counters : ∀ off, off ≠ 0x20 → Map.get 0 t.hub.counters off = Map.get 0 s.hub.counters off

theorem HomeOnly.refl (s : State) : HomeOnly s s := ⟨rfl, rfl, rfl, rfl, rfl, rfl, fun _ _ => rfl⟩

theorem HomeOnly.trans {s t u : State} (h : HomeOnly s t) (k : HomeOnly t u) : HomeOnly s u where
  board := k.board.trans h.board
  fw := k.fw.trans h.fw
  pins := k.pins.trans h.pins
  variant := k.variant.trans h.variant
  waves := k.waves.trans h.waves
  nodes := k.nodes.trans h.nodes
  counters off ho := (k.counters off ho).trans (h.counters off ho)

theorem HomeOnly.foldl {α : Type} {f : State → α → State} (h : ∀ s x, HomeOnly s (f s x)) (l : List α) (s : State) :
    HomeOnly s (l.foldl f s) := by
  induction l generalizing s with
  | nil => exact .refl s
  | cons x l ih => exact (h s x).trans (ih (f s x))

/-- The counter of uncorrectable errors is no other counter. -/
theorem homeOnly_count (s : State) (unit : Nat) : HomeOnly s (s.count unit 0x20) := by
  unfold State.count
  split
  · exact ⟨rfl, rfl, rfl, rfl, rfl, rfl, fun _ _ => rfl⟩
  · exact ⟨rfl, rfl, rfl, rfl, rfl, rfl, fun off ho => by rw [Map.get_put, if_neg ho]⟩

theorem homeOnly_reportBad (s : State) (spoke pa : Nat) : HomeOnly s (s.reportBad spoke pa) :=
  HomeOnly.trans (t := s.report _) ⟨rfl, rfl, rfl, rfl, rfl, rfl, fun _ _ => rfl⟩ (homeOnly_count _ _)

theorem homeOnly_writeBack (s : State) (x : Write) : HomeOnly s (s.writeBack x).1 := by
  unfold State.writeBack
  split
  · exact (homeOnly_reportBad s x.spoke x.pa).trans ⟨rfl, rfl, rfl, rfl, rfl, rfl, fun _ _ => rfl⟩
  · exact .refl s

theorem homeOnly_homeWrite (s : State) (wave op pa : Nat) (data : List Byte) : HomeOnly s (s.homeWrite wave op pa data) := by
  unfold State.homeWrite
  extract_lets secs s1 s2
  refine HomeOnly.trans (t := s2) ⟨rfl, rfl, rfl, rfl, rfl, rfl, fun _ _ => rfl⟩ (HomeOnly.foldl (fun t e => ?_) _ s2)
  dsimp only
  split
  · exact .refl t
  · exact ⟨rfl, rfl, rfl, rfl, rfl, rfl, fun _ _ => rfl⟩

theorem homeOnly_land (s : State) (x : Write) : HomeOnly s (s.land x) := by
  have dropped : HomeOnly s { (s.writeBack x).1 with writes := (s.writeBack x).1.writes.filter (fun y => y != x) } :=
    (homeOnly_writeBack s x).trans ⟨rfl, rfl, rfl, rfl, rfl, rfl, fun _ _ => rfl⟩
  have updated (s : State) (sel : Place → Bool) (pa : Nat) (data : List Byte) : HomeOnly s (s.updateLines sel pa data) :=
    ⟨rfl, rfl, rfl, rfl, rfl, rfl, fun _ _ => rfl⟩
  unfold State.land
  exact dropped.trans ((updated _ _ _ _).trans (homeOnly_homeWrite _ _ _ _ _))

theorem homeOnly_landAll (s : State) (sel : Write → Bool) : HomeOnly s (s.landAll sel) :=
  (HomeOnly.foldl homeOnly_land _ s).trans (HomeOnly.foldl homeOnly_land _ _)

theorem homeOnly_share (s : State) (pa : Nat) : HomeOnly s (s.share pa) := by
  unfold State.share
  split
  · exact .refl s
  · exact (homeOnly_landAll s _).trans ⟨rfl, rfl, rfl, rfl, rfl, rfl, fun _ _ => rfl⟩
  · exact ⟨rfl, rfl, rfl, rfl, rfl, rfl, fun _ _ => rfl⟩

theorem homeOnly_cpWrite (s : State) (pa : Nat) (data : List Byte) : HomeOnly s (s.cpWrite pa data) :=
  (homeOnly_share s pa).trans ⟨rfl, rfl, rfl, rfl, rfl, rfl, fun _ _ => rfl⟩

theorem homeOnly_lines (s : State) (ls : List Line) : HomeOnly s { s with lines := ls } :=
  ⟨rfl, rfl, rfl, rfl, rfl, rfl, fun _ _ => rfl⟩

theorem homeOnly_spokes (s : State) (xs : List Spoke) : HomeOnly s { s with spokes := xs } :=
  ⟨rfl, rfl, rfl, rfl, rfl, rfl, fun _ _ => rfl⟩

theorem homeOnly_emptySpoke (s : State) (sp : Nat) : HomeOnly s (s.emptySpoke sp) :=
  (homeOnly_landAll s (fun x => x.spoke == sp)).trans (homeOnly_lines _ _)

theorem homeOnly_gateAll (s : State) : HomeOnly s s.gateAll := by
  have empty := HomeOnly.foldl homeOnly_emptySpoke (List.range 8) s
  unfold State.gateAll
  generalize (List.range 8).foldl State.emptySpoke s = t at empty ⊢
  exact empty.trans (homeOnly_spokes t _)

theorem gateAll_gated (s : State) : ∀ x ∈ s.gateAll.spokes, x.gated = true ∧ x.ungating = false := by
  unfold State.gateAll
  generalize (List.range 8).foldl State.emptySpoke s = t
  intro x hx
  obtain ⟨y, -, rfl⟩ := List.mem_map.1 hx
  exact ⟨rfl, rfl⟩

/-- Without a write in flight only the lines are dropped. -/
theorem gateAll_of_no_writes {s : State} (h : s.writes = []) :
    s.gateAll = { s with lines := s.gateAll.lines, spokes := s.gateAll.spokes } := by
  have empty (l : List Nat) (s : State) (h : s.writes = []) : ∃ lines, l.foldl State.emptySpoke s = { s with lines := lines } := by
    induction l generalizing s with
    | nil => exact ⟨s.lines, rfl⟩
    | cons sp l ih =>
      have one : s.emptySpoke sp = { s with lines := (s.emptySpoke sp).lines } := by
        simp [State.emptySpoke, State.landAll, h]
      obtain ⟨lines, hl⟩ := ih { s with lines := (s.emptySpoke sp).lines } h
      exact ⟨lines, by rw [List.foldl_cons, one, hl]⟩
  obtain ⟨lines, hl⟩ := empty (List.range 8) s h
  unfold State.gateAll
  rw [hl]

/-! ## A node and the postilions -/

/-- What the failure of nodes with a number in `gone` leaves: no node of theirs, and no wave that was not there. -/
structure NodesGone (s t : State) (gone : List Nat) : Prop where
  board : t.board = s.board
  variant : t.variant = s.variant
  counters : ∀ off, off ≠ 0x20 → Map.get 0 t.hub.counters off = Map.get 0 s.hub.counters off
  nodes : ∀ n ∈ t.nodes, n ∈ s.nodes ∧ n.uid ∉ gone
  waves : ∀ w ∈ t.waves, w ∈ s.waves

theorem nodesGone_dropNode (s : State) (u : Nat) (kill : Bool) : NodesGone s (s.dropNode u kill) [u] := by
  have queued (gone : Nat → Bool) (s : State) : HomeOnly s (s.goneEvents gone) := by
    refine HomeOnly.foldl (fun t w => ?_) _ s
    split
    · exact ⟨rfl, rfl, rfl, rfl, rfl, rfl, fun _ _ => rfl⟩
    · exact .refl t
  unfold State.dropNode
  extract_lets mine s0 s1 s2
  have h0 : HomeOnly s s0 := by
    unfold s0
    split
    · exact queued mine s
    · exact .refl s
  have h1 : HomeOnly s s1 := h0.trans (HomeOnly.foldl (fun t p => homeOnly_cpWrite t _ _) _ s0)
  refine ⟨h1.board, h1.variant, h1.counters, fun n hn => ?_, fun w hw => ?_⟩
  · obtain ⟨hn, hu⟩ := List.mem_filter.1 hn
    exact ⟨h1.nodes ▸ hn, by simpa using hu⟩
  · exact h1.waves ▸ (List.mem_filter.1 hw).1

theorem nodesGone_failNode (s : State) (n : Node) (reason : Nat) : NodesGone s (s.failNode n reason) [n.uid] := by
  unfold State.failNode
  extract_lets a st s1
  have written : HomeOnly s s1 := (homeOnly_cpWrite s _ _).trans (homeOnly_cpWrite _ _ _)
  obtain ⟨board, variant, counters, nodes, waves⟩ := nodesGone_dropNode s1 n.uid (reason == 0x09)
  exact ⟨board.trans written.board, variant.trans written.variant, fun off ho => (counters off ho).trans (written.counters off ho),
    fun m hm => written.nodes ▸ nodes m hm, fun w hw => written.waves ▸ waves w hw⟩

theorem NodesGone.trans {s t u : State} {a b : List Nat} (h : NodesGone s t a) (k : NodesGone t u b) : NodesGone s u (a ++ b) where
  board := k.board.trans h.board
  variant := k.variant.trans h.variant
  counters off ho := (k.counters off ho).trans (h.counters off ho)
  nodes n hn := by
    obtain ⟨hn, hb⟩ := k.nodes n hn
    obtain ⟨hn, ha⟩ := h.nodes n hn
    exact ⟨hn, by simp [ha, hb]⟩
  waves w hw := h.waves w (k.waves w hw)

theorem nodesGone_failNodes (reason : Nat) (l : List Node) (s : State) :
    NodesGone s (l.foldl (fun t n => t.failNode n reason) s) (l.map (fun n => n.uid)) := by
  induction l generalizing s with
  | nil => exact ⟨rfl, rfl, fun _ _ => rfl, fun n hn => ⟨hn, by simp⟩, fun _ hw => hw⟩
  | cons n l ih => exact (nodesGone_failNode s n reason).trans (ih _)

/-- No running node is left where all of them have failed. -/
theorem failRunning_nodes (s : State) (reason : Nat) : ∀ n ∈ (s.failRunning reason).nodes, n.running = false := by
  intro n hn
  obtain ⟨hn, gone⟩ := (nodesGone_failNodes reason _ s).nodes n hn
  refine Bool.eq_false_iff.2 fun run => gone ?_
  exact List.mem_map_of_mem (List.mem_filter.2 ⟨hn, run⟩)

/-- The wave of a postilion at its start (R393). -/
def postStart (uid site : Nat) : Wave :=
  { Wave.start uid allLanes Config.fwEntry with core := 256 + site, post := some site }

/-- Postilions start, one at each of some sites. -/
def State.startAt (s : State) (sites : List Nat) : State :=
  sites.foldl (fun t site => { t with waves := t.waves ++ [postStart t.fresh site], fresh := t.fresh + 1 }) s

theorem startPosts_eq (s : State) :
    s.startPosts = State.startAt { s with posts := s.posts.map (fun p => { p with beat := s.tick }) } s.postSites := rfl

/-- The starts add waves only, for each site one of its own. -/
theorem startAt_spec (sites : List Nat) (s : State) :
    ∃ ws, s.startAt sites = { s with waves := s.waves ++ ws, fresh := (s.startAt sites).fresh }
      ∧ ws.map (fun w => w.post) = sites.map some ∧ ∀ w ∈ ws, w.live = allLanes := by
  induction sites generalizing s with
  | nil => exact ⟨[], by simp [State.startAt], rfl, by simp⟩
  | cons site sites ih =>
    obtain ⟨ws, eq, posts, live⟩ := ih { s with waves := s.waves ++ [postStart s.fresh site], fresh := s.fresh + 1 }
    refine ⟨postStart s.fresh site :: ws, ?_, by rw [List.map_cons, posts]; rfl, ?_⟩
    · have eq : s.startAt (site :: sites) = _ := eq
      rw [eq, List.append_assoc]
      rfl
    · have start : (postStart s.fresh site).live = allLanes &&& ~~~0 := rfl
      exact List.forall_mem_cons.2 ⟨start.trans (by decide), live⟩

end Sys2Proof.Machine

namespace Sys2Proof.Machine

/-! ## Firmware commands (R396 to R398) -/

/-- The answer of a firmware command that found the box empty. -/
def State.fwAnswered (s : State) (result : Nat) : State :=
  { s with fw := { s.fw with cmdSeq := (s.fw.cmdSeq + 1) % 65536, cmdResult := result } }

/-- The machine with a command in its empty box. -/
def State.fwAsked (s : State) (c : Word) : State := { s with fw := { s.fw with cmds := [c] } }

section
variable {s : State} {c : Word}

theorem fwCommand_free (hr : s.pins.reset = false) (hc : s.fw.cmds = []) (f : State → State) : s.fwCommand c f = f (s.fwAsked c) := by
  simp only [State.fwCommand, hr, hc, Bool.false_eq_true, if_false]
  rfl

theorem fwAnswer_asked (hc : s.fw.cmds = []) (r : Nat) : (s.fwAsked c).fwAnswer r = s.fwAnswered r := by
  have settled : ((s.fwAsked c).fw.answer r).settle = { s.fw with cmds := [], cmdSeq := (s.fw.cmdSeq + 1) % 65536, cmdResult := r } := rfl
  unfold State.fwAnswer State.fwAnswered
  rw [settled, ← hc]
  rfl

theorem booting_iff : s.booting = true ↔ s.fw.state = 0 ∨ s.fw.state = 4 := by simp [State.booting]

/-- The machine rebooting into a slot, its cores gated (R393, R397). -/
def State.rebooting (s : State) (b : Bool) : State :=
  State.gateAll { s with fw := { s.fw with state := 4, pref := b }, waves := s.waves.filter (fun w => w.post.isNone) }

/-- BOOT_SLOT's answers in the order of their checks. -/
theorem exec_bootSlot_free (v : BitVec 32) (hr : s.pins.reset = false) (hc : s.fw.cmds = []) : exec (.bootSlot v) s = .next (
    if s.booting then s.fwAnswered 5 else if !s.ctxs.isEmpty then s.fwAnswered 3
    else if s.slotReason (v.getLsbD 4) = 6 then s.fwAnswered 1 else if s.slotReason (v.getLsbD 4) ≠ 0 then s.fwAnswered 2
    else (s.fwAnswered 0).rebooting (v.getLsbD 4)) := by
  have hx : exec (.bootSlot v) s = .next (s.fwCommand (v &&& 0x10 ||| 1) (fun t => t.bootSlot (v.getLsbD 4))) := rfl
  have boot : (s.fwAsked (v &&& 0x10 ||| 1)).booting = s.booting := rfl
  have ctxs : (s.fwAsked (v &&& 0x10 ||| 1)).ctxs = s.ctxs := rfl
  have reason (b : Bool) : (s.fwAsked (v &&& 0x10 ||| 1)).slotReason b = s.slotReason b := rfl
  rw [hx, fwCommand_free hr hc]
  simp only [State.bootSlot, boot, ctxs, reason, fwAnswer_asked hc]
  rfl

/-- RAISE_FLOOR's answers. -/
theorem exec_raiseFloor_free (v : BitVec 32) (hr : s.pins.reset = false) (hc : s.fw.cmds = []) :
    (s.booting = true → exec (.raiseFloor v) s = .next (s.fwAnswered 5))
    ∧ (s.booting = false → s.runSlot = none → exec (.raiseFloor v) s = .next (s.fwAnswered 4))
    ∧ ∀ b, s.booting = false → s.runSlot = some b → exec (.raiseFloor v) s = .next (
      if s.epoch b ≤ s.board.floor ∨ 127 < s.epoch b then s.fwAnswered 4
      else { s.fwAnswered 0 with board := { s.board with floor := s.epoch b } }) := by
  have hx : exec (.raiseFloor v) s = .next (s.fwCommand (v &&& 0x10 ||| 2) State.raiseFloor) := rfl
  have boot : (s.fwAsked (v &&& 0x10 ||| 2)).booting = s.booting := rfl
  have run : (s.fwAsked (v &&& 0x10 ||| 2)).runSlot = s.runSlot := rfl
  have epoch (b : Bool) : (s.fwAsked (v &&& 0x10 ||| 2)).epoch b = s.epoch b := rfl
  have board : (s.fwAsked (v &&& 0x10 ||| 2)).board = s.board := rfl
  have raised (x : Board) : State.fwAnswer { s.fwAsked (v &&& 0x10 ||| 2) with board := x } 0 = { s.fwAnswered 0 with board := x } :=
    fwAnswer_asked (s := { s with board := x }) hc 0
  rw [hx, fwCommand_free hr hc]
  refine ⟨fun h => ?_, fun h hn => ?_, fun b h hb => ?_⟩
  · simp only [State.raiseFloor, boot, h, if_true, fwAnswer_asked hc]
  · simp only [State.raiseFloor, boot, h, run, hn, Bool.false_eq_true, if_false, fwAnswer_asked hc]
  · simp only [State.raiseFloor, boot, h, run, hb, epoch, board, Bool.false_eq_true, if_false, fwAnswer_asked hc, raised,
      Bool.or_eq_true, decide_eq_true_eq]

/-! ## The recovery mailbox, slot writes and SPDM (R399, R400, R408) -/

/-- A request that finds the mailbox free is answered. -/
theorem request_free (hr : s.pins.reset = false) (hb : s.booting = false) (hq : s.fw.req = none) (req : Word) (f : State → State) :
    s.request? req f = f s := by
  simp only [State.request?, hr, hb, hq, Bool.false_eq_true, if_false]

/-- Its answer. -/
theorem rmAnswer_free (hq : s.fw.req = none) (result reason : Nat) (data : List Byte) :
    s.rmAnswer result reason data = { s with fw := { s.fw with
      rmSeq := (s.fw.rmSeq + 1) % 65536, rmResult := result, rmReason := reason, rmData := data } } := by
  unfold State.rmAnswer
  rw [← hq]

/-- A request behind another, or while the device boots, is discarded and counted. -/
theorem request_discarded {req : Word} (hr : s.pins.reset = false) {r : Word} (hq : s.fw.req = some r ∨ s.booting = true)
    (h : r &&& 0x1F ≠ req ∨ s.booting = true) (f : State → State) : s.request? req f = s.count 8 0x78 := by
  unfold State.request?
  rw [hr]
  cases hb : s.booting with
  | true => rfl
  | false =>
    simp only [hb, Bool.false_eq_true, or_false] at hq h
    simp only [hq, beq_eq_false_iff_ne.2 h, Bool.false_eq_true, if_false]
    rfl

/-- An SPDM exchange is answered on the host link. -/
theorem spdm_answered (hr : s.pins.reset = false) (hl : s.pins.linkFailed = false) (kind : Nat) (p front : List Byte) (ask : Bool) :
    ∃ more signed, s.spdm kind p front ask = { s with freeCtr := s.freeCtr + 1, sent := s.sent ++ [.spdm (front ++ more
      ++ if ask then sign Config.deviceKey (Config.signDraw s.freeCtr) signed else [])] } := by
  refine ⟨Config.spdmAnswer kind p s.freeCtr, Config.spdmSigned kind p (front ++ Config.spdmAnswer kind p s.freeCtr), ?_⟩
  simp only [State.spdm, hr, hl, Bool.or_self, Bool.false_eq_true, if_false]

/-- Bytes put one after the other into a table. -/
theorem get_foldl_put_zipIdx {o x : Nat} (data : List Byte) (n : Nat) (m : Map Byte) :
    Map.get 0 ((data.zipIdx n).foldl (fun m x => Map.put 0 m (o + x.2) x.1) m) x
      = if o + n ≤ x ∧ x < o + n + data.length then data.getD (x - (o + n)) 0 else Map.get 0 m x := by
  induction data generalizing n m with
  | nil =>
    have : ¬ (o + n ≤ x ∧ x < o + n + ([] : List Byte).length) := by simp only [List.length_nil]; omega
    rw [if_neg this]
    rfl
  | cons b data ih =>
    rw [List.zipIdx_cons, List.foldl_cons, ih, Map.get_put, List.length_cons]
    by_cases here : x = o + n
    · subst here
      simp
    · rw [if_neg here]
      by_cases later : o + (n + 1) ≤ x ∧ x < o + (n + 1) + data.length
      · rw [if_pos later, if_pos (by omega), show x - (o + n) = x - (o + (n + 1)) + 1 by omega, List.getD_cons_succ]
      · rw [if_neg later, if_neg (by omega)]

/-- A 4-byte write through the window is its slot's alone. -/
theorem slotWrite_eq {o : Nat} {data : List Byte} (hn : data.length = 4) (ha : o % 4 = 0) (ho : o < 2 ^ 25) :
    s.slotWrite o data = s.slotPart (decide (2 ^ 24 ≤ o)) o data := by
  have fits : ¬ 2 ^ 25 < o + data.length := by omega
  have none_left (s : State) (b : Bool) (o : Nat) : s.slotPart b o [] = s := rfl
  unfold State.slotWrite
  rw [if_neg fits]
  by_cases high : 2 ^ 24 ≤ o
  · have low : 2 ^ 24 - o = 0 := by omega
    simp only [low, List.take_zero, List.drop_zero, none_left, List.length_nil, Nat.add_zero, high, decide_true]
  · have low : data.length ≤ 2 ^ 24 - o := by omega
    simp only [List.take_of_length_le low, List.drop_of_length_le low, none_left, high, decide_false]

theorem slotPart_written {b : Bool} {o : Nat} {data : List Byte} (hd : data ≠ []) (hb : s.runSlot ≠ some b) :
    s.slotPart b o data = { s with board := s.board.write o data } := by
  unfold State.slotPart
  rw [if_neg (by simpa using hd), if_neg hb]

theorem slotPart_running {b : Bool} {o : Nat} {data : List Byte} (hd : data ≠ []) (hb : s.runSlot = some b) :
    s.slotPart b o data = s.count 8 0x58 := by
  unfold State.slotPart
  rw [if_neg (by simpa using hd), if_pos hb]

/-! ## The checks of a slot (R395) -/

theorem ofBytes_eq_zero_iff (l : List Byte) : ofBytes l = 0 ↔ l.all (fun x => x == 0) = true := by
  induction l with
  | nil => simp [ofBytes]
  | cons b l ih =>
    simp only [ofBytes, List.all_cons, Bool.and_eq_true, beq_iff_eq, ← ih]
    constructor
    · intro h
      exact ⟨BitVec.eq_of_toNat_eq (by simp; omega), by omega⟩
    · rintro ⟨rfl, h⟩
      simp [h]

/-- SIZE is a multiple of 4096 that a slot has room for. -/
def slotSized (size : Nat) : Prop := size % 4096 = 0 ∧ 4096 ≤ size ∧ size ≤ 0x00FFF000

/-- The fields of a header that must be zero are. -/
def State.slotClean (s : State) (b : Bool) : Prop :=
  s.slotNum b 0x0C 4 = 0 ∧ s.slotNum b 0x40 64 = 0 ∧ s.slotNum b 0xE1 31 = 0 ∧ s.slotNum b 0x160 160 = 0

/-- The header's checks, one after the other (R395). -/
theorem headerReason_spec (s : State) (b : Bool) :
    (s.slotNum b 0 4 ≠ 0x57465A4B → s.headerReason b = 1)
    ∧ (s.slotNum b 0 4 = 0x57465A4B → (¬ slotSized (s.slotNum b 8 4) → s.headerReason b = 2)
      ∧ (slotSized (s.slotNum b 8 4) → (¬ s.slotClean b → s.headerReason b = 8)
        ∧ (s.slotClean b → (sha384 (s.flashBytes b 0x80 97) ≠ s.board.keyHash → s.headerReason b = 3)
          ∧ (sha384 (s.flashBytes b 0x80 97) = s.board.keyHash →
            s.headerReason b = if sigOk (s.flashBytes b 0x80 97) (s.flashBytes b 0 0x100) (s.flashBytes b 0x100 96) then 0 else 4)))) := by
  have size_iff : (decide (s.slotNum b 8 4 % 4096 ≠ 0) || decide (s.slotNum b 8 4 < 4096) || decide (0x00FFF000 < s.slotNum b 8 4)) = true
      ↔ ¬ slotSized (s.slotNum b 8 4) := by
    simp only [slotSized, Bool.or_eq_true, decide_eq_true_eq]
    omega
  have clean_iff : (!((s.flashBytes b 0x0C 4).all (fun x => x == 0) && (s.flashBytes b 0x40 64).all (fun x => x == 0)
      && (s.flashBytes b 0xE1 31).all (fun x => x == 0) && (s.flashBytes b 0x160 160).all (fun x => x == 0))) = true ↔ ¬ s.slotClean b := by
    simp only [State.slotClean, State.slotNum, ofBytes_eq_zero_iff, Bool.not_eq_true', ← Bool.not_eq_true, Bool.and_eq_true, and_assoc]
  unfold State.headerReason
  refine ⟨fun magic => if_pos magic, fun magic => ?_⟩
  rw [if_neg (not_not.2 magic)]
  refine ⟨fun size => if_pos (size_iff.2 size), fun size => ?_⟩
  rw [if_neg (fun h => size_iff.1 h size)]
  refine ⟨fun clean => if_pos (clean_iff.2 clean), fun clean => ?_⟩
  rw [if_neg (fun h => clean_iff.1 h clean)]
  refine ⟨fun key => if_pos key, fun key => ?_⟩
  rw [if_neg (not_not.2 key)]
  cases sigOk (s.flashBytes b 0x80 97) (s.flashBytes b 0 0x100) (s.flashBytes b 0x100 96) <;> rfl

/-- A header that fails a check gives its slot's reason. -/
theorem slotReason_header {b : Bool} {n : Nat} (hf : s.flashErr b 0 512 = false) (hn : s.headerReason b = n) (h0 : n ≠ 0) :
    s.slotReason b = n := by
  simp only [State.slotReason, hf, hn, h0, Bool.false_eq_true, if_false, ne_eq, not_false_eq_true, if_true]

/-- A header that passes them leaves the body's checks and the floor. -/
theorem slotReason_body {b : Bool} (hf : s.flashErr b 0 512 = false) (hn : s.headerReason b = 0) :
    (s.flashErr b 512 (s.slotNum b 8 4) = true → s.slotReason b = 7)
    ∧ (s.flashErr b 512 (s.slotNum b 8 4) = false →
      (sha384 (s.flashBytes b 512 (s.slotNum b 8 4)) ≠ s.flashBytes b 0x10 48 → s.slotReason b = 5)
      ∧ (sha384 (s.flashBytes b 512 (s.slotNum b 8 4)) = s.flashBytes b 0x10 48 →
        s.slotReason b = if s.epoch b < s.board.floor then 6 else 0)) := by
  simp only [State.slotReason, hf, hn, Bool.false_eq_true, if_false, ne_eq, not_true_eq_false]
  refine ⟨fun bad => if_pos bad, fun whole => ?_⟩
  rw [if_neg (by rw [whole]; exact Bool.false_ne_true)]
  exact ⟨fun hash => if_pos hash, fun hash => if_neg (not_not.2 hash)⟩

/-- The slot that a boot runs: the preferred one if it is accepted, else the other if that is (R393). -/
def State.bootRun (s : State) (pref : Bool) : Option Bool :=
  if s.slotReason pref = 0 then some pref else if s.slotReason (!pref) = 0 then some (!pref) else .none

theorem bootRun_eq_some {pref b : Bool} : s.bootRun pref = some b ↔ s.slotReason b = 0 ∧ (pref = !b → s.slotReason (!b) ≠ 0) := by
  unfold State.bootRun
  cases pref <;> cases b <;> by_cases hf : s.slotReason false = 0 <;> by_cases ht : s.slotReason true = 0 <;> simp [hf, ht]

theorem bootRun_eq_none {pref : Bool} : s.bootRun pref = none ↔ s.slotReason false ≠ 0 ∧ s.slotReason true ≠ 0 := by
  unfold State.bootRun
  cases pref <;> by_cases hf : s.slotReason false = 0 <;> by_cases ht : s.slotReason true = 0 <;> simp [hf, ht]

/-- The machine that a boot starts from, before it loads a body or gates its cores. -/
def State.bootBase (s : State) (fw : Firmware) : State :=
  { s with fw := fw, waves := s.waves.filter (fun w => w.post.isNone), posts := Post.resets }

/-- A boot that accepts a slot runs it (R393). -/
theorem bootFrom_runs {pref b : Bool} (h : s.bootRun pref = some b) : ∃ fw, fw.state = (if b then 2 else 1) ∧ fw.pref = pref
    ∧ s.bootFrom pref = State.startPosts { (s.bootBase fw).loadBody b with pins := { s.pins with perst := false } } := by
  unfold State.bootRun at h
  split at h
  · next ok =>
    obtain rfl := Option.some.inj h
    unfold State.bootFrom
    simp only [ok, if_true]
    refine ⟨_, ?_, ?_, rfl⟩
    · cases pref <;> rfl
    · rfl
  · next bad =>
    split at h
    · next ok =>
      obtain rfl := Option.some.inj h
      unfold State.bootFrom
      simp only [bad, ok, if_true, if_false]
      refine ⟨_, ?_, ?_, rfl⟩
      · cases pref <;> rfl
      · rfl
    · cases h

/-- A boot that accepts none ends in RECOVERY (R399). -/
theorem bootFrom_recovers {pref : Bool} (h : s.bootRun pref = .none) :
    ∃ fw, fw.state = 3 ∧ fw.pref = pref ∧ s.bootFrom pref = (s.bootBase fw).gateAll := by
  have bad : s.slotReason pref ≠ 0 ∧ s.slotReason (!pref) ≠ 0 := by
    unfold State.bootRun at h
    split_ifs at h with ok ok'
    exact ⟨ok, ok'⟩
  unfold State.bootFrom
  simp only [bad.1, bad.2, if_false]
  exact ⟨_, rfl, rfl, rfl⟩

/-- Starting the postilions adds their waves, one at each site. -/
theorem startPosts_spec (s : State) : ∃ ws, s.startPosts = { s with
      posts := s.posts.map (fun p => { p with beat := s.tick }), waves := s.waves ++ ws, fresh := s.startPosts.fresh }
    ∧ ws.map (fun w => w.post) = s.postSites.map some ∧ ∀ w ∈ ws, w.live = allLanes :=
  startAt_spec s.postSites { s with posts := s.posts.map (fun p => { p with beat := s.tick }) }

/-- A postilion of every site is among waves that stand for the sites. -/
theorem mem_of_posts {ws : List Wave} {sites : List Nat} {site : Nat} (h : ws.map (fun w => w.post) = sites.map some)
    (live : ∀ w ∈ ws, w.live = allLanes) (hs : site ∈ sites) : ∃ w ∈ ws, w.post = some site ∧ w.live = allLanes := by
  have : some site ∈ ws.map (fun w => w.post) := h ▸ List.mem_map_of_mem hs
  obtain ⟨w, hw, post⟩ := List.mem_map.1 this
  exact ⟨w, hw, post, live w hw⟩

theorem post_of_posts {ws : List Wave} {sites : List Nat} (h : ws.map (fun w => w.post) = sites.map some) : ∀ w ∈ ws, w.post ≠ none := by
  intro w hw no_post
  have : none ∈ sites.map some := h ▸ no_post ▸ List.mem_map_of_mem hw
  simp at this

/-- The bytes at which a body is loaded. -/
theorem byteAt_loadBody (s : State) (b : Bool) {k : Nat} (hk : k < (s.flashBytes b 512 (s.slotNum b 8 4)).length) :
    (s.loadBody b).byteAt (devBase + Config.fwCarve % spokeSpan + k) = (s.flashBytes b 512 (s.slotNum b 8 4)).getD k 0 := by
  unfold State.loadBody
  rw [byteAt_cpWrite, if_pos ⟨Nat.le_add_right .., Nat.add_lt_add_left hk _⟩, Nat.add_sub_cancel_left]

/-- THE END OF A BOOT THAT RUNS A SLOT (R393). -/
theorem bootFrom_running {pref b : Bool} (h : s.bootRun pref = some b) :
    (s.bootFrom pref).board = s.board ∧ (s.bootFrom pref).fw.pref = pref ∧ (s.bootFrom pref).fw.state = (if b then 2 else 1)
      ∧ (s.bootFrom pref).pins = { s.pins with perst := false }
      ∧ (∀ k, k < (s.flashBytes b 512 (s.slotNum b 8 4)).length → (s.bootFrom pref).byteAt (devBase + Config.fwCarve % spokeSpan + k)
          = (s.flashBytes b 512 (s.slotNum b 8 4)).getD k 0)
      ∧ ∃ ws, (s.bootFrom pref).waves = s.waves.filter (fun w => w.post.isNone) ++ ws
        ∧ ws.map (fun w => w.post) = s.postSites.map some ∧ ∀ w ∈ ws, w.live = allLanes := by
  obtain ⟨fw, state, prefers, eq⟩ := bootFrom_runs h
  have loaded : HomeOnly (s.bootBase fw) ((s.bootBase fw).loadBody b) := homeOnly_cpWrite _ _ _
  have bytes := fun k => byteAt_loadBody (s.bootBase fw) b (k := k)
  obtain ⟨u, hu⟩ : ∃ u, u = (s.bootBase fw).loadBody b := ⟨_, rfl⟩
  rw [← hu] at eq loaded bytes
  obtain ⟨ws, started, posts, live⟩ := startPosts_spec { u with pins := { s.pins with perst := false } }
  have sites : State.postSites { u with pins := { s.pins with perst := false } } = s.postSites := by
    unfold State.postSites
    rw [show u.variant = s.variant from loaded.variant]
  rw [sites] at posts
  rw [eq, started]
  refine ⟨loaded.board, (congrArg _ loaded.fw).trans prefers, (congrArg _ loaded.fw).trans state, rfl, bytes, ws, ?_, posts, live⟩
  exact congrArg (· ++ ws) loaded.waves

/-- THE END OF A BOOT IN RECOVERY (R399). -/
theorem bootFrom_recovery {pref : Bool} (h : s.bootRun pref = .none) :
    (s.bootFrom pref).board = s.board ∧ (s.bootFrom pref).fw.pref = pref ∧ (s.bootFrom pref).fw.state = 3
      ∧ (s.bootFrom pref).pins = s.pins ∧ (∀ x ∈ (s.bootFrom pref).spokes, x.gated = true ∧ x.ungating = false)
      ∧ (s.writes = [] → (s.bootFrom pref).mem = s.mem)
      ∧ (s.bootFrom pref).waves = s.waves.filter (fun w => w.post.isNone) := by
  obtain ⟨fw, state, prefers, eq⟩ := bootFrom_recovers h
  have gated := homeOnly_gateAll (s.bootBase fw)
  rw [eq]
  refine ⟨gated.board, (congrArg _ gated.fw).trans prefers, (congrArg _ gated.fw).trans state, gated.pins, gateAll_gated _,
    fun hw => ?_, gated.waves⟩
  rw [gateAll_of_no_writes (s := s.bootBase fw) hw]
  rfl

/-! ## The restart of the postilions (R392) -/

/-- As many waves are a site's postilion as the site is listed. -/
theorem posts_length {ws : List Wave} {sites : List Nat} (h : ws.map (fun w => w.post) = sites.map some) (site : Nat) :
    (ws.filter (fun w => w.post == some site)).length = sites.count site := by
  have : (ws.map (fun w => w.post)).count (some site) = sites.count site := by
    rw [h, List.count_map_of_injective sites some (Option.some_injective _)]
  rw [← this, ← List.countP_eq_length_filter, List.count_eq_countP, List.countP_map]
  rfl

theorem postSites_nodup (s : State) : s.postSites.Nodup := by
  unfold State.postSites
  split <;> decide

theorem nodesGone_failRunning (s : State) (reason : Nat) :
    NodesGone s (s.failRunning reason) ((s.nodes.filter (fun n => n.running)).map (fun n => n.uid)) := nodesGone_failNodes reason _ s

theorem restartPosts_spec (s : State) : s.restartPosts.board = s.board ∧ (∀ n ∈ s.restartPosts.nodes, n.running = false)
    ∧ Map.get 0 s.restartPosts.hub.counters 0x60 = Map.get 0 s.hub.counters 0x60 + 1
    ∧ ∀ site ∈ s.postSites, (s.restartPosts.waves.filter (fun w => w.post == some site)).length = 1 := by
  obtain ⟨u, hu⟩ : ∃ u, u = State.failRunning { s with waves := s.waves.filter (fun w => w.post.isNone) } 0x0D := ⟨_, rfl⟩
  have eq : s.restartPosts = State.startPosts { u.count 8 0x60 with posts := Post.resets } := by rw [hu]; rfl
  have failed := nodesGone_failRunning { s with waves := s.waves.filter (fun w => w.post.isNone) } 0x0D
  have nodes := failRunning_nodes { s with waves := s.waves.filter (fun w => w.post.isNone) } 0x0D
  rw [← hu] at failed nodes
  obtain ⟨ws, started, posts, -⟩ := startPosts_spec { u.count 8 0x60 with posts := Post.resets }
  have sites : State.postSites { u.count 8 0x60 with posts := Post.resets } = s.postSites := by
    have variant : u.variant = s.variant := failed.variant
    unfold State.postSites
    rw [← variant]
    rfl
  rw [sites] at posts
  rw [eq, started]
  refine ⟨failed.board, nodes, ?_, fun site hs => ?_⟩
  · have counted : Map.get 0 (u.count 8 0x60).hub.counters 0x60 = Map.get 0 u.hub.counters 0x60 + 1 := State.get_count_hub 0x60
    exact counted.trans (congrArg (· + 1) (failed.counters 0x60 (by decide)))
  · have no_posts : u.waves.filter (fun w => w.post == some site) = [] := by
      refine List.filter_eq_nil_iff.2 fun w hw is_post => ?_
      have := (List.mem_filter.1 (failed.waves w hw)).2
      rw [beq_iff_eq.1 is_post] at this
      cases this
    have all : ((u.waves ++ ws).filter (fun w => w.post == some site)).length = 1 := by
      rw [List.filter_append, no_posts, List.nil_append, posts_length posts,
        List.count_eq_one_of_mem (postSites_nodup s) hs]
    exact all

end

end Sys2Proof.Machine

namespace Sys2Proof.Machine

/-! ## The clauses of the statement -/

theorem step_boot {s : State} {rest : List Move} (h : s.schedule = .boot :: rest) :
    step s = .next (State.endBoot { s with schedule := rest }) := by
  unfold step
  rw [h]
  rfl

section
variable {s : State}

/-- A reboot keeps everything but the firmware's state, the postilions' waves and what the gated spokes held (R397). -/
theorem rebooting_spec (s : State) (b : Bool) : (s.rebooting b).fw = { s.fw with state := 4, pref := b }
    ∧ (s.rebooting b).board = s.board ∧ (s.rebooting b).waves = s.waves.filter (fun w => w.post.isNone)
    ∧ (∀ x ∈ (s.rebooting b).spokes, x.gated = true ∧ x.ungating = false)
    ∧ (s.writes = [] → s.rebooting b = { s with
      fw := (s.rebooting b).fw, waves := s.waves.filter (fun w => w.post.isNone), spokes := (s.rebooting b).spokes
      lines := (s.rebooting b).lines }) := by
  obtain ⟨u, hu⟩ : ∃ u : State, u = { s with fw := { s.fw with state := 4, pref := b }, waves := s.waves.filter (fun w => w.post.isNone) } :=
    ⟨_, rfl⟩
  have eq : s.rebooting b = u.gateAll := by rw [hu]; rfl
  have gated := homeOnly_gateAll u
  rw [eq]
  refine ⟨gated.fw.trans (by rw [hu]), gated.board.trans (by rw [hu]), gated.waves.trans (by rw [hu]), gateAll_gated u, fun hw => ?_⟩
  have writes : u.writes = [] := by rw [hu]; exact hw
  rw [gateAll_of_no_writes writes, hu]

theorem endBoot_idle (h : s.pins.reset = true ∨ s.booting = false) : s.endBoot = s := by
  refine if_pos ?_
  obtain h | h := h <;> simp [h]

theorem endBoot_boots (hr : s.pins.reset = false) (hb : s.booting = true) : s.endBoot = s.bootFrom s.fw.pref :=
  if_neg (by simp [hr, hb])

/-- Which slot a boot runs is what STATE reads at its end. -/
theorem bootFrom_state (pref : Bool) : ((s.bootFrom pref).fw.state = 1 ↔ s.bootRun pref = some false)
    ∧ ((s.bootFrom pref).fw.state = 2 ↔ s.bootRun pref = some true) ∧ ((s.bootFrom pref).fw.state = 3 ↔ s.bootRun pref = none) := by
  cases h : s.bootRun pref with
  | none =>
    obtain ⟨-, -, state, -⟩ := bootFrom_recovery h
    rw [state]
    decide
  | some b =>
    obtain ⟨-, -, state, -⟩ := bootFrom_running h
    rw [state]
    cases b <;> decide

/-- A request that differs from the one in the mailbox in its command and slot bits. -/
theorem ne_of_command {r req : Word} (h : r.toNat % 32 ≠ req.toNat) : r &&& 0x1F ≠ req := by
  rintro rfl
  exact h (by rw [BitVec.toNat_and]; exact (Nat.and_two_pow_sub_one_eq_mod r.toNat 5).symm)

/-- An aligned write to the slots' window (R399). -/
theorem exec_slotWrite_aligned {o : Nat} (v : BitVec 32) (hr : s.pins.reset = false) (ha : o % 4 = 0) (ho : o < 2 ^ 25) :
    exec (.slotWrite o v) s = .next (s.slotPart (decide (2 ^ 24 ≤ o)) o (toBytes 4 v.toNat)) := by
  have hx : exec (.slotWrite o v) s = execSlotWrite o v s := rfl
  rw [hx, execSlotWrite, if_neg (by simp [hr, ha]), slotWrite_eq (toBytes_length 4 v.toNat) ha ho]

theorem silent_iff {post : Nat} : s.silent post = true ↔ post ∈ s.postSites ∧ (post = 8 ∨ (s.spoke post).gated = false)
    ∧ (s.posts.getD post (.reset post)).beat + 3000000 ≤ s.tick := by
  simp [State.silent, and_assoc]

theorem exec_postilionRestart_silent {post : Nat} (run : s.runSlot ≠ none) (h : s.silent post = true) :
    exec (.postilionRestart post) s = .next s.restartPosts :=
  if_pos (by simp [h, Option.isSome_iff_ne_none.2 run])

theorem exec_postilionRestart_still {post : Nat} (h : s.runSlot = none ∨ ¬ s.silent post = true) :
    exec (.postilionRestart post) s = .next s := by
  refine if_neg fun both => ?_
  obtain ⟨run, quiet⟩ := Bool.and_eq_true_iff.1 both
  obtain h | h := h
  · rw [h] at run
    cases run
  · exact h quiet

end

end Sys2Proof.Machine

section
open Sys2Proof Sys2Proof.Machine

/-- Settles O51: each command, request and exchange is answered as its checks say; a boot and a restart write at home only and then start
the postilions. -/
theorem firmware : Obligations.Firmware := by
  refine ⟨fun s v hr hc => ?_, fun s rest hs => ?_, fun s v hr h0 h4 hq => ?_, fun s b => ?_, fun s r hr hq => ?_, fun s o v hr ha ho => ?_,
    fun s p hr hl => ?_, fun s post => ?_⟩
  · intro slot booting answered only
    have answers {ins : Instr} {r : Nat} (h : exec ins s = .next (s.fwAnswered r)) : only ins r := ⟨_, h, ⟨hc, rfl, rfl⟩, rfl⟩
    have idle {P : Prop} (h : ¬ booting) (k : s.booting = false → P) : P := k (Bool.eq_false_iff.2 fun hb => h (booting_iff.1 hb))
    have boot := exec_bootSlot_free v hr hc
    obtain ⟨raise_boot, raise_none, raise_some⟩ := exec_raiseFloor_free v hr hc
    refine ⟨fun hb => ?_, fun hb latched => ?_, fun hb free => ?_, fun hb none => ?_, fun b hb run => ?_⟩
    · have hb : s.booting = true := booting_iff.2 hb
      rw [hb] at boot
      exact ⟨answers boot, answers (raise_boot hb)⟩
    · refine idle hb fun hb => answers ?_
      simpa only [hb, Bool.false_eq_true, if_false, List.isEmpty_eq_false_iff.2 latched, Bool.not_false, if_true] using boot
    · refine idle hb fun hb => ?_
      simp only [hb, Bool.false_eq_true, if_false, free, List.isEmpty_nil, Bool.not_true] at boot
      refine ⟨fun six => answers (boot.trans (by rw [if_pos six])), fun six some_reason =>
        answers (boot.trans (by rw [if_neg six, if_pos some_reason])), fun accepted => ?_⟩
      have accepted : s.slotReason (v.getLsbD 4) = 0 := accepted
      rw [if_neg (by rw [accepted]; decide), if_neg (not_not.2 accepted)] at boot
      obtain ⟨fw, board, waves, gated, still⟩ := rebooting_spec (s.fwAnswered 0) (v.getLsbD 4)
      have done : answered ((s.fwAnswered 0).rebooting (v.getLsbD 4)) 0 :=
        ⟨(congrArg Firmware.cmds fw).trans hc, congrArg Firmware.cmdSeq fw, congrArg Firmware.cmdResult fw⟩
      refine ⟨_, boot, done, congrArg Firmware.state fw, congrArg Firmware.pref fw, board, fun w hw => ?_, gated, fun hw => still hw⟩
      · rw [waves] at hw
        exact Option.isNone_iff_eq_none.1 (List.mem_filter.1 hw).2
    · exact idle hb fun hb => answers (raise_none hb none)
    · refine idle hb fun hb => ?_
      have raise := raise_some b hb run
      refine ⟨fun low => answers (raise.trans (by rw [if_pos low])), fun above fits => ?_⟩
      rw [if_neg (by omega)] at raise
      exact ⟨_, raise, ⟨hc, rfl, rfl⟩, rfl⟩
  · intro r booting pref image carve
    rw [step_boot hs]
    refine ⟨fun idle => ?_, fun hr hb => ?_⟩
    · refine congrArg _ (endBoot_idle (idle.imp_right fun hb => Bool.eq_false_iff.2 fun h => hb (booting_iff.1 h)))
    · have eq : r.endBoot = r.bootFrom pref := endBoot_boots hr (booting_iff.2 hb)
      obtain ⟨state1, state2, state3⟩ := bootFrom_state (s := r) pref
      refine ⟨_, congrArg _ eq, ?_⟩
      cases run : r.bootRun pref with
      | none =>
        obtain ⟨board, prefers, state, pins, gated, mem, waves⟩ := bootFrom_recovery run
        refine ⟨board, prefers, fun b hb => ?_, fun _ => ⟨pins, gated, mem⟩, state1.trans bootRun_eq_some, state2.trans bootRun_eq_some,
          state3.trans bootRun_eq_none, fun w hw => ?_, fun h => absurd state h⟩
        · rw [state] at hb
          cases b <;> cases hb
        · rw [waves] at hw
          exact .inl (List.mem_filter.1 hw).1
      | some b =>
        obtain ⟨board, prefers, state, pins, bytes, ws, waves, posts, live⟩ := bootFrom_running run
        refine ⟨board, prefers, fun b' hb => ?_, fun h => ?_, state1.trans bootRun_eq_some, state2.trans bootRun_eq_some,
          state3.trans bootRun_eq_none, fun w hw => ?_, fun _ site hs => ?_⟩
        · obtain rfl : b' = b := by
            rw [state] at hb
            revert hb
            cases b <;> cases b' <;> decide
          exact ⟨pins, bytes⟩
        · rw [state] at h
          cases b <;> cases h
        · rw [waves, List.mem_append] at hw
          exact hw.imp (fun h => (List.mem_filter.1 h).1) (post_of_posts posts w)
        · obtain ⟨w, hw, post⟩ := mem_of_posts posts live hs
          exact ⟨w, waves ▸ List.mem_append_right _ hw, post⟩
  · intro slot gives
    have hb : s.booting = false := Bool.eq_false_iff.2 fun h => (booting_iff.1 h).elim h0 h4
    have answers {ins : Instr} {f : State → State} {req : Word} {result reason : Nat} {data : List Byte}
        (hx : exec ins s = .next (s.request? req f)) (hf : f s = s.rmAnswer result reason data) : gives ins result reason data := by
      rw [request_free hr hb hq, hf, rmAnswer_free hq] at hx
      exact hx
    refine ⟨answers (f := State.romVersion) rfl rfl, ⟨_, answers (f := State.flashId) rfl rfl, rfl, rfl⟩, fun err => ?_, fun whole => ?_⟩
    · exact answers (f := fun t => t.readHeader slot) rfl (if_pos err)
    · refine ⟨_, answers (f := fun t => t.readHeader slot) rfl (if_neg (by rw [whole]; exact Bool.false_ne_true)), ?_⟩
      exact (headerReason_spec s slot).1
  · intro f size key clean sized signed
    refine ⟨fun err => if_pos err, fun whole => ?_⟩
    obtain ⟨magic, good⟩ := headerReason_spec s b
    refine ⟨fun h => slotReason_header whole (magic h) (by decide), fun h => ?_⟩
    obtain ⟨size', good⟩ := good h
    refine ⟨fun h => slotReason_header whole (size' h) (by decide), fun h => ?_⟩
    obtain ⟨clean', good⟩ := good h
    refine ⟨fun h => slotReason_header whole (clean' h) (by decide), fun h => ?_⟩
    obtain ⟨key', good⟩ := good h
    refine ⟨fun h => slotReason_header whole (key' h) (by decide), fun h => ?_⟩
    have sig := good h
    refine ⟨fun h => slotReason_header whole (sig.trans (if_neg h)) (by decide), fun h => ?_⟩
    exact slotReason_body whole (sig.trans (if_pos h))
  · intro row hrow hne
    have discards {ins : Instr} {f : State → State} {req : Word} (hx : exec ins s = .next (s.request? req f))
        (h : r.toNat % 32 ≠ req.toNat ∨ s.fw.state = 0 ∨ s.fw.state = 4) :
        ∃ t, exec ins s = .next t ∧ t = { s with hub := { s.hub with counters := t.hub.counters } }
          ∧ Map.get 0 t.hub.counters 0x78 = Map.get 0 s.hub.counters 0x78 + 1 :=
      ⟨_, hx.trans (congrArg _ (request_discarded hr (hq.imp_right booting_iff.2) (h.imp ne_of_command booting_iff.2) f)), rfl,
        State.get_count_hub 0x78⟩
    simp only [List.mem_cons, List.not_mem_nil, or_false] at hrow
    obtain rfl | rfl | rfl | rfl := hrow
    · exact discards (f := State.romVersion) (req := 1) rfl hne
    · exact discards (f := State.flashId) (req := 2) rfl hne
    · exact discards (f := fun t => t.readHeader false) (req := 3) rfl hne
    · exact discards (f := fun t => t.readHeader true) (req := 0x13) rfl hne
  · intro b
    have len : (toBytes 4 v.toNat).length = 4 := toBytes_length 4 v.toNat
    have some_bytes : toBytes 4 v.toNat ≠ [] := List.ne_nil_of_length_eq_add_one len
    have hx := exec_slotWrite_aligned v hr ha ho
    refine ⟨fun idle => ?_, fun run => ?_⟩
    · refine ⟨_, hx.trans (congrArg _ (slotPart_written some_bytes idle)), rfl, rfl, rfl, rfl, fun k => ?_⟩
      have put := get_foldl_put_zipIdx (o := o) (x := k) (toBytes 4 v.toNat) 0 s.board.flash
      rw [len] at put
      exact put
    · exact ⟨_, hx.trans (congrArg _ (slotPart_running some_bytes run)), rfl, State.get_count_hub 0x58⟩
  · have answers {ins : Instr} (kind : Nat) {front : List Byte} {ask : Bool} (hx : exec ins s = .next (s.spdm kind p front ask)) :
        ∃ more signed, exec ins s = .next { s with freeCtr := s.freeCtr + 1, sent := s.sent ++ [.spdm (front ++ more
          ++ if ask then sign Config.deviceKey (Config.signDraw s.freeCtr) signed else [])] } := by
      obtain ⟨more, signed, eq⟩ := spdm_answered hr hl kind p front ask
      exact ⟨more, signed, hx.trans (congrArg _ eq)⟩
    intro row hrow
    simp only [List.mem_cons, List.not_mem_nil, or_false] at hrow
    obtain rfl | rfl | rfl | rfl | rfl | rfl | rfl := hrow
    · exact answers 0 rfl
    · exact answers 1 rfl
    · exact answers 2 rfl
    · exact answers 3 rfl
    · exact answers 4 rfl
    · exact answers 5 rfl
    · exact answers 6 rfl
  · intro silent
    refine ⟨fun run quiet => ?_, fun still => ?_⟩
    · exact ⟨_, exec_postilionRestart_silent run (silent_iff.2 quiet), restartPosts_spec s⟩
    · exact exec_postilionRestart_still (still.imp_right fun h quiet => h (silent_iff.1 quiet))

end

/-! Transfers and calls (R278, R282, R283): where the lanes of a path go, and the budget words before the targets of a call. -/

namespace Sys2Proof.Machine

/-! ## Where lanes go when a path is replaced -/

/-- Path `q` holds every lane of `p` and stands where `p` stands. -/
structure Path.carries (p q : Path) : Prop where
  lanes : p.lanes &&& ~~~q.lanes = 0
  pc : q.pc = p.pc
  entry : q.entry = p.entry
  clause : q.clause = p.clause
  waiting : q.waiting = p.waiting

theorem Path.carries_refl (p : Path) : p.carries p := ⟨BitVec.and_not_self _, rfl, rfl, rfl, rfl⟩

/-- Lanes that join a path take no lane from it. -/
theorem Path.carries_join {p q : Path} (h : p.carries q) (m : LaneMask) (n : Nat) :
    p.carries { q with lanes := m ||| q.lanes, passed := n } := by
  refine ⟨?_, h.pc, h.entry, h.clause, h.waiting⟩
  rw [BitVec.not_or, BitVec.and_comm (~~~m), ← BitVec.and_assoc, h.lanes]
  exact BitVec.zero_and

/-- A path joined to the one it is the same as is carried by it (R278). -/
theorem Path.carries_of_same {p q : Path} (h : p.same q = true) (n : Nat) :
    p.carries { q with lanes := p.lanes ||| q.lanes, passed := n } := by
  simp only [Path.same, Bool.and_eq_true, Bool.not_eq_true', Option.isNone_iff_eq_none, beq_iff_eq] at h
  refine ⟨?_, ?_, ?_, ?_, ?_⟩
  · rw [BitVec.not_or, ← BitVec.and_assoc, BitVec.and_not_self]
    exact BitVec.zero_and
  all_goals simp [h]

/-- Adding a path carries it, if it has a lane, and what was carried. -/
theorem addPath_carries {p x : Path} {ps : List Path} (h : p = x ∧ x.lanes ≠ 0 ∨ ∃ q ∈ ps, p.carries q) :
    ∃ q ∈ addPath x ps, p.carries q := by
  induction ps with
  | nil =>
    obtain ⟨rfl, some_lane⟩ := h.resolve_right (by simp)
    exact ⟨p, by rw [addPath, if_neg some_lane]; exact List.mem_singleton_self p, p.carries_refl⟩
  | cons y ps ih =>
    unfold addPath
    simp only [List.exists_mem_cons_iff] at h
    split
    · next same =>
      rw [List.exists_mem_cons_iff]
      obtain ⟨rfl, -⟩ | h | h := h
      · exact .inl (Path.carries_of_same same _)
      · exact .inl (Path.carries_join h _ _)
      · exact .inr h
    · rw [List.exists_mem_cons_iff]
      obtain h | h | h := h
      · exact .inr (ih (.inl h))
      · exact .inl h
      · exact .inr (ih (.inr h))

theorem foldl_addPath_carries {p : Path} {new ps : List Path} (h : p ∈ new ∧ p.lanes ≠ 0 ∨ ∃ q ∈ ps, p.carries q) :
    ∃ q ∈ new.foldl (fun acc x => addPath x acc) ps, p.carries q := by
  induction new generalizing ps with
  | nil => exact h.resolve_left (by simp)
  | cons x new ih =>
    refine ih ?_
    rw [List.mem_cons] at h
    obtain ⟨rfl | hp, some_lane⟩ | h := h
    · exact .inr (addPath_carries (.inl ⟨rfl, some_lane⟩))
    · exact .inl ⟨hp, some_lane⟩
    · exact .inr (addPath_carries (.inr h))

/-- Where a path is replaced, the new paths and those beside it are carried. -/
theorem replacePath_carries {p : Path} {ps new : List Path} {lanes : LaneMask} (some_lane : p.lanes ≠ 0)
    (h : p ∈ new ∨ p ∈ ps ∧ p.lanes &&& lanes = 0) : ∃ q ∈ replacePath ps lanes new, p.carries q := by
  refine foldl_addPath_carries (h.imp (fun hp => ⟨hp, some_lane⟩) fun ⟨hp, apart⟩ => ⟨p, ?_, p.carries_refl⟩)
  exact List.mem_filter.2 ⟨hp, beq_iff_eq.2 apart⟩

/-- A lane of a path that is carried is at the path's clause header. -/
theorem laneAt_of_carries {w : Wave} {p q : Path} {l : Nat} (hq : q ∈ w.paths) (h : p.carries q) (hl : p.lanes.getLsbD l = true)
    (entry : p.entry = 0) (clause : p.clause = none) (waiting : p.waiting = false) : w.laneAt l p.pc := by
  refine ⟨q, hq, ?_, h.pc, h.entry.trans entry, h.clause.trans clause, h.waiting.trans waiting⟩
  have := congrArg (fun m : LaneMask => m.getLsbD l) h.lanes
  simpa [hl, BitVec.lt_of_getLsbD hl] using this

/-! ## The transfer (R282) -/

/-- The paths of a transfer: one for each target, one for the lanes that go on. -/
def Issue.branches (i : Issue) (q : LaneMask) (t : Nat → Word64) : List Path :=
  i.targets q t ++ [i.path (i.p.lanes &&& ~~~q) i.c.after]

/-- A lane of the path is on the path to its target or, where it does not qualify, on the one that goes on. -/
theorem Issue.mem_branches (i : Issue) (q : LaneMask) (t : Nat → Word64) {l : Nat} (hl : i.p.lanes.getLsbD l = true) :
    ∃ m, i.path m (if q.getLsbD l then t l else i.c.after) ∈ i.branches q t ∧ m.getLsbD l = true := by
  have h32 : l < 32 := BitVec.lt_of_getLsbD hl
  cases lane : q.getLsbD l with
  | true =>
    refine ⟨maskOf (fun k => q.getLsbD k && t k == t l), List.mem_append_left _ (List.mem_map.2 ⟨t l, ?_, rfl⟩), ?_⟩
    · exact List.mem_eraseDups.2 (List.mem_map_of_mem ((mem_lanesOf q l).2 ⟨h32, lane⟩))
    · simp [getLsbD_maskOf, h32, lane]
  | false =>
    refine ⟨_, List.mem_append_right _ (List.mem_singleton_self _), ?_⟩
    simp only [BitVec.getLsbD_and, BitVec.getLsbD_not, hl, h32, lane, decide_true, Bool.not_false, Bool.and_self]

/-- With the path replaced by those of the transfer, the transfer is made. -/
theorem transfers_of_branches {i : Issue} {g : Guard} {t : Nat → Word64} {w' : Wave} (htrap : w'.trap = i.w.trap)
    (hpaths : w'.paths = replacePath i.w.paths i.p.lanes (i.branches (i.lanes g) t)) : Transfers i g t w' := by
  refine ⟨fun l _ hl => ?_, fun p hp apart some_lane => ?_, htrap⟩
  · obtain ⟨m, hm, lane⟩ := i.mem_branches (i.lanes g) t hl
    have some_lane : m ≠ 0 := fun h0 => by simp [h0] at lane
    obtain ⟨q, hq, h⟩ := replacePath_carries (p := i.path m _) (ps := i.w.paths) some_lane (.inl hm)
    exact laneAt_of_carries (hpaths ▸ hq) h lane rfl rfl rfl
  · obtain ⟨q, hq, h⟩ := replacePath_carries (new := i.branches (i.lanes g) t) some_lane (.inr ⟨hp, apart⟩)
    exact ⟨q, hpaths ▸ hq, h.lanes, h.pc, h.clause, h.waiting⟩

/-- Every target of a lane of `q` is the address of a word. -/
def Aligned (q : LaneMask) (t : Nat → Word64) : Prop := ∀ l, l < 32 → q.getLsbD l = true → (t l).toNat % 8 = 0

theorem transfer_of_aligned {s : State} {i : Issue} {w : Wave} {q : LaneMask} {t : Nat → Word64} (h : Aligned q t) :
    s.transfer i w q t = s.replace i w (i.branches q t) := by
  refine if_neg fun bad => ?_
  obtain ⟨l, hl, odd⟩ := List.any_eq_true.1 bad
  obtain ⟨h32, lane⟩ := (mem_lanesOf q l).1 hl
  simp [h l h32 lane] at odd

/-- An operation that changes the wave only where an issue may is an issue. -/
theorem Opened.issued {s t : State} {i : Issue} {base w' : Wave} {ps : List Path} (h : Opened s t i base ps w')
    (hb : base.still = i.w.still) : Issued s t i w' :=
  ⟨h.wave, h.others, h.rest, h.memory, h.clusters, (Wave.still_iff _ _).1 (by rw [h.kept]; exact hb)⟩

/-! ## The budget words of a call (R87, R283) -/

theorem pathIssue_next {g : Guard} {toks reads writes : List RegId} {f : State → Issue → LaneMask → Option State} {s t : State} {i : Issue}
    (h : ReadyPath s i g toks reads writes) (hq : i.lanes g ≠ 0) (ht : f s i.counted (i.lanes g) = some t) :
    pathIssue g toks reads writes f s = .next t := by
  rw [pathIssue_ready h hq, ht]

/-- The budget word before `x` reads as `y`, and holds no error. -/
def State.readsBudget (s : State) (w : Wave) (x y : Word64) : Prop :=
  ∃ pa, s.codeWord w (x - 8).toNat = .ok (y, pa) ∧ s.bad.contains (pa / 64) = false

/-- A budget that a caller of budget `b` can give (R87). -/
def Fits (b : Nat) (x : Word64) : Prop := 8 ≤ x.toNat ∧ x.toNat ≤ min 192 b ∧ x.toNat % 8 = 0

theorem budgetExceeds_iff (x : Word64) (b : Nat) : budgetExceeds x b = true ↔ ¬ Fits b x := by
  simp only [budgetExceeds, Fits, Bool.or_eq_true, decide_eq_true_eq, bne_iff_ne]
  omega

theorem State.readsBudget_unique {s : State} {w : Wave} {x y z : Word64} (h : s.readsBudget w x y) (k : s.readsBudget w x z) : y = z := by
  obtain ⟨_, hy, -⟩ := h
  obtain ⟨_, hz, -⟩ := k
  rw [hy] at hz
  injection hz with hz
  exact congrArg Prod.fst hz

/-- The address of the budget word, as the model and as the manual count it. -/
theorem budget_address (x : Word64) : (x.toNat + (2 ^ 64 - 8)) % 2 ^ 64 = (x - 8).toNat := by
  rw [BitVec.toNat_sub, Nat.add_comm]
  rfl

/-- Steps that change nothing leave a fold where it began. -/
theorem foldl_eq_self {α β : Type} {f : β → α → β} {l : List α} {b : β} (h : ∀ x ∈ l, f b x = b) : l.foldl f b = b :=
  List.foldlRecOn (motive := fun c => c = b) l f rfl fun c hc x hx => by rw [hc, h x hx]

/-- The wave of a call: its link pair holds the address after the clause. -/
def Issue.linked (i : Issue) (fresh : Nat) (q : LaneMask) (d : Fin 192) : Wave :=
  { i.w with rf := i.w.rf.write64 (.v d) q (fun _ => i.c.after), marks := i.w.marks ++ [⟨fresh, vRun d 2⟩] }

/-- The distinct targets of some lanes. -/
def targetsOf (q : LaneMask) (t : Nat → Word64) : List Word64 := ((lanesOf q).map t).eraseDups

/-- What a read of a budget word meets, whether it is too much for budget `b`, and the report of an error in it. -/
def refusal : Except (Nat × Tr) (Word64 × Nat) → Option (Nat × Tr)
  | .error e => some e
  | .ok _ => none
def tooMuch (b : Nat) : Except (Nat × Tr) (Word64 × Nat) → Bool
  | .ok y => budgetExceeds y.1 b
  | .error _ => false
def State.reportBudget (s z : State) : Except (Nat × Tr) (Word64 × Nat) → State
  | .ok y => if s.bad.contains (y.2 / 64) then z.reportBad ((z.homeOf y.2).getD 0) y.2 else z
  | .error _ => z

/-- The reads of the budget words before some targets. -/
def State.budgetWords (s : State) (w : Wave) (ts : List Word64) : List (Except (Nat × Tr) (Word64 × Nat)) :=
  ts.map (fun x => s.codeWord w ((x.toNat + (2 ^ 64 - 8)) % 2 ^ 64))

/-- The machine with the notes of those reads. -/
def State.noteBudgets (s : State) (w : Wave) (ts : List Word64) : State :=
  ts.foldl (fun z x => (z.unwait w.uid (fetchKey ((x.toNat + (2 ^ 64 - 8)) % 2 ^ 64))).noteCode w ((x.toNat + (2 ^ 64 - 8)) % 2 ^ 64) 8) s

/-- The reads only note their translations. -/
theorem State.noteBudgets_maps (s : State) (w : Wave) (ts : List Word64) : ∃ fs tl, s.noteBudgets w ts = s.withMaps fs tl := by
  induction ts generalizing s with
  | nil => exact ⟨s.filters, s.tlb, rfl⟩
  | cons x ts ih =>
    let a := (x.toNat + (2 ^ 64 - 8)) % 2 ^ 64
    obtain ⟨tl, note⟩ := (s.unwait w.uid (fetchKey a)).noteCode_maps w a 8
    obtain ⟨fs, tl', notes⟩ := ih (s.withMaps (s.unwait w.uid (fetchKey a)).filters tl)
    exact ⟨fs, tl', (congrArg (fun z : State => z.noteBudgets w ts) note).trans notes⟩

/-- A CALL in these terms: alignment, then the budget words, then the trap or the transfer with its link. -/
theorem State.call_eq (s : State) (i : Issue) (q : LaneMask) (d : Fin 192) (t : Nat → Word64) : s.call i q d t =
    let ts := targetsOf q t
    let bw := s.budgetWords i.w ts
    let s1 := bw.foldl s.reportBudget (s.noteBudgets i.w ts)
    if ts.any (fun x => x.toNat % 8 != 0) then some (s.illegal i 0x11)
    else match bw.findSome? refusal with
      | some e => if s.blocked i.w.uid (fetchKey e.1) then .none else some (s.fetchFault i.w e i.c.addr)
      | .none =>
        if bw.any (tooMuch i.w.budget) then (if i.w.behind then .none else some (s1.userTrap i i.w 0x05))
        else some ({ s1 with fresh := s.fresh + 1 }.transfer i (i.linked s.fresh q d) q t) := rfl

theorem any_targetsOf {q : LaneMask} {t : Nat → Word64} (f : Word64 → Bool) :
    (targetsOf q t).any f = true ↔ ∃ l, l < 32 ∧ q.getLsbD l = true ∧ f (t l) = true := by
  simp [targetsOf, List.any_eq_true, mem_lanesOf, and_assoc]

theorem aligned_iff {q : LaneMask} {t : Nat → Word64} : (targetsOf q t).any (fun x => x.toNat % 8 != 0) = false ↔ Aligned q t := by
  rw [Bool.eq_false_iff, Ne, any_targetsOf]
  simp [Aligned]

section
variable {s : State} {i : Issue} {q : LaneMask} {d : Fin 192} {t : Nat → Word64}

/-- Every budget word is read. -/
def State.budgetsRead (s : State) (i : Issue) (q : LaneMask) (t : Nat → Word64) : Prop :=
  ∀ l, l < 32 → q.getLsbD l = true → ∃ x, s.readsBudget i.w (t l) x

/-- Some budget word does not fit. -/
def State.budgetExcess (s : State) (i : Issue) (q : LaneMask) (t : Nat → Word64) : Prop :=
  ∃ l x, l < 32 ∧ q.getLsbD l = true ∧ s.readsBudget i.w (t l) x ∧ ¬ Fits i.w.budget x

/-- Each read of a budget word is of some lane's target. -/
theorem State.budgetsRead.word (read : s.budgetsRead i q t) {e : Except (Nat × Tr) (Word64 × Nat)}
    (he : e ∈ s.budgetWords i.w (targetsOf q t)) : ∃ y pa, e = .ok (y, pa) ∧ s.bad.contains (pa / 64) = false := by
  simp only [State.budgetWords, targetsOf, List.mem_map, List.mem_eraseDups, mem_lanesOf, budget_address] at he
  obtain ⟨_, ⟨l, ⟨h32, lane⟩, rfl⟩, rfl⟩ := he
  obtain ⟨y, pa, code, whole⟩ := read l h32 lane
  exact ⟨y, pa, code, whole⟩

theorem State.budgetsRead.no_refusal (read : s.budgetsRead i q t) : (s.budgetWords i.w (targetsOf q t)).findSome? refusal = .none :=
  List.findSome?_eq_none_iff.2 fun e he => by
    obtain ⟨y, pa, rfl, -⟩ := read.word he
    rfl

theorem State.budgetsRead.no_report (read : s.budgetsRead i q t) (z : State) :
    (s.budgetWords i.w (targetsOf q t)).foldl s.reportBudget z = z :=
  foldl_eq_self fun e he => by
    obtain ⟨y, pa, rfl, whole⟩ := read.word he
    exact if_neg (Bool.eq_false_iff.1 whole)

theorem State.budgetsRead.excess_iff (read : s.budgetsRead i q t) :
    (s.budgetWords i.w (targetsOf q t)).any (tooMuch i.w.budget) = true ↔ s.budgetExcess i q t := by
  rw [State.budgetWords, List.any_map, any_targetsOf]
  simp only [Function.comp, budget_address]
  refine exists_congr fun l => ⟨fun ⟨h32, lane, more⟩ => ?_, fun ⟨x, h32, lane, ⟨pa, code, _⟩, more⟩ => ⟨h32, lane, ?_⟩⟩
  · obtain ⟨x, pa, code, whole⟩ := read l h32 lane
    rw [code] at more
    exact ⟨x, h32, lane, ⟨pa, code, whole⟩, (budgetExceeds_iff x _).1 more⟩
  · rw [code]
    exact (budgetExceeds_iff x _).2 more

/-- A call with a target that is not aligned is ILLEGAL before anything else. -/
theorem call_of_misaligned (h : ¬ Aligned q t) : s.call i q d t = some (s.illegal i 0x11) :=
  if_pos (Bool.not_eq_false _ ▸ mt aligned_iff.1 h)

/-- A call whose budget words all fit transfers with its link. -/
theorem call_of_fits (h : Aligned q t) (read : s.budgetsRead i q t) (fits : ¬ s.budgetExcess i q t) : ∃ fs tl,
    s.call i q d t = some ({ s.withMaps fs tl with fresh := s.fresh + 1 }.replace i (i.linked s.fresh q d) (i.branches q t)) := by
  obtain ⟨fs, tl, notes⟩ := s.noteBudgets_maps i.w (targetsOf q t)
  refine ⟨fs, tl, ?_⟩
  simp only [State.call_eq, aligned_iff.2 h, read.no_refusal, read.no_report, mt read.excess_iff.1 fits, notes, Bool.false_eq_true, if_false,
    transfer_of_aligned h]

/-- A call of which one does not fit traps with BUDGET. -/
theorem call_of_excess (h : Aligned q t) (read : s.budgetsRead i q t) (excess : s.budgetExcess i q t) (ahead : i.w.behind = false) :
    ∃ fs tl, s.call i q d t = some ((s.withMaps fs tl).userTrap i i.w 5) := by
  obtain ⟨fs, tl, notes⟩ := s.noteBudgets_maps i.w (targetsOf q t)
  refine ⟨fs, tl, ?_⟩
  simp only [State.call_eq, aligned_iff.2 h, read.no_refusal, read.no_report, read.excess_iff.2 excess, notes, ahead, Bool.false_eq_true,
    if_false, if_true]

end

/-- An issue from a machine with other translations held is one from the machine with those that it ends with. -/
theorem issued_withMaps {s t : State} {i : Issue} {w' : Wave} {fs : List Filter} {tl : List TlbEntry} (h : Issued (s.withMaps fs tl) t i w') :
    Issued { s with filters := t.filters, tlb := t.tlb } t i w' := by
  have filters : t.filters = fs := by rw [h.rest]; rfl
  have tlb : t.tlb = tl := by rw [h.rest]; rfl
  rw [filters, tlb]
  exact h

theorem trapTaken_withMaps {s t : State} {i : Issue} {w' : Wave} {code : Nat} {pt : TrapPoint} {fs : List Filter} {tl : List TlbEntry}
    (h : TrapTaken (s.withMaps fs tl) t i code pt w') : TrapTaken { s with filters := t.filters, tlb := t.tlb } t i code pt w' := by
  have filters : t.filters = fs := by rw [h.rest]; rfl
  have tlb : t.tlb = tl := by rw [h.rest]; rfl
  rw [filters, tlb]
  exact h

/-- The statement's clauses for a word whose issue is the call of targets `t`. -/
theorem call_spec {s : State} {i : Issue} {g : Guard} {d : Fin 192} {t : Nat → Word64} {ins : Instr} (hi : s.issue? = some i)
    (hx : ∀ r, s.call i.counted (i.lanes g) d t = some r → exec ins s = .next r) :
    (Aligned (i.lanes g) t → (∀ l, l < 32 → (i.lanes g).getLsbD l = true → ∃ x, s.readsBudget i.w (t l) x ∧ Fits i.w.budget x) →
      ∃ r w', exec ins s = .next r ∧ Issued { s with filters := r.filters, tlb := r.tlb } r i w'
        ∧ WritesRun i.w.rf w'.rf (.v d) 2 (i.lanes g) (fun k _ => halves i.c.after k) 0 ∧ (i.quiet → Transfers i g t w'))
    ∧ (Aligned (i.lanes g) t → (∀ l, l < 32 → (i.lanes g).getLsbD l = true → ∃ x, s.readsBudget i.w (t l) x) →
      (∃ l x, l < 32 ∧ (i.lanes g).getLsbD l = true ∧ s.readsBudget i.w (t l) x ∧ ¬ Fits i.w.budget x) → Trappable s i →
      i.w.behind = false → ∃ r w', exec ins s = .next r ∧ w'.rf = i.w.rf
        ∧ TrapTaken { s with filters := r.filters, tlb := r.tlb } r i 5
            { hdr := i.c.addr, idx := i.c.idx + 1, waitOnly := i.p.waitOnly } w')
    ∧ (¬ Aligned (i.lanes g) t →
      ∃ w, exec ins s = .next (s.illegal { i with w := w } 0x11) ∧ w = { i.w with beyond := w.beyond }) := by
  refine ⟨fun aligned read => ?_, fun aligned read excess trap ahead => ?_, fun odd => ⟨i.counted.w, hx _ (call_of_misaligned odd), rfl⟩⟩
  · have fits : ¬ s.budgetExcess i.counted (i.lanes g) t := fun ⟨l, x, h32, lane, reads, more⟩ => by
      obtain ⟨y, ready, fit⟩ := read l h32 lane
      exact more (State.readsBudget_unique reads ready ▸ fit)
    obtain ⟨fs, tl, call⟩ := call_of_fits (i := i.counted) (d := d) aligned (fun l h32 lane => (read l h32 lane).imp fun _ => And.left) fits
    obtain ⟨w', opened⟩ := replace_opened (s := s.withMaps fs tl) (s1 := { s.withMaps fs tl with fresh := s.fresh + 1 })
      (i.counted.linked s.fresh (i.lanes g) d) (i.branches (i.lanes g) t) hi rfl rfl rfl rfl fun quiet => ⟨rfl, quiet.2.1, rfl⟩
    refine ⟨_, w', hx _ call, issued_withMaps (opened.issued rfl), ?_, fun quiet => ?_⟩
    · rw [opened.kept]
      exact writesRun_write64 i.w.rf (.v d) (i.lanes g) (fun _ => i.c.after)
    · obtain ⟨htrap, -, hpaths⟩ := opened.moved quiet
      exact transfers_of_branches htrap hpaths
  · obtain ⟨fs, tl, call⟩ := call_of_excess (i := i.counted) (d := d) aligned read excess ahead
    obtain ⟨w', taken, regs⟩ := userTrap_taken (s := s.withMaps fs tl) i.w.rf 5 hi trap ahead
    have same : i.counted = i := by simp [Issue.counted, ahead]
    rw [same] at call
    exact ⟨_, w', hx _ (same.symm ▸ call), regs, trapTaken_withMaps taken⟩

end Sys2Proof.Machine

section
open Sys2Proof Sys2Proof.Machine

/-- Settles O21: a call reads the budget word before each of its targets, then traps or transfers with its link. -/
theorem calls : Obligations.Calls := by
  intro s i g d a hq row hrow h
  simp only [List.mem_cons, List.not_mem_nil, or_false] at hrow
  obtain rfl | rfl := hrow
  · have target : (fun _ : Nat => i.rel) = fun _ => i.c.addr + 8 * i.c.head.lit.signExtend 64 := by
      simp only [Issue.rel, BitVec.mul_comm]
    exact call_spec h.here fun r call => pathIssue_next (f := fun s i q => s.call i q d (fun _ => i.rel)) h hq
      (target ▸ call)
  · exact call_spec h.here fun r call =>
      pathIssue_next (f := fun s i q => s.call i q d (fun l => a.read64 i.w.rf i.c.head.lit .zext l)) h hq call

end

/-! Loop descriptors, walks and sync words (R88, R199, R200, R216): what their bytes read as. -/

namespace Sys2Proof.Machine

/-! ## Numbers as bytes -/

theorem toBytes_ofBytes (bs : List Byte) : toBytes bs.length (ofBytes bs) = bs := by
  induction bs with
  | nil => rfl
  | cons b bs ih =>
    have low : BitVec.ofNat 8 (b.toNat + 256 * ofBytes bs) = b := BitVec.eq_of_toNat_eq (by simp; omega)
    have high : (b.toNat + 256 * ofBytes bs) / 256 = ofBytes bs := by omega
    rw [List.length_cons, ofBytes, toBytes, low, high, ih]

theorem ofBytes_toBytes_of_lt {n x : Nat} (h : x < 256 ^ n) : ofBytes (toBytes n x) = x := by
  rw [ofBytes_toBytes, Nat.mod_eq_of_lt h]

theorem ofBytes_lt (bs : List Byte) : ofBytes bs < 256 ^ bs.length := by
  rw [← toBytes_ofBytes bs, ofBytes_toBytes, toBytes_length]
  exact Nat.mod_lt _ (by positivity)

/-! ## Sync words (R199, R200) -/

/-- The fields of a sync word: target, count, generation and the rest. -/
theorem syncWord_fields {a b c d : List Byte} (ha : a.length = 4) (hb : b.length = 4) (hc : c.length = 2) :
    (a ++ b ++ c ++ d).take 4 = a ∧ ((a ++ b ++ c ++ d).drop 4).take 4 = b ∧ ((a ++ b ++ c ++ d).drop 8).take 2 = c
      ∧ (a ++ b ++ c ++ d).drop 10 = d := by
  have ha' : List.drop 10 a = [] := List.drop_eq_nil_of_le (by omega)
  have hb' : List.drop 6 b = [] := List.drop_eq_nil_of_le (by omega)
  simp [List.take_append, List.drop_append, ha, hb, hc, ha', hb']

/-- The count and the generation after an arrival of `k` bytes at a word of such fields. -/
def arriveCount (target count k : Nat) : Nat := if target = 0 then (count + k) % 2 ^ 32 else (count + k) % target
def arriveGen (target count gen k : Nat) : Nat := if target = 0 then gen else (gen + (count + k) / target) % 2 ^ 16

/-- An arrival writes the count and the generation. -/
theorem syncArrive_eq {bs : List Byte} (h : bs.length = 16) (k : Nat) :
    let target := ofBytes (bs.take 4)
    let count := ofBytes ((bs.drop 4).take 4)
    let gen := ofBytes ((bs.drop 8).take 2)
    syncArrive bs k = bs.take 4 ++ toBytes 4 (arriveCount target count k) ++ toBytes 2 (arriveGen target count gen k) ++ bs.drop 10 := by
  intro target count gen
  have first : toBytes 4 target = bs.take 4 := by
    have := toBytes_ofBytes (bs.take 4)
    rwa [List.length_take, h] at this
  have third : toBytes 2 gen = (bs.drop 8).take 2 := by
    have := toBytes_ofBytes ((bs.drop 8).take 2)
    rwa [List.length_take, List.length_drop, h] at this
  have rest : (bs.drop 8).take 2 ++ bs.drop 10 = bs.drop 8 := by
    have := List.take_append_drop 2 (bs.drop 8)
    rwa [List.drop_drop] at this
  unfold syncArrive
  by_cases zero : target = 0
  · have zero' : ofBytes (bs.take 4) = 0 := zero
    simp only [zero', if_true, arriveCount, arriveGen, zero, third, List.append_assoc, rest]
    rw [← first, zero]
  · have some_target : ofBytes (bs.take 4) ≠ 0 := zero
    simp only [some_target, if_false, arriveCount, arriveGen, zero]
    exact congrArg (fun a => a ++ _ ++ _ ++ _) first

theorem syncArrive_spec {bs : List Byte} (h : bs.length = 16) (k : Nat) :
    let target := ofBytes (bs.take 4)
    let count := ofBytes ((bs.drop 4).take 4)
    let gen := ofBytes ((bs.drop 8).take 2)
    let new := syncArrive bs k
    new.length = 16 ∧ new.take 4 = bs.take 4 ∧ new.drop 10 = bs.drop 10
      ∧ ofBytes ((new.drop 4).take 4) = arriveCount target count k ∧ ofBytes ((new.drop 8).take 2) = arriveGen target count gen k := by
  intro target count gen new
  have eq : new = bs.take 4 ++ toBytes 4 (arriveCount target count k) ++ toBytes 2 (arriveGen target count gen k) ++ bs.drop 10 :=
    syncArrive_eq h k
  have target_lt : target < 2 ^ 32 := by
    have := ofBytes_lt (bs.take 4)
    rwa [List.length_take, h] at this
  have gen_lt : gen < 2 ^ 16 := by
    have := ofBytes_lt ((bs.drop 8).take 2)
    rwa [List.length_take, List.length_drop, h] at this
  have count_lt : arriveCount target count k < 256 ^ 4 := by
    unfold arriveCount
    split
    · exact Nat.mod_lt _ (by decide)
    · next some_target => exact (Nat.mod_lt _ (Nat.pos_of_ne_zero some_target)).trans target_lt
  have gen_lt : arriveGen target count gen k < 256 ^ 2 := by
    unfold arriveGen
    split
    · exact gen_lt
    · exact Nat.mod_lt _ (by decide)
  obtain ⟨first, second, third, rest⟩ := syncWord_fields (a := bs.take 4) (b := toBytes 4 (arriveCount target count k))
    (c := toBytes 2 (arriveGen target count gen k)) (d := bs.drop 10) (by simp [h]) (toBytes_length _ _) (toBytes_length _ _)
  rw [eq, first, second, third, rest, ofBytes_toBytes_of_lt count_lt, ofBytes_toBytes_of_lt gen_lt]
  refine ⟨?_, rfl, rfl, rfl, rfl⟩
  simp [h, toBytes_length]

/-! ## The walk of a copy (R88, R216) -/

/-- The units of a walk are counted as their product. -/
theorem foldl_mul_eq_prod (lv : List (Nat × Int × Int)) : lv.foldl (fun a l => a * l.1) 1 = (lv.map (fun x => x.1)).prod := by
  rw [List.prod_eq_foldl, List.foldl_map]

theorem vectorOf_length (lv : List (Nat × Int × Int)) (k : Nat) : (vectorOf lv k).length = lv.length := by
  induction lv generalizing k with
  | nil => rfl
  | cons l lv ih => simp [vectorOf, ih]

/-- Each index is below its bound. -/
theorem vectorOf_lt {lv : List (Nat × Int × Int)} (h : ∀ l ∈ lv, 0 < l.1) (k : Nat) : ∀ p ∈ (vectorOf lv k).zip lv, p.1 < p.2.1 := by
  induction lv generalizing k with
  | nil => simp [vectorOf]
  | cons l lv ih =>
    obtain ⟨pos, hlv⟩ := List.forall_mem_cons.1 h
    rw [vectorOf, List.zip_cons_cons]
    exact List.forall_mem_cons.2 ⟨Nat.mod_lt _ pos, ih hlv _⟩

/-- The indices count the walk, level 0 fastest. -/
theorem vectorOf_counts {lv : List (Nat × Int × Int)} {k : Nat} (hk : k < (lv.map (fun x => x.1)).prod) :
    ((vectorOf lv k).zip lv).foldr (fun p n => p.1 + p.2.1 * n) 0 = k := by
  induction lv generalizing k with
  | nil => exact (Nat.lt_one_iff.1 hk).symm
  | cons l lv ih =>
    rw [List.map_cons, List.prod_cons] at hk
    rw [vectorOf, List.zip_cons_cons, List.foldr_cons, ih (Nat.div_lt_of_lt_mul hk)]
    exact Nat.mod_add_div k l.1

/-! ## Loop descriptors (R88, R177, R216) -/

/-- The 12 bytes of a level, and a descriptor's. -/
def levelBytes (x : Nat × Int × Int) : List Byte :=
  toBytes 4 x.1 ++ toBytes 4 (BitVec.ofInt 32 x.2.1).toNat ++ toBytes 4 (BitVec.ofInt 32 x.2.2).toNat
def loopOf (lv : List (Nat × Int × Int)) : List Byte :=
  toBytes 1 lv.length ++ [0, 0, 0] ++ lv.flatMap levelBytes ++ List.replicate (12 * (5 - lv.length)) 0

theorem levelBytes_length (x : Nat × Int × Int) : (levelBytes x).length = 12 := by simp [levelBytes, toBytes_length]

/-- A signed 32-bit stride is read as it was written. -/
theorem stride32_of_bytes {y : Int} (lo : -(2 ^ 31) ≤ y) (hi : y < 2 ^ 31) : stride32 (ofBytes (toBytes 4 (BitVec.ofInt 32 y).toNat)) = y := by
  rw [ofBytes_toBytes_of_lt (BitVec.ofInt 32 y).isLt, stride32, BitVec.ofNat_toNat, BitVec.setWidth_eq, BitVec.toInt_ofInt]
  exact Int.bmod_eq_of_le_mul_two (by omega) (by omega)

/-- Beyond the header, level `n` of a descriptor stands first after 12 bytes for each level before it. -/
theorem drop_levels {lv : List (Nat × Int × Int)} {n : Nat} (hn : n < lv.length) (rest : List Byte) :
    ∃ tail, (lv.flatMap levelBytes ++ rest).drop (12 * n) = levelBytes lv[n] ++ tail := by
  induction lv generalizing n with
  | nil => cases hn
  | cons l lv ih =>
    cases n with
    | zero => exact ⟨lv.flatMap levelBytes ++ rest, by simp⟩
    | succ n =>
      obtain ⟨tail, h⟩ := ih (Nat.lt_of_succ_lt_succ hn)
      refine ⟨tail, ?_⟩
      rw [List.getElem_cons_succ, ← h, List.flatMap_cons, List.append_assoc, Nat.mul_succ, Nat.add_comm, ← List.drop_drop,
        List.drop_left' (levelBytes_length l)]

/-- The number of 4 bytes at an offset of a descriptor. -/
def numIn (bs : List Byte) (o : Nat) : Nat := ofBytes ((bs.drop o).take 4)

/-- Each level of a descriptor is read at its place. -/
theorem numIn_loopOf {lv : List (Nat × Int × Int)} {n : Nat} (hn : n < lv.length) :
    numIn (loopOf lv) (4 + 12 * n) = ofBytes (toBytes 4 lv[n].1)
      ∧ numIn (loopOf lv) (8 + 12 * n) = ofBytes (toBytes 4 (BitVec.ofInt 32 lv[n].2.1).toNat)
      ∧ numIn (loopOf lv) (12 + 12 * n) = ofBytes (toBytes 4 (BitVec.ofInt 32 lv[n].2.2).toNat) := by
  obtain ⟨tail, h⟩ := drop_levels hn (List.replicate (12 * (5 - lv.length)) 0)
  have at_ (o : Nat) : (loopOf lv).drop (4 + 12 * n + o) = (levelBytes lv[n] ++ tail).drop o := by
    rw [← h, List.drop_drop, loopOf, List.append_assoc, ← List.drop_drop, ← List.drop_drop,
      List.drop_left' (by simp [toBytes_length]), List.drop_drop]
  have first := at_ 0
  have second := at_ 4
  have third := at_ 8
  rw [show 4 + 12 * n + 4 = 8 + 12 * n by omega] at second
  rw [show 4 + 12 * n + 8 = 12 + 12 * n by omega] at third
  simp only [Nat.add_zero] at first
  simp only [numIn, first, second, third, levelBytes]
  simp [List.drop_append, toBytes_length, List.drop_eq_nil_of_le]

/-- The levels of a descriptor, as the model reads them. -/
def levelsIn (bs : List Byte) (n : Nat) : List (Nat × Int × Int) :=
  (List.range n).map (fun i => (numIn bs (4 + 12 * i), stride32 (numIn bs (8 + 12 * i)), stride32 (numIn bs (12 + 12 * i))))

/-- A level whose fields lie in their ranges (R88, R216). -/
def LevelOk (x : Nat × Int × Int) : Prop :=
  0 < x.1 ∧ x.1 < 2 ^ 32 ∧ ∀ y ∈ [x.2.1, x.2.2], -(2 ^ 31) ≤ y ∧ y < 2 ^ 31 ∧ y % 16 = 0

theorem levelsIn_loopOf {lv : List (Nat × Int × Int)} (h : ∀ x ∈ lv, LevelOk x) : levelsIn (loopOf lv) lv.length = lv := by
  refine List.ext_getElem (by simp [levelsIn]) fun n hn hn' => ?_
  obtain ⟨-, bound, strides⟩ := h lv[n] (List.getElem_mem hn')
  obtain ⟨lo, hi, -⟩ := strides lv[n].2.1 (by simp)
  obtain ⟨lo', hi', -⟩ := strides lv[n].2.2 (by simp)
  obtain ⟨first, second, third⟩ := numIn_loopOf hn'
  simp only [levelsIn, List.getElem_map, List.getElem_range, first, second, third]
  rw [ofBytes_toBytes_of_lt bound, stride32_of_bytes lo hi, stride32_of_bytes lo' hi']

/-- The checks of a descriptor of `n` levels that read as `lv`, in their order. -/
theorem parseLoop_eq {bs : List Byte} {align n : Nat} {lv : List (Nat × Int × Int)} (count : (bs.getD 0 0).toNat = n)
    (levels : levelsIn bs n = lv) : parseLoop bs align =
      if n = 0 || 5 < n then none
      else if (bs.drop 1).take 3 != [0, 0, 0] || (bs.drop (4 + 12 * n)).any (fun b => b != 0) then none
      else if lv.any (fun l => l.1 == 0 || l.2.1 % align != 0 || l.2.2 % align != 0) then none
      else if 2 ^ 32 ≤ lv.foldl (fun a l => a * l.1) 1 then none
      else some lv := by
  subst count levels
  rfl

/-- A descriptor of one to five levels whose strides are multiples of 16 reads as its levels. -/
theorem parseLoop_loopOf {lv : List (Nat × Int × Int)} (some_level : lv ≠ []) (five : lv.length ≤ 5) (h : ∀ x ∈ lv, LevelOk x)
    (total : (lv.map (fun x => x.1)).prod < 2 ^ 32) : parseLoop (loopOf lv) 16 = some lv := by
  have count : ((loopOf lv).getD 0 0).toNat = lv.length := by
    simp [loopOf, toBytes]
    omega
  have levels := levelsIn_loopOf h
  have pos : 0 < lv.length := List.length_pos_iff.2 some_level
  have number : ¬ (decide (lv.length = 0) || decide (5 < lv.length)) = true := by
    simp only [Bool.or_eq_true, decide_eq_true_eq]
    omega
  have zeros : (loopOf lv).drop (4 + 12 * lv.length) = List.replicate (12 * (5 - lv.length)) 0 := by
    refine List.drop_left' ?_
    simp [toBytes_length, levelBytes_length, Nat.mul_comm]
    omega
  have reserved : ¬ (((loopOf lv).drop 1).take 3 != [0, 0, 0] || ((loopOf lv).drop (4 + 12 * lv.length)).any (fun b => b != 0)) = true := by
    rw [zeros]
    simp [loopOf, toBytes]
  have fields : ¬ lv.any (fun l => l.1 == 0 || l.2.1 % (16 : Nat) != 0 || l.2.2 % (16 : Nat) != 0) = true := by
    rw [List.any_eq_true]
    rintro ⟨x, hx, bad⟩
    obtain ⟨some_step, -, strides⟩ := h x hx
    have first := (strides x.2.1 (by simp)).2.2
    have second := (strides x.2.2 (by simp)).2.2
    simp [first, second, some_step.ne'] at bad
  have whole : ¬ 2 ^ 32 ≤ lv.foldl (fun a l => a * l.1) 1 := Nat.not_le.2 (foldl_mul_eq_prod lv ▸ total)
  rw [parseLoop_eq count levels, if_neg number, if_neg reserved, if_neg fields, if_neg whole]

end Sys2Proof.Machine

/-! Translations (R342 to R349) rest on device memory, the page-table writes that are pending, and what names contexts and homes: on no
other part of the machine. -/

namespace Sys2Proof.Machine

/-- Two machines alike in what a translation rests on. -/
structure SameMaps (s t : State) : Prop where
  mem : t.mem = s.mem
  ctxs : t.ctxs = s.ctxs
  posts : t.posts = s.posts
  spokes : t.spokes = s.spokes
  hub : t.hub = s.hub
  choices : t.choices = s.choices
  ptPend : t.ptPend = s.ptPend

section
variable {s t : State} (h : SameMaps s t)
include h

theorem SameMaps.numAt (a n : Nat) : t.numAt a n = s.numAt a n :=
  congrArg ofBytes (State.bytesAt_congr fun _ _ => byteAt_congr h.mem _)

theorem SameMaps.eq : t = { t with
    mem := s.mem, ctxs := s.ctxs, posts := s.posts, spokes := s.spokes, hub := s.hub, choices := s.choices, ptPend := s.ptPend } := by
  rw [← h.mem, ← h.ctxs, ← h.posts, ← h.spokes, ← h.hub, ← h.choices, ← h.ptPend]

theorem SameMaps.physKind (pa : Nat) : t.physKind pa = s.physKind pa :=
  (congrArg (fun z : State => z.physKind pa) h.eq).trans rfl

theorem SameMaps.leafCheck (want : Want) (site e pa : Nat) : t.leafCheck want site e pa = s.leafCheck want site e pa :=
  (congrArg (fun z : State => z.leafCheck want site e pa) h.eq).trans rfl

theorem SameMaps.nonLeafOk (e : Nat) : t.nonLeafOk e = s.nonLeafOk e :=
  (congrArg (fun z : State => z.nonLeafOk e) h.eq).trans rfl

theorem SameMaps.spanLeaf (table vpn2 k e : Nat) : t.spanLeaf table vpn2 k e = s.spanLeaf table vpn2 k e := by
  simp only [State.spanLeaf, h.numAt]

theorem SameMaps.walkLevel (want : Want) (site va k level table : Nat) (ptes : List Nat) (below : Nat → Nat → List Nat → Tr) :
    t.walkLevel want site va k level table ptes below = s.walkLevel want site va k level table ptes below := by
  unfold State.walkLevel
  simp -zeta only [h.spanLeaf, h.numAt, h.ptPend, h.leafCheck, h.nonLeafOk]

theorem SameMaps.walkFrom (want : Want) (site va k level table : Nat) (ptes : List Nat) :
    t.walkFrom want site va k level table ptes = s.walkFrom want site va k level table ptes := by
  induction level generalizing table ptes with
  | zero =>
    rw [State.walkFrom_eq, State.walkFrom_eq, h.walkLevel]
    simp only [State.walkLevel]
  | succ l ih =>
    rw [State.walkFrom_eq, State.walkFrom_eq, h.walkLevel]
    simp only [State.walkLevel, ih]

theorem SameMaps.xlate (w : Wave) (want : Want) (va : Nat) : t.xlate w want va = s.xlate w want va := by
  have translate (c : Ctx) : t.translate c want va = s.translate c want va := by
    simp only [State.translate, h.walkFrom, h.choices, h.ptPend]
  have readCtx (n : Nat) : t.readCtx n = s.readCtx n := by
    simp only [State.readCtx, h.numAt, byteAt_congr h.mem, h.hub]
  simp only [State.xlate, State.ctx?, translate, readCtx, h.ctxs, h.posts, h.physKind]

end

end Sys2Proof.Machine

/-! Scratchpads (R27, R182, R192): what a byte of scratch or cluster space reads after bytes are written there. -/

namespace Sys2Proof.Machine

/-- Looking for an element where those of a key are replaced by one that the test finds as it finds them. -/
theorem find?_replaceBy {α : Type} {p q : α → Bool} {x : α} {l : List α} (h : ∀ y ∈ l, p y = true → q x = q y) :
    (replaceBy p x l).find? q = (l.find? q).map (fun y => if p y then x else y) := by
  induction l with
  | nil => rfl
  | cons y t ih =>
    obtain ⟨first, rest⟩ := List.forall_mem_cons.1 h
    cases hp : p y <;> cases hq : q y <;> simp [replaceBy, hp, hq, ih rest, first]

/-- The workgroup whose scratchpad holds an offset, and the byte there. -/
def State.holdsPad (s : State) (w : Wave) (clu : Bool) (off : Nat) (g : Workgroup) : Bool :=
  if clu then g.gang == w.gang && g.member == off / (s.descOf w).scratchBytes else g.uid == w.wg
def State.padOffset (s : State) (w : Wave) (clu : Bool) (off : Nat) : Nat := if clu then off % (s.descOf w).scratchBytes else off

section
variable {s t : State} {w : Wave} {clu : Bool} {off : Nat}

theorem State.padOf_eq : s.padOf w clu off = (s.wgs.find? (s.holdsPad w clu off)).map (fun g => (g, s.padOffset w clu off)) := by
  cases clu <;> rfl

theorem padOf_some {g : Workgroup} {o : Nat} (h : s.padOf w clu off = some (g, o)) :
    g ∈ s.wgs ∧ s.holdsPad w clu off g = true ∧ o = s.padOffset w clu off := by
  rw [State.padOf_eq, Option.map_eq_some_iff] at h
  obtain ⟨_, found, eq⟩ := h
  cases eq
  exact ⟨List.mem_of_find?_eq_some found, List.find?_some found, rfl⟩

/-- No two offsets are one byte. -/
theorem padOf_inj {k : Nat} {g : Workgroup} {o : Nat} (h : s.padOf w clu off = some (g, o)) (hk : s.padOf w clu k = some (g, o)) : k = off := by
  obtain ⟨-, holds, eq⟩ := padOf_some h
  obtain ⟨-, holds', eq'⟩ := padOf_some hk
  have same := eq'.symm.trans eq
  cases clu with
  | false => exact same
  | true =>
    simp only [State.holdsPad, if_true, Bool.and_eq_true, beq_iff_eq] at holds holds'
    exact Nat.ext_div_mod (holds'.2.symm.trans holds.2) same

/-- Scratchpads rest on the workgroups and their launch alone. -/
theorem padOf_congr (hw : t.wgs = s.wgs) (hb : t.batches = s.batches) : t.padOf w clu off = s.padOf w clu off := by
  simp only [State.padOf, State.wg?, State.descOf, State.batch?, hw, hb]

theorem padByte_congr (hw : t.wgs = s.wgs) (hb : t.batches = s.batches) : t.padByte w clu off = s.padByte w clu off := by
  simp only [State.padByte, padOf_congr hw hb]

/-- The workgroups of the machine carry different numbers. -/
def State.wgsApart (s : State) : Prop := (s.wgs.map (fun g => g.uid)).Nodup

/-- A workgroup is put back with another scratchpad. -/
theorem padOf_putWg (hs : s.wgsApart) {g g' : Workgroup} (hg : g ∈ s.wgs) (huid : g'.uid = g.uid) (hgang : g'.gang = g.gang)
    (hmember : g'.member = g.member) (k : Nat) :
    (s.putWg g').padOf w clu k = (s.padOf w clu k).map (fun e => (if e.1.uid == g'.uid then g' else e.1, e.2)) := by
  have holds (x : Workgroup) (hx : x ∈ s.wgs) (hu : (x.uid == g'.uid) = true) : s.holdsPad w clu k g' = s.holdsPad w clu k x := by
    have : x = g := List.inj_on_of_nodup_map hs hx hg ((beq_iff_eq.1 hu).trans huid)
    simp only [State.holdsPad, this, huid, hgang, hmember]
  have eq : (s.putWg g').padOf w clu k
      = ((s.putWg g').wgs.find? (s.holdsPad w clu k)).map (fun g => (g, s.padOffset w clu k)) := State.padOf_eq
  rw [eq, State.putWg_wgs, find?_replaceBy holds, State.padOf_eq]
  simp only [Option.map_map, Function.comp_def]

/-- The workgroup with a byte of its scratchpad written, and with `bad` for its words in error. -/
def Workgroup.putByte (g : Workgroup) (o : Nat) (b : Byte) (bad : List Nat) : Workgroup :=
  { g with scratch := Map.put 0 g.scratch o b, padBad := bad }

/-- Bytes `bs` were written at `off` of a space, and only there. -/
structure PadWritten (s t : State) (w : Wave) (clu : Bool) (off : Nat) (bs : List Byte) : Prop where
  bytes : ∀ k, t.padByte w clu k = if off ≤ k ∧ k < off + bs.length then bs.getD (k - off) 0 else s.padByte w clu k
  seats : ∀ k, (t.padOf w clu k).isSome = (s.padOf w clu k).isSome
  uids : t.wgs.map (fun g => g.uid) = s.wgs.map (fun g => g.uid)
  rest : t = { s with wgs := t.wgs }

theorem padWritten_nil : PadWritten s s w clu off [] where
  bytes k := by
    rw [List.length_nil, if_neg (by omega)]
  seats _ := rfl
  uids := rfl
  rest := rfl

/-- One byte, then those behind it. -/
theorem PadWritten.cons {r : State} {b : Byte} {bs : List Byte} (h : PadWritten s t w clu off [b]) (h' : PadWritten t r w clu (off + 1) bs) :
    PadWritten s r w clu off (b :: bs) where
  bytes k := by
    rw [h'.bytes, h.bytes, List.length_singleton, List.length_cons]
    by_cases first : k = off
    · rw [if_neg (by omega), if_pos (by omega), if_pos (by omega), first, Nat.sub_self]
      rfl
    · by_cases later : off + 1 ≤ k ∧ k < off + 1 + bs.length
      · rw [if_pos later, if_pos (by omega), show k - off = k - (off + 1) + 1 by omega, List.getD_cons_succ]
      · rw [if_neg later, if_neg (by omega), if_neg (by omega)]
  seats k := (h'.seats k).trans (h.seats k)
  uids := h'.uids.trans h.uids
  rest := h'.rest.trans (congrArg (fun z : State => { z with wgs := r.wgs }) h.rest)

/-- One byte is written. -/
theorem putByte_written (hs : s.wgsApart) {g : Workgroup} {o : Nat} (h : s.padOf w clu off = some (g, o)) (b : Byte) (bad : List Nat) :
    PadWritten s (s.putWg (g.putByte o b bad)) w clu off [b] := by
  obtain ⟨hg, -, -⟩ := padOf_some h
  have seat (k : Nat) := padOf_putWg (w := w) (clu := clu) hs hg (g' := g.putByte o b bad) rfl rfl rfl k
  refine ⟨fun k => ?_, fun k => by rw [seat, Option.isSome_map], ?_, rfl⟩
  · by_cases hk : k = off
    · subst hk
      simp only [State.padByte, seat, h]
      simp [Workgroup.putByte, Map.get_put]
    · rw [List.length_singleton, if_neg (by omega)]
      simp only [State.padByte, seat]
      cases he : s.padOf w clu k with
      | none => rfl
      | some e =>
        obtain ⟨x, o'⟩ := e
        obtain ⟨hx, -, -⟩ := padOf_some he
        by_cases hu : x.uid = g.uid
        · obtain rfl : x = g := List.inj_on_of_nodup_map hs hx hg hu
          have apart : o' ≠ o := fun ho => hk (padOf_inj h (ho ▸ he))
          simp [Workgroup.putByte, Map.get_put, apart]
        · simp [Workgroup.putByte, hu]
  · exact map_replaceBy fun y _ hy => (beq_iff_eq.1 hy).symm

theorem PadWritten.wgsApart {bs : List Byte} (h : PadWritten s t w clu off bs) (hs : s.wgsApart) : t.wgsApart := by
  rw [State.wgsApart, h.uids]
  exact hs

/-- Bytes written where each has its scratchpad are read there. -/
theorem setPad_written {bs : List Byte} (hs : s.wgsApart) (here : ∀ n, n < bs.length → (s.padOf w clu (off + n)).isSome = true) :
    PadWritten s (s.setPad w clu off bs) w clu off bs := by
  induction bs generalizing s off with
  | nil => exact padWritten_nil
  | cons b bs ih =>
    obtain ⟨⟨g, o⟩, hg⟩ := Option.isSome_iff_exists.1 (here 0 (Nat.succ_pos _))
    rw [Nat.add_zero] at hg
    rw [State.setPad, hg]
    have one (bad : List Nat) := putByte_written hs hg b bad
    refine (one _).cons (ih ((one _).wgsApart hs) fun n hn => ?_)
    rw [PadWritten.seats (one _), Nat.add_right_comm, Nat.add_assoc]
    exact here (n + 1) (Nat.succ_lt_succ hn)

theorem padBytes_congr {n : Nat} (h : ∀ i, i < n → t.padByte w clu (off + i) = s.padByte w clu (off + i)) :
    t.padBytes w clu off n = s.padBytes w clu off n :=
  List.map_congr_left fun i hi => h i (List.mem_range.1 hi)

end

end Sys2Proof.Machine

/-! A unit of a copy (R200, R216 to R218), where nothing of its wave and nothing in the caches stands before it. -/

namespace Sys2Proof.Machine

/-- Nothing stands before the next unit of copy `c` of wave `w`: it is the only copy, its wave has nothing else in flight, the caches are
empty, and its units are done and counted up to here. -/
structure UnitReady (s : State) (c : CopyOp) (w : Wave) : Prop where
  copies : s.copies = [c]
  walks : s.walks = []
  wave : s.wave? c.wave = some w
  ops : w.ops = []
  waybill : w.waybill = []
  unconf : w.unconf = []
  writes : s.writes = []
  lines : s.lines = []
  choices : s.choices = []
  powered : s.powered w = true
  resident : ∀ x, s.gang? w.gang = some x → x.state = .resident
  alive : c.dead = false
  moving : c.stopped = false
  done : c.done = []
  counted : c.counted = c.upto
  more : c.upto < c.total

/-- What a unit leaves alone besides its bytes: copies, walks, waves and their launches. -/
structure WorkKept (s t : State) : Prop where
  copies : t.copies = s.copies
  walks : t.walks = s.walks
  waves : t.waves = s.waves
  batches : t.batches = s.batches

theorem WorkKept.trans {s t r : State} (h : WorkKept s t) (k : WorkKept t r) : WorkKept s r :=
  ⟨k.copies.trans h.copies, k.walks.trans h.walks, k.waves.trans h.waves, k.batches.trans h.batches⟩

/-- Bytes written to a space change scratchpads only. -/
theorem setPad_rest (s : State) (w : Wave) (clu : Bool) (off : Nat) (bs : List Byte) :
    s.setPad w clu off bs = { s with wgs := (s.setPad w clu off bs).wgs } := by
  induction bs generalizing s off with
  | nil => rfl
  | cons b bs ih =>
    rw [State.setPad]
    split
    · exact ih _ _
    · exact ih _ _

/-! ## Requests at the home of a page -/

/-- A request at a home has only been noted: by the translator and in the class of its page; no copy stands in a cache. -/
structure HomeNoted (s t : State) : Prop where
  rest : t = { s with tlb := t.tlb, classes := t.classes, lines := t.lines }
  lines : t.lines = []

theorem HomeNoted.kept {s t : State} (h : HomeNoted s t) : WorkKept s t := by
  rw [h.rest]
  exact ⟨rfl, rfl, rfl, rfl⟩

theorem HomeNoted.sameMaps {s t : State} (h : HomeNoted s t) : SameMaps s t := by
  rw [h.rest]
  exact ⟨rfl, rfl, rfl, rfl, rfl, rfl, rfl⟩

theorem HomeNoted.writes {s t : State} (h : HomeNoted s t) : t.writes = s.writes := by rw [h.rest]

theorem HomeNoted.wgs {s t : State} (h : HomeNoted s t) : t.wgs = s.wgs := by rw [h.rest]

theorem homeNoted_refl {s : State} (lines : s.lines = []) : HomeNoted s s := ⟨rfl, lines⟩

theorem recallPage_of_empty {s : State} (writes : s.writes = []) (lines : s.lines = []) (page : Nat) : s.recallPage page = s := by
  have landed : s.landAll (fun x => x.pa / 4096 == page && !x.frame) = s := by simp [State.landAll, writes]
  have none_dropped : s.lines.filter (fun l => l.pa / 4096 != page) = s.lines := by rw [lines, List.filter_nil]
  rw [State.recallPage, landed, none_dropped]

/-- Without a write or a copy in the caches, a request at a home is only noted. -/
theorem classify_noted {s : State} (writes : s.writes = []) (lines : s.lines = []) (core ctx va pa : Nat) :
    HomeNoted s (s.classify core ctx va pa).1 := by
  unfold State.classify
  dsimp only
  split
  · exact ⟨rfl, lines⟩
  · split
    · exact ⟨rfl, lines⟩
    · rw [recallPage_of_empty writes lines]
      exact ⟨rfl, lines⟩
  · exact ⟨rfl, lines⟩

theorem thirdName_of_no_lines {s : State} (lines : s.lines = []) (ctx va pa : Nat) : s.thirdName ctx va pa = s := by
  simp only [State.thirdName, lines, List.filter_nil, List.map_nil, List.eraseDups_nil]
  rfl

theorem atHomeOf_noted {s : State} (writes : s.writes = []) (lines : s.lines = []) (w : Wave) (addr : Nat) (m : Mapped) :
    HomeNoted s (s.atHomeOf w addr m) := by
  obtain ⟨tl, note⟩ := s.noteMaps_maps w [m]
  have noted {t : State} (h : HomeNoted (s.withMaps s.filters tl) t) : HomeNoted s t := ⟨h.rest, h.lines⟩
  unfold State.atHomeOf State.atHomeAs State.request
  rw [note, thirdName_of_no_lines (s := s.withMaps s.filters tl) lines]
  split
  · exact noted (classify_noted (s := s.withMaps s.filters tl) writes lines _ _ _ _)
  · split
    · exact noted (classify_noted (s := s.withMaps s.filters tl) writes lines _ _ _ _)
    · exact ⟨rfl, lines⟩

/-- Where no write is in flight a copy reads what is at the home. -/
theorem copyBytes_of_no_writes {s : State} (writes : s.writes = []) (w : Wave) (pa n : Nat) : s.copyBytes w pa n = s.bytesAt pa n := by
  simp only [State.copyBytes, State.overlay, writes, List.foldl_nil]

/-! ## What may not stand before a unit -/

section
variable {s : State} {c : CopyOp} {w : Wave} (h : UnitReady s c w)
include h

theorem UnitReady.copyClear (sp : Space) (a n : Nat) : s.copyClear w c.op sp a n = true := by
  have read (pa : Nat) : s.mayReadAt w 3 pa n = true := by simp [State.mayReadAt, h.writes]
  simp only [State.copyClear, State.behindOwn, State.behindCopies, State.behindSpan, h.ops, h.copies, h.walks, h.waybill, List.any_nil,
    List.any_cons, Nat.lt_irrefl, decide_false, Bool.false_and, Bool.and_false, Bool.or_self, Bool.not_false, Bool.true_and, read]
  split <;> simp

theorem UnitReady.mayPerform (b : Bool) : w.mayPerform c.op c.mask b = true := by
  simp [Wave.mayPerform, h.ops, h.unconf]

theorem UnitReady.copyMayRun (src dst : Nat) : s.copyMayRun w c src dst = true := by
  simp [State.copyMayRun, h.powered, h.mayPerform, h.copyClear, Wave.unitHeld, h.ops]

/-- The copy with its next unit done, and with it counted. -/
def CopyOp.next (c : CopyOp) : CopyOp := { c with upto := c.upto + 1 }
def CopyOp.countedNext (c : CopyOp) : CopyOp := { c with upto := c.upto + 1, counted := c.upto + 1 }

theorem UnitReady.syncClear {t : State} (kept : WorkKept s t) : t.syncClear w c.next = true := by
  have copies : t.copies = [c] := kept.copies.trans h.copies
  have walks : t.walks = [] := kept.walks.trans h.walks
  have op : c.next.op = c.op := rfl
  have may : w.mayPerform c.op c.next.mask true = true := h.mayPerform true
  simp only [State.syncClear, may, State.behindOwn, State.behindCopies, State.behindSpan, h.ops, copies, walks, op, List.any_nil, List.any_cons,
    Nat.lt_irrefl, decide_false, Bool.false_and, Bool.and_false, Bool.or_self, Bool.not_false, Bool.and_self, Bool.true_and]
  split <;> rfl

/-- The unit is counted into the sync word at once. -/
theorem UnitReady.countUnits {t : State} (kept : WorkKept s t) {so : Nat} (sync : c.sync = some so) :
    t.countUnits w c.next false
      = { t.setPad w c.dir.1.syncClu so (syncArrive (t.padBytes w c.dir.1.syncClu so 16) 16) with copies := [c.countedNext] } := by
  have one : c.next.upto - c.next.counted = 1 := by
    simp only [CopyOp.next, h.counted]
    omega
  have sync' : c.next.sync = some so := sync
  have copies : ∀ off bs, (t.setPad w c.dir.1.syncClu off bs).copies = [c] := fun off bs => by
    rw [setPad_rest]
    exact kept.copies.trans h.copies
  have dir : c.next.dir = c.dir := rfl
  simp only [State.countUnits, one, h.syncClear kept, sync', dir, Nat.one_ne_zero, decide_false, Bool.false_and, Bool.not_true, Bool.or_self,
    Bool.false_eq_true, if_false, State.putCopy, copies, replaceBy]
  simp [CopyOp.next, CopyOp.countedNext, sync]

end

theorem overFrames_of_no_writes {s : State} (writes : s.writes = []) (w : Wave) (lane : Option Nat) (pa len : Nat) :
    s.overFrames w lane pa len = s := by
  have unchanged : s.writes.flatMap (fun x => if s.seesFrame w lane x then x.without pa len else [x]) = s.writes := by
    rw [writes, List.flatMap_nil]
  rw [State.overFrames, unchanged]

/-! ## The bytes of a unit -/

/-- Bytes laid over others from address `a` on, where `on` says so. -/
def laid (f : Nat → Byte) (on : Bool) (a : Nat) (bs : List Byte) (x : Nat) : Byte :=
  if on = true ∧ a ≤ x ∧ x < a + bs.length then bs.getD (x - a) 0 else f x

/-- The machine keeps its work, and reads `mem` in device memory and `pad` in a space of the wave. -/
structure UnitAt (s t : State) (w : Wave) (clu : Bool) (mem pad : Nat → Byte) : Prop where
  kept : WorkKept s t
  bytes : ∀ x, t.byteAt x = mem x
  pads : ∀ k, t.padByte w clu k = pad k
  seats : ∀ k, (t.padOf w clu k).isSome = (s.padOf w clu k).isSome
  uids : t.wgs.map (fun g => g.uid) = s.wgs.map (fun g => g.uid)

theorem homeWrite_mem (s : State) (wave op pa : Nat) (bs : List Byte) : (s.homeWrite wave op pa bs).mem = putBytes s.mem pa bs := by
  unfold State.homeWrite
  refine (foldl_mem (fun t e => ?_) _ _).trans rfl
  dsimp only
  split <;> rfl

theorem homeWrite_kept (s : State) (wave op pa : Nat) (bs : List Byte) :
    WorkKept s (s.homeWrite wave op pa bs) ∧ (s.homeWrite wave op pa bs).wgs = s.wgs := by
  rw [s.landsTo_homeWrite wave op pa bs]
  exact ⟨⟨rfl, rfl, rfl, rfl⟩, rfl⟩

/-- A byte of a unit's source. -/
def State.sourceByte (s : State) (w : Wave) (d : CpyDir) (m : Mapped) (src k : Nat) : Byte :=
  if d.srcDev then s.byteAt (m.pa + k) else s.padByte w d.syncClu (src + k)

/-- The scratchpad side of a copy lies in the space of its sync word. -/
theorem CpyDir.srcClu_of_pad {d : CpyDir} (h : d.srcDev = false) : d.srcClu = d.syncClu := by
  cases d <;> simp_all [CpyDir.srcDev, CpyDir.srcClu, CpyDir.syncClu, CpyDir.dstClu]
theorem CpyDir.dstClu_of_pad {d : CpyDir} (h : d.dstDev = false) : d.dstClu = d.syncClu := by
  cases d <;> simp_all [CpyDir.dstDev, CpyDir.srcClu, CpyDir.syncClu, CpyDir.dstClu]

theorem physKind_of_not_io {s : State} {m : Mapped} (h : s.isIo m = false) : s.physKind m.pa = .device := by
  simpa [State.isIo] using h

section
variable {s s1 : State} {c : CopyOp} {w : Wave} {g : Guard} {a b y : Src} {desc : Fin 48} {d : CpyDir} {shw : Bool} {src dst : Nat} {m : Mapped}
  (instr : c.instr = .cpy g a b (some y) desc d shw)
include instr

theorem CopyOp.dir_of_cpy : c.dir = (d, shw) := by rw [CopyOp.dir, instr]

/-- The source of a unit is read as it is, and holds no error. -/
theorem copySource_reads (rd : State → Nat → Nat → List Byte) (writes : s.writes = []) (lines : s.lines = [])
    (dev : d.srcDev = true → s.xlate w Want.copyRead src = .ok m ∧ s.bad.contains (m.pa / 64) = false ∧ s.isIo m = false)
    (pad : d.srcDev = false → s.padSpoilt w d.syncClu src 16 = false) :
    ∃ s1 pa, s.copySource rd w c src = .ok (s1, (List.range 16).map (s.sourceByte w d m src), pa) ∧ HomeNoted s s1
      ∧ s.sourceSpoilt w c src pa = false := by
  have dir := CopyOp.dir_of_cpy instr
  unfold State.copySource State.sourceSpoilt State.sourceByte
  rw [dir, instr]
  cases hd : d.srcDev with
  | true =>
    obtain ⟨map, clean, io⟩ := dev hd
    have noted := atHomeOf_noted writes lines w src m
    have read : (s.atHomeOf w src m).copyBytes w m.pa 16 = (List.range 16).map (fun k => s.byteAt (m.pa + k)) := by
      rw [copyBytes_of_no_writes (noted.writes.trans writes), State.bytesAt_eq_map]
      exact List.map_congr_left fun k _ => byteAt_congr noted.sameMaps.mem _
    refine ⟨_, m.pa, ?_, noted, clean⟩
    simp only [map, physKind_of_not_io io, read, if_true]
  | false =>
    have clu := CpyDir.srcClu_of_pad hd
    exact ⟨s, 0, by simp only [clu, Bool.false_eq_true, if_false]; rfl, homeNoted_refl lines, by simp only [clu]; exact pad hd⟩

/-- The destination of a unit takes its bytes. -/
theorem copyWrite_writes (writes : s.writes = []) (noted : HomeNoted s s1) (apart : s.wgsApart) (bs : List Byte)
    (dev : d.dstDev = true → s.xlate w (Want.copyWrite shw) dst = .ok m ∧ s.isIo m = false)
    (pad : d.dstDev = false → ∀ n, n < bs.length → (s.padOf w d.syncClu (dst + n)).isSome = true) :
    ∃ t, s1.copyWrite w c dst bs = .ok t
      ∧ UnitAt s t w d.syncClu (laid s.byteAt d.dstDev m.pa bs) (laid (s.padByte w d.syncClu) (!d.dstDev) dst bs) := by
  have dir := CopyOp.dir_of_cpy instr
  have pads (k : Nat) : s1.padOf w d.syncClu k = s.padOf w d.syncClu k := padOf_congr noted.wgs noted.kept.batches
  unfold State.copyWrite
  rw [dir]
  cases hd : d.dstDev with
  | true =>
    obtain ⟨map, io⟩ := dev hd
    have map1 : s1.xlate w (Want.copyWrite shw) dst = .ok m := (noted.sameMaps.xlate ..).trans map
    have io1 : s1.isIo m = false := by rw [State.isIo, noted.sameMaps.physKind]; exact io
    have noted' := atHomeOf_noted (noted.writes.trans writes) noted.lines w dst m
    simp only [map1, io1, overFrames_of_no_writes (noted'.writes.trans (noted.writes.trans writes)), if_true, Bool.false_eq_true, if_false]
    obtain ⟨s2, hs2⟩ : ∃ s2, s2 = s1.atHomeOf w dst m := ⟨_, rfl⟩
    rw [← hs2] at noted' ⊢
    obtain ⟨s3, hs3⟩ : ∃ s3, s3 = s2.updateLines (s2.sidePlace w.core) m.pa bs := ⟨_, rfl⟩
    rw [← hs3]
    have lines : WorkKept s2 s3 ∧ s3.wgs = s2.wgs ∧ s3.mem = s2.mem := by
      rw [hs3]
      exact ⟨⟨rfl, rfl, rfl, rfl⟩, rfl, rfl⟩
    obtain ⟨kept, wgs⟩ := homeWrite_kept s3 w.uid c.op m.pa bs
    have kept := noted.kept.trans (noted'.kept.trans (lines.1.trans kept))
    have wgs := wgs.trans (lines.2.1.trans (noted'.wgs.trans noted.wgs))
    have mem : (s3.homeWrite w.uid c.op m.pa bs).mem = putBytes s.mem m.pa bs := by
      rw [homeWrite_mem, lines.2.2, noted'.sameMaps.mem, noted.sameMaps.mem]
    refine ⟨_, rfl, kept, fun x => ?_, fun k => ?_, fun k => ?_, by rw [wgs]⟩
    · rw [State.byteAt, mem, get_putBytes]
      simp [laid, State.byteAt]
    · rw [padByte_congr wgs kept.batches]
      simp [laid]
    · rw [padOf_congr wgs kept.batches]
  | false =>
    have clu := CpyDir.dstClu_of_pad hd
    have written := setPad_written (s := s1) (w := w) (clu := d.syncClu) (off := dst) (bs := bs)
      (by rw [State.wgsApart, noted.wgs]; exact apart) fun n hn => by rw [pads]; exact pad hd n hn
    refine ⟨_, by simp only [clu, Bool.false_eq_true, if_false]; rfl, ?_, fun x => ?_, fun k => ?_, fun k => ?_, ?_⟩
    · refine noted.kept.trans ?_
      rw [written.rest]
      exact ⟨rfl, rfl, rfl, rfl⟩
    · simp only [laid, Bool.false_eq_true, false_and, if_false]
      exact byteAt_congr ((State.setPad_mem ..).trans noted.sameMaps.mem) x
    · rw [written.bytes, padByte_congr noted.wgs noted.kept.batches]
      simp [laid]
    · rw [written.seats, pads]
    · rw [written.uids, noted.wgs]

end

/-! ## The unit is moved and counted -/

theorem settleCopy_open {t : State} {c : CopyOp} (copies : t.copies = [c]) (more : c.upto ≠ c.total) : t.settleCopy c.op = t := by
  simp [State.settleCopy, copies, more]

theorem settleCopy_end {t : State} {c : CopyOp} {w : Wave} (copies : t.copies = [c]) (wave : t.wave? c.wave = some w) (last : c.upto = c.total)
    (counted : c.counted = c.upto) (levels : c.levels.isSome = true) :
    t.settleCopy c.op = { t with copies := [] }.putWave (w.complete c.op) := by
  have wave' : ({ t with copies := [] } : State).wave? c.wave = some w := wave
  simp [State.settleCopy, copies, last, counted, levels, wave']

/-- The machine with the bytes of a unit at their destination, its copies of the source updated and the wait of its copy ended. -/
def State.unitMoved (t : State) (w : Wave) (c : CopyOp) (pa : Nat) (data : List Byte) : State :=
  let t1 := if c.dir.1.srcDev then t.updateLines (t.sidePlace w.core) pa data else t
  let t2 := t1.unwait w.uid c.op
  { t2 with choices := t2.choices.drop 1 }

theorem unitMoved_kept (t : State) (w : Wave) (c : CopyOp) (pa : Nat) (data : List Byte) :
    WorkKept t (t.unitMoved w c pa data) ∧ (t.unitMoved w c pa data).wgs = t.wgs ∧ (t.unitMoved w c pa data).mem = t.mem := by
  unfold State.unitMoved
  split <;> exact ⟨⟨rfl, rfl, rfl, rfl⟩, rfl, rfl⟩

section
variable {s s1 t : State} {c : CopyOp} {w : Wave} {pa : Nat} {data : List Byte} (h : UnitReady s c w)
include h

/-- A unit whose bytes have been read and written is counted, and its copy ends with the last. -/
theorem UnitReady.copyUnit (rd : State → Nat → Nat → List Byte)
    (read : s.copySource rd w c (c.unitAt c.upto).1 = .ok (s1, data, pa)) (clean : s.sourceSpoilt w c (c.unitAt c.upto).1 pa = false)
    (wrote : s1.copyWrite w c (c.unitAt c.upto).2 data = .ok t) :
    s.copyUnit rd c.op c.upto = ((t.unitMoved w c pa data).countUnits w c.next false).settleCopy c.op := by
  have found : s.copies.find? (fun x => x.op == c.op) = some c := by simp [h.copies]
  have idle : ¬ c.upto = c.total := Nat.ne_of_lt h.more
  have within : ¬ c.total ≤ c.upto := Nat.not_le.2 h.more
  unfold State.copyUnit
  simp -zeta only [found, h.wave]
  extract_lets restoring u ahead c1
  have resident : restoring = false := by
    unfold restoring
    split
    · next x hx => simp [h.resident x hx]
    · rfl
  rw [if_neg (by simp [h.alive, h.moving, resident]), if_neg (by simp [h.moving]), if_neg idle, if_neg (by simp [h.done, within])]
  rw [if_neg (by simp [ahead, u, h.copyMayRun])]
  simp -zeta only [u, read, clean, wrote, Bool.false_eq_true, if_false]
  extract_lets t1 t2
  have next : c1 = c.next := by
    have none_beyond : c.done.length = 0 := by rw [h.done]; rfl
    unfold c1
    rw [if_pos trivial, none_beyond]
    rfl
  have wait : (s.choices.headD 0 % 2 == 1) = false := by rw [h.choices]; rfl
  have moved : t2 = t1.unwait w.uid c.op := if_pos trivial
  rw [next, wait, moved]
  rfl

end

theorem laid_map (f data : Nat → Byte) (on : Bool) (a n x : Nat) :
    laid f on a ((List.range n).map data) x = if on = true ∧ a ≤ x ∧ x < a + n then data (x - a) else f x := by
  unfold laid
  rw [List.length_map, List.length_range]
  split
  · next inside =>
    have : x - a < n := by omega
    simp [this]
  · rfl

/-- THE UNIT MOVES: its bytes stand at its destination and are counted into the sync word. -/
theorem UnitReady.moves {s : State} {c : CopyOp} {w : Wave} {g : Guard} {a b y : Src} {desc : Fin 48} {d : CpyDir} {shw : Bool}
    {m md : Mapped} {src dst so : Nat} (h : UnitReady s c w) (instr : c.instr = .cpy g a b (some y) desc d shw) (sync : c.sync = some so)
    (unit : c.unitAt c.upto = (src, dst)) (apart : s.wgsApart)
    (word : ∀ n, n < 16 → (s.padOf w d.syncClu (so + n)).isSome = true)
    (srcDev : d.srcDev = true → s.xlate w Want.copyRead src = .ok m ∧ s.bad.contains (m.pa / 64) = false ∧ s.isIo m = false)
    (srcPad : d.srcDev = false → s.padSpoilt w d.syncClu src 16 = false)
    (dstDev : d.dstDev = true → s.xlate w (Want.copyWrite shw) dst = .ok md ∧ s.isIo md = false)
    (dstPad : d.dstDev = false → (∀ n, n < 16 → (s.padOf w d.syncClu (dst + n)).isSome = true) ∧ (dst + 16 ≤ so ∨ so + 16 ≤ dst))
    (rd : State → Nat → Nat → List Byte) :
    ∃ t : State, s.copyUnit rd c.op c.upto = t.settleCopy c.op ∧ t.copies = [c.countedNext] ∧ t.waves = s.waves
      ∧ (∀ x, t.byteAt x = if d.dstDev = true ∧ md.pa ≤ x ∧ x < md.pa + 16 then s.sourceByte w d m src (x - md.pa) else s.byteAt x)
      ∧ (∀ k, t.padByte w d.syncClu k = if d.dstDev = false ∧ dst ≤ k ∧ k < dst + 16 then s.sourceByte w d m src (k - dst)
          else if so ≤ k ∧ k < so + 16 then (syncArrive (s.padBytes w d.syncClu so 16) 16).getD (k - so) 0 else s.padByte w d.syncClu k)
      ∧ t.batches = s.batches := by
  obtain ⟨s1, pa, read, noted, clean⟩ := copySource_reads instr rd h.writes h.lines srcDev srcPad
  obtain ⟨t0, wrote, at0⟩ := copyWrite_writes (m := md) instr h.writes noted apart ((List.range 16).map (s.sourceByte w d m src)) dstDev
    fun hd n hn => (dstPad hd).1 n (by simpa using hn)
  have run := h.copyUnit rd (by rw [unit]; exact read) (by rw [unit]; exact clean) (by rw [unit]; exact wrote)
  obtain ⟨kept, wgs, mem⟩ := unitMoved_kept t0 w c pa ((List.range 16).map (s.sourceByte w d m src))
  obtain ⟨t1, ht1⟩ : ∃ t1, t1 = t0.unitMoved w c pa ((List.range 16).map (s.sourceByte w d m src)) := ⟨_, rfl⟩
  rw [← ht1] at run kept wgs mem
  have at1 : WorkKept s t1 := at0.kept.trans kept
  have pads (k : Nat) : t1.padByte w d.syncClu k
      = laid (s.padByte w d.syncClu) (!d.dstDev) dst ((List.range 16).map (s.sourceByte w d m src)) k :=
    (padByte_congr wgs kept.batches).trans (at0.pads k)
  have word_kept : t1.padBytes w d.syncClu so 16 = s.padBytes w d.syncClu so 16 := padBytes_congr fun i hi => by
    rw [pads, laid_map, if_neg]
    rintro ⟨hd, inside⟩
    have := (dstPad (by simpa using hd)).2
    omega
  have arrive : (syncArrive (s.padBytes w d.syncClu so 16) 16).length = 16 :=
    (syncArrive_spec (by simp [State.padBytes]) 16).1
  rw [h.countUnits at1 sync, CopyOp.dir_of_cpy instr, word_kept] at run
  have written := setPad_written (s := t1) (w := w) (clu := d.syncClu) (off := so) (bs := syncArrive (s.padBytes w d.syncClu so 16) 16)
    (by rw [State.wgsApart, wgs, at0.uids]; exact apart) fun n hn => by
      rw [padOf_congr wgs kept.batches, at0.seats]
      exact word n (arrive ▸ hn)
  obtain ⟨t2, ht2⟩ : ∃ t2, t2 = t1.setPad w d.syncClu so (syncArrive (s.padBytes w d.syncClu so 16) 16) := ⟨_, rfl⟩
  rw [← ht2] at run written
  have same : t2.waves = t1.waves ∧ t2.batches = t1.batches ∧ t2.mem = t1.mem := by
    rw [written.rest]
    exact ⟨rfl, rfl, rfl⟩
  refine ⟨{ t2 with copies := [c.countedNext] }, run, rfl, same.1.trans at1.waves, fun x => ?_, fun k => ?_, same.2.1.trans at1.batches⟩
  · have bytes : ({ t2 with copies := [c.countedNext] } : State).byteAt x = t0.byteAt x := byteAt_congr (same.2.2.trans mem) x
    rw [bytes, at0.bytes, laid_map]
  · have bytes : ({ t2 with copies := [c.countedNext] } : State).padByte w d.syncClu k = t2.padByte w d.syncClu k := padByte_congr rfl rfl
    rw [bytes, written.bytes, pads, laid_map, arrive]
    have disjoint := fun hd => (dstPad hd).2
    cases hd : d.dstDev with
    | true => simp
    | false =>
      have apart := disjoint hd
      simp only [Bool.not_false, true_and]
      by_cases inWord : so ≤ k ∧ k < so + 16
      · have beyond : ¬ (dst ≤ k ∧ k < dst + 16) := by omega
        simp only [inWord, beyond, and_self, if_true, if_false]
      · simp only [inWord, if_false]

/-! ## The scratchpads of a copy -/

/-- The size of scratch or cluster space, and the scratchpads behind it, as the statement has them. -/
def State.padSize (s : State) (w : Wave) (clu : Bool) : Nat :=
  if clu then 2 ^ (s.descOf w).gang * ((s.descOf w).scratch * 32768) else (s.descOf w).scratch * 32768
def State.seatsWhole (s : State) (w : Wave) (wg : Workgroup) (clu : Bool) : Prop :=
  if clu then ∀ k, k < 2 ^ (s.descOf w).gang → ∃ x, s.wgs.find? (fun x => x.gang == w.gang && x.member == k) = some x ∧ x.padBad = []
  else wg.padBad = []

section
variable {s : State} {w : Wave} {wg : Workgroup} {clu : Bool} (hwg : s.wg? w.wg = some wg) (seats : s.seatsWhole w wg clu)
include hwg seats

/-- Each offset of the space is a byte of a scratchpad without an error. -/
theorem padOf_of_seats {o : Nat} (ho : o < s.padSize w clu) : ∃ g x, s.padOf w clu o = some (g, x) ∧ g.padBad = [] := by
  cases clu with
  | false => exact ⟨wg, o, congrArg (Option.map fun g => (g, o)) hwg, seats⟩
  | true =>
    obtain ⟨x, found, whole⟩ := seats (o / (s.descOf w).scratchBytes) (Nat.div_lt_of_lt_mul (Nat.mul_comm .. ▸ ho))
    exact ⟨x, _, congrArg (Option.map fun g => (g, o % (s.descOf w).scratchBytes)) found, whole⟩

theorem seated {o n : Nat} (ho : o + 16 ≤ s.padSize w clu) (hn : n < 16) : (s.padOf w clu (o + n)).isSome = true := by
  obtain ⟨g, x, found, -⟩ := padOf_of_seats (o := o + n) hwg seats (by omega)
  rw [found]
  rfl

theorem unspoilt {o : Nat} (ho : o + 16 ≤ s.padSize w clu) : s.padSpoilt w clu o 16 = false := by
  refine List.any_eq_false.2 fun n hn => ?_
  obtain ⟨g, x, found, whole⟩ := padOf_of_seats (o := o + n) hwg seats (by have := List.mem_range.1 hn; omega)
  simp [found, whole]

end

/-- The directions of the statement, each with its sides in device memory and the space of its sync word. -/
theorem direction_sides {dir : CpyDir × Bool × Bool × Bool} (h : dir ∈ [(.d2s, true, false, false), (.d2c, true, false, true),
    (.s2d, false, true, false), (.c2d, false, true, true), (.d2d, true, true, false)]) :
    ∃ d : CpyDir, dir = (d, d.srcDev, d.dstDev, d.syncClu) := by
  simp only [List.mem_cons, List.not_mem_nil, or_false] at h
  obtain rfl | rfl | rfl | rfl | rfl := h <;> exact ⟨_, rfl⟩

/-- The place of a unit in its walk. -/
theorem unitAt_of_levels {c : CopyOp} {d : CpyDir} {lv : List (Nat × Int × Int)} (dir : c.dir.1 = d) (rows : c.rows = [])
    (levels : c.levels = some lv) (k : Nat) : c.unitAt k = (((c.src + strideSum lv (vectorOf lv k) false) % 2 ^ (if d.srcDev then 64 else 32)).toNat,
      ((c.dst + strideSum lv (vectorOf lv k) true) % 2 ^ (if d.dstDev then 64 else 32)).toNat) := by
  simp only [CopyOp.unitAt, rows, levels, dir, List.isEmpty_nil, if_true, Option.getD_some]
  cases d.srcDev <;> cases d.dstDev <;> rfl

theorem total_of_levels {c : CopyOp} {lv : List (Nat × Int × Int)} (rows : c.rows = []) (levels : c.levels = some lv) :
    c.total = (lv.map (fun x => x.1)).prod := by
  simp only [CopyOp.total, rows, levels, List.isEmpty_nil, if_true, foldl_mul_eq_prod]

theorem exec_copyUnit {s : State} {c : CopyOp} (copies : s.copies = [c]) (k : Nat) :
    exec (.copyUnit c.op k) s = .next (s.copyUnit State.windowRead c.op k) := by
  have named : s.copies.any (fun x => x.op == c.op) = true := by simp [copies]
  exact if_pos named

end Sys2Proof.Machine

section
open Sys2Proof Sys2Proof.Machine

/-- Settles O41: a descriptor by its bytes, a walk by its indices, a sync word by its fields, and a unit by what it reads and writes. -/
theorem copyUnits : Obligations.CopyUnits := by
  refine ⟨fun lv some_level five ok total => ⟨parseLoop_loopOf some_level five ok total, fun k hk => ?_⟩,
    fun bs k h => syncArrive_spec h k, ?_⟩
  · exact ⟨vectorOf_length lv k, vectorOf_lt (fun l hl => (ok l hl).1) k, vectorOf_counts hk⟩
  · intro s c w wg g a b y desc shw so m md bnd lv copies walks wave uid hwg post ops waybill writes lines powered unconf access ptPend tlb
      resident filters alive moving dir hdir
    obtain ⟨d, rfl⟩ := direction_sides hdir
    intro instr sync rows levels hbnd done counted more choices size clu seats src dst data inside hseats
      hso srcDev dstDev srcPad dstPad
    have total : c.total = bnd := (total_of_levels rows levels).trans hbnd
    have ready : UnitReady s c w := ⟨copies, walks, wave, ops, waybill, unconf, writes, lines, choices, powered, resident, alive, moving, done,
      counted, total ▸ more⟩
    obtain ⟨apart, whole⟩ := hseats
    have whole : s.seatsWhole w wg d.syncClu := whole
    have unit : c.unitAt c.upto = (src, dst) := unitAt_of_levels (congrArg Prod.fst (CopyOp.dir_of_cpy instr)) rows levels c.upto
    obtain ⟨t, run, left, waves, bytes, pads, batches⟩ := ready.moves (m := m) (md := md) instr sync unit apart
      (fun n hn => seated hwg whole hso hn) srcDev (fun hd => unspoilt hwg whole (srcPad hd)) dstDev
      (fun hd => ⟨fun n hn => seated hwg whole (dstPad hd).1 hn, (dstPad hd).2⟩) State.windowRead
    have wave' : t.wave? c.wave = some w := by rw [State.wave?, waves]; exact wave
    have run := (exec_copyUnit copies c.upto).trans (congrArg Host.Outcome.next run)
    have total' : c.countedNext.total = bnd := total
    by_cases last : c.upto + 1 = bnd
    · have ends := settleCopy_end left wave' (last.trans total'.symm) rfl (by rw [show c.countedNext.levels = some lv from levels]; rfl)
      refine ⟨_, run.trans (congrArg Host.Outcome.next ends), bytes, fun k _ => ?_, fun h => absurd h (by omega),
        fun _ => ⟨rfl, w.complete c.op, ?_, fun x hx => ?_, rfl⟩⟩
      · exact (padByte_congr rfl rfl).trans (pads k)
      · rw [← uid] at wave' ⊢
        exact wave?_putWave_self { t with copies := [] } (w.complete c.op) w wave'
      · simpa using (List.mem_filter.1 hx).2
    · have goes := settleCopy_open left fun h => last (h.trans total')
      exact ⟨t, run.trans (congrArg Host.Outcome.next goes), bytes, fun k _ => pads k, fun _ => left, fun h => absurd h last⟩

end

/-! The FP32 instructions (R131 to R136): each is one of the shared forms of one, two or three sources. -/

section
open Sys2Proof Sys2Proof.Machine

/-- Settles O7: each instruction writes one register with the value and flags of its operation; FCLASS sets no flag. -/
theorem float32 : Obligations.Float32 := by
  refine ⟨fun s i g d a b sm fm h => ?_, fun s i g d a b c sm fm => ?_, fun s i g d a rnd h => ⟨fun hu => ?_, ?_⟩⟩
  · simp only [List.forall_mem_cons, List.not_mem_nil, false_implies, implies_true, and_true]
    exact ⟨fun hu => op2_completes (f := fun x y => (faddV fp32 sm fm x.toNat y.toNat).w32) rfl h hu,
      fun hu => op2_completes (f := fun x y => (fmulV fp32 sm fm x.toNat y.toNat).w32) rfl h hu,
      fun hu => op2_completes (f := fun x y => (fminmaxV fp32 false sm x.toNat y.toNat).w32) rfl h hu,
      fun hu => op2_completes (f := fun x y => (fminmaxV fp32 true sm x.toNat y.toNat).w32) rfl h hu⟩
  · intro r h hu
    exact op3_completes (f := fun x y z => (ffmaV fp32 sm fm x.toNat y.toNat z.toNat).w32) rfl h hu
  · exact op1_completes (f := fun x => (fp32.roundIntegral rnd x.toNat).w32) rfl h hu
  · exact op1_completes (f := fun x => (BitVec.ofNat 32 (fp32.classify x.toNat), 0)) rfl h (untrapped_satc fun _ => .inl rfl)

end

/-! Rounding (R97, R101, R109): what each mode makes of the bits below the spacing, and the fields of an encoding, whose value
already lies on the format's grid. -/

namespace Sys2Proof.Machine

/-! ## The four modes (R109) -/

theorem roundAt_of_le {q e : Int} (h : q ≤ e) (r : Rnd) (neg : Bool) (m : Nat) :
    roundAt r neg m e q = (m * 2 ^ (e - q).toNat, false) := if_pos h

theorem roundAt_add (r : Rnd) (neg : Bool) (m : Nat) (e : Int) {k : Nat} (hk : 0 < k) : roundAt r neg m e (e + k) =
    (if roundsUp r neg (m / 2 ^ k % 2 == 1) (m % 2 ^ k) (2 ^ (k - 1)) then m / 2 ^ k + 1 else m / 2 ^ k, m % 2 ^ k != 0) := by
  have above : ¬ e + k ≤ e := by omega
  have shift : (e + k - e).toNat = k := by omega
  simp only [roundAt, if_neg above, shift]

/-- Where a mode never steps away from zero, the kept part is the result. -/
theorem roundAt_add_truncates {r : Rnd} {neg : Bool} (stays : ∀ odd rem half, roundsUp r neg odd rem half = false)
    (m : Nat) (e : Int) {k : Nat} (hk : 0 < k) : (roundAt r neg m e (e + k)).1 = m / 2 ^ k := by
  simp [roundAt_add r neg m e hk, stays]

/-- Where a mode steps away from zero whenever a bit is lost, the result is the quotient rounded up. -/
theorem roundAt_add_ceils {r : Rnd} {neg : Bool} (steps : ∀ odd rem half, roundsUp r neg odd rem half = (rem != 0))
    (m : Nat) (e : Int) {k : Nat} (hk : 0 < k) : (roundAt r neg m e (e + k)).1 = (m + 2 ^ k - 1) / 2 ^ k := by
  have hp : 0 < 2 ^ k := Nat.two_pow_pos k
  have pred : (2 ^ k - 1) / 2 ^ k = 0 ∧ (2 ^ k - 1) % 2 ^ k = 2 ^ k - 1 :=
    ⟨Nat.div_eq_of_lt (by omega), Nat.mod_eq_of_lt (by omega)⟩
  rw [roundAt_add r neg m e hk, steps, Nat.add_sub_assoc hp, Nat.add_div hp, pred.1, pred.2]
  by_cases lossless : m % 2 ^ k = 0
  · have short : ¬ 2 ^ k ≤ 2 ^ k - 1 := by omega
    simp [lossless, short]
  · have full : 2 ^ k ≤ m % 2 ^ k + (2 ^ k - 1) := by omega
    simp [lossless, full]

/-- Round to nearest is off by half a step at most, and by half a step only at an even result. -/
theorem roundAt_add_rne (neg : Bool) (m : Nat) (e : Int) {k : Nat} (hk : 0 < k) :
    let n := (roundAt .rne neg m e (e + k)).1
    (2 * (n * 2 ^ k) ≤ 2 * m + 2 ^ k ∧ 2 * m ≤ 2 * (n * 2 ^ k) + 2 ^ k)
    ∧ ((2 * (n * 2 ^ k) = 2 * m + 2 ^ k ∨ 2 * m = 2 * (n * 2 ^ k) + 2 ^ k) → n % 2 = 0) := by
  have split : m / 2 ^ k * 2 ^ k + m % 2 ^ k = m := by rw [Nat.mul_comm]; exact Nat.div_add_mod m _
  have rem_lt : m % 2 ^ k < 2 ^ k := Nat.mod_lt m (Nat.two_pow_pos k)
  have halves : 2 * 2 ^ (k - 1) = 2 ^ k := by rw [← Nat.pow_succ', Nat.succ_eq_add_one, Nat.sub_add_cancel hk]
  rw [roundAt_add .rne neg m e hk]
  by_cases up : roundsUp .rne neg (m / 2 ^ k % 2 == 1) (m % 2 ^ k) (2 ^ (k - 1)) = true
  · rw [if_pos up]
    simp only [roundsUp, Bool.or_eq_true, Bool.and_eq_true, decide_eq_true_eq, beq_iff_eq] at up
    have step : (m / 2 ^ k + 1) * 2 ^ k = m / 2 ^ k * 2 ^ k + 2 ^ k := Nat.succ_mul ..
    dsimp only
    omega
  · rw [if_neg up]
    simp only [roundsUp, Bool.or_eq_true, Bool.and_eq_true, decide_eq_true_eq, beq_iff_eq] at up
    dsimp only
    omega

/-! ## The fields of an encoding (R97) -/

theorem Fmt.signed_fields (f : Fmt) (n : Bool) (ex man : Nat) :
    f.signed n (ex * 2 ^ f.mb + man) = man + 2 ^ f.mb * (ex + 2 ^ f.eb * n.toNat) := by
  cases n <;> simp only [Fmt.signed, Fmt.signBit, Bool.toNat_true, Bool.toNat_false, if_true, Bool.false_eq_true, if_false] <;> ring

theorem Fmt.exists_fields (f : Fmt) {x : Nat} (h : x < 2 ^ (f.eb + f.mb + 1)) :
    ∃ n ex man, ex < 2 ^ f.eb ∧ man < 2 ^ f.mb ∧ x = f.signed n (ex * 2 ^ f.mb + man) := by
  have top : x / 2 ^ f.mb / 2 ^ f.eb < 2 := by
    rw [Nat.div_div_eq_div_mul, ← Nat.pow_add, Nat.add_comm]
    exact Nat.div_lt_of_lt_mul (by rwa [Nat.pow_succ] at h)
  have sign : (decide (x / 2 ^ f.mb / 2 ^ f.eb = 1)).toNat = x / 2 ^ f.mb / 2 ^ f.eb := by
    obtain e | e := Nat.le_one_iff_eq_zero_or_eq_one.1 (Nat.le_of_lt_succ top) <;> simp [e]
  refine ⟨decide (x / 2 ^ f.mb / 2 ^ f.eb = 1), x / 2 ^ f.mb % 2 ^ f.eb, x % 2 ^ f.mb, Nat.mod_lt _ (Nat.two_pow_pos _),
    Nat.mod_lt _ (Nat.two_pow_pos _), ?_⟩
  rw [Fmt.signed_fields, sign, Nat.mod_add_div, Nat.mod_add_div]

section
variable {f : Fmt} {ex man : Nat}

theorem Fmt.signed_mod_mantissa (n : Bool) (hm : man < 2 ^ f.mb) : f.signed n (ex * 2 ^ f.mb + man) % 2 ^ f.mb = man := by
  rw [Fmt.signed_fields, Nat.add_mul_mod_self_left, Nat.mod_eq_of_lt hm]

/-- The bits above the mantissa: the exponent and the sign. -/
theorem Fmt.signed_div_mantissa (n : Bool) (hm : man < 2 ^ f.mb) :
    f.signed n (ex * 2 ^ f.mb + man) / 2 ^ f.mb = ex + 2 ^ f.eb * n.toNat := by
  rw [Fmt.signed_fields, Nat.add_mul_div_left _ _ (Nat.two_pow_pos _), Nat.div_eq_of_lt hm, Nat.zero_add]

theorem Fmt.signed_exponent_field (n : Bool) (he : ex < 2 ^ f.eb) (hm : man < 2 ^ f.mb) :
    f.signed n (ex * 2 ^ f.mb + man) / 2 ^ f.mb % 2 ^ f.eb = ex := by
  rw [Fmt.signed_div_mantissa n hm, Nat.add_mul_mod_self_left, Nat.mod_eq_of_lt he]

theorem Fmt.signed_sign_field (n : Bool) (he : ex < 2 ^ f.eb) (hm : man < 2 ^ f.mb) :
    (f.signed n (ex * 2 ^ f.mb + man) / f.signBit % 2 == 1) = n := by
  rw [Fmt.signBit, Nat.add_comm f.eb, Nat.pow_add, ← Nat.div_div_eq_div_mul, Fmt.signed_div_mantissa n hm,
    Nat.add_mul_div_left _ _ (Nat.two_pow_pos _), Nat.div_eq_of_lt he, Nat.zero_add]
  cases n <;> rfl

end

/-! ## The value of an encoding (R97, R98) -/

/-- The integer mantissa of a finite encoding with these fields. -/
def Fmt.mantissa (f : Fmt) (ex man : Nat) : Nat := if ex = 0 then man else 2 ^ f.mb + man

/-- The power of two that the last mantissa bit of a finite encoding stands for: subnormals share that of the least normals. -/
def Fmt.scale (f : Fmt) (ex : Nat) : Int := (max ex 1 : Nat) - f.bias - f.mb

/-- The largest finite encoding is a normal number, whose value is by its fields. -/
def Fmt.TopIsNormal (f : Fmt) : Prop :=
  0 < f.maxBits / 2 ^ f.mb
  ∧ f.maxFin = (f.mantissa (f.maxBits / 2 ^ f.mb) (f.maxBits % 2 ^ f.mb), f.scale (f.maxBits / 2 ^ f.mb))

theorem Fmt.mantissa_lt (f : Fmt) (ex : Nat) {man : Nat} (hm : man < 2 ^ f.mb) : f.mantissa ex man < 2 ^ (f.mb + 1) := by
  rw [Nat.pow_succ, Fmt.mantissa]
  split <;> omega

theorem Fmt.mantissa_eq_zero {f : Fmt} {ex man : Nat} : f.mantissa ex man = 0 ↔ ex = 0 ∧ man = 0 := by
  have := Nat.two_pow_pos f.mb
  rw [Fmt.mantissa]
  split <;> omega

theorem Fmt.encodeMag_mantissa (f : Fmt) (ex : Nat) {man : Nat} (hm : man < 2 ^ f.mb) :
    f.encodeMag (f.mantissa ex man) (f.scale ex) = ex * 2 ^ f.mb + man := by
  by_cases sub : ex = 0
  · simp [Fmt.encodeMag, Fmt.mantissa, sub, hm]
  · have normal : ¬ 2 ^ f.mb + man < 2 ^ f.mb := by omega
    have field : (f.scale ex + f.mb + f.bias).toNat = ex := by rw [Fmt.scale]; omega
    rw [Fmt.encodeMag, Fmt.mantissa, if_neg sub, if_neg normal, field, Nat.add_sub_cancel_left]

/-- The spacing that rounding chooses for a finite encoding is its own scale. -/
theorem Fmt.spacing_eq_scale (f : Fmt) {ex man : Nat} (hm : man < 2 ^ f.mb) (nonzero : f.mantissa ex man ≠ 0) :
    max (f.scale ex + Nat.log2 (f.mantissa ex man) - f.mb) (f.emin - f.mb) = f.scale ex := by
  have top : Nat.log2 (f.mantissa ex man) < f.mb + 1 := (Nat.log2_lt nonzero).2 (f.mantissa_lt ex hm)
  by_cases sub : ex = 0
  · subst sub
    simp only [Fmt.scale, Fmt.emin]
    omega
  · have normal : f.mb ≤ Nat.log2 (f.mantissa ex man) := (Nat.le_log2 nonzero).2 (by rw [Fmt.mantissa, if_neg sub]; omega)
    simp only [Fmt.scale, Fmt.emin]
    omega

/-- Finite magnitudes are in the order of their encodings: none exceeds that of a normal one whose encoding it does not exceed. -/
theorem Fmt.mantissa_le_of_le (f : Fmt) {ex man ex' man' : Nat} (hm : man < 2 ^ f.mb) (hm' : man' < 2 ^ f.mb) (normal : 0 < ex')
    (h : ex * 2 ^ f.mb + man ≤ ex' * 2 ^ f.mb + man') :
    f.scale ex ≤ f.scale ex' ∧ f.mantissa ex man ≤ f.mantissa ex' man' * 2 ^ (f.scale ex' - f.scale ex).toNat := by
  have he : ex ≤ ex' := by
    by_contra lt
    have := Nat.mul_le_mul_right (2 ^ f.mb) (Nat.lt_of_not_le lt)
    rw [Nat.succ_mul] at this
    omega
  refine ⟨by simp only [Fmt.scale]; omega, ?_⟩
  have own : f.mantissa ex' man' = 2 ^ f.mb + man' := if_neg (Nat.ne_of_gt normal)
  by_cases same : f.scale ex' = f.scale ex
  · rw [same, Int.sub_self, Int.toNat_zero, Nat.pow_zero, Nat.mul_one, own, Fmt.mantissa]
    split
    · omega
    · have : ex = ex' := by simp only [Fmt.scale] at same; omega
      subst this
      omega
  · have apart : 0 < (f.scale ex' - f.scale ex).toNat := by simp only [Fmt.scale] at same ⊢; omega
    calc f.mantissa ex man ≤ 2 ^ f.mb * 2 := (f.mantissa_lt ex hm).le
      _ ≤ f.mantissa ex' man' * 2 ^ (f.scale ex' - f.scale ex).toNat :=
        Nat.mul_le_mul (by omega) (Nat.le_self_pow apart.ne' 2)

theorem Fmt.two_pow_fields (f : Fmt) : 2 ^ (f.eb + f.mb) = (2 ^ f.eb - 1) * 2 ^ f.mb + 2 ^ f.mb := by
  rw [Nat.pow_add, ← Nat.succ_mul, Nat.succ_eq_add_one, Nat.sub_add_cancel Nat.one_le_two_pow]

/-- Below the top exponent every format has numbers alone. -/
theorem Fmt.le_maxBits_of_lt (f : Fmt) {ex man : Nat} (he : ex < 2 ^ f.eb - 1) (hm : man < 2 ^ f.mb) :
    ex * 2 ^ f.mb + man ≤ f.maxBits := by
  have below : ex * 2 ^ f.mb ≤ (2 ^ f.eb - 2) * 2 ^ f.mb := Nat.mul_le_mul_right _ (by omega)
  have next : (2 ^ f.eb - 1) * 2 ^ f.mb = (2 ^ f.eb - 2) * 2 ^ f.mb + 2 ^ f.mb := by rw [← Nat.succ_mul]; congr 1; omega
  have all := f.two_pow_fields
  unfold Fmt.maxBits
  cases f.kind <;> dsimp only <;> omega

/-- The value of an encoding by its fields: a NaN, an infinity where the format has them, or a finite one up to the largest. -/
theorem Fmt.value_signed_cases (f : Fmt) (n : Bool) {ex man : Nat} (he : ex < 2 ^ f.eb) (hm : man < 2 ^ f.mb) :
    (f.value (f.signed n (ex * 2 ^ f.mb + man))).isNan = true
    ∨ (f.value (f.signed n (ex * 2 ^ f.mb + man)) = .inf n ∧ f.hasInf = true ∧ ex * 2 ^ f.mb + man = f.infBits)
    ∨ (f.value (f.signed n (ex * 2 ^ f.mb + man)) = .fin n (f.mantissa ex man) (f.scale ex) ∧ ex * 2 ^ f.mb + man ≤ f.maxBits) := by
  have finite : (if ex = 0 then Fv.fin n man (f.emin - f.mb) else Fv.fin n (2 ^ f.mb + man) (ex - f.bias - f.mb))
      = .fin n (f.mantissa ex man) (f.scale ex) := by
    simp only [Fmt.mantissa, Fmt.scale, Fmt.emin]
    split <;> congr 1 <;> omega
  by_cases top : ex = 2 ^ f.eb - 1
  case neg =>
    refine .inr (.inr ⟨?_, f.le_maxBits_of_lt (by omega) hm⟩)
    simp only [Fmt.value, Fmt.signed_sign_field n he hm, Fmt.signed_exponent_field n he hm, Fmt.signed_mod_mantissa n hm, finite, if_neg top]
  case pos =>
    simp only [Fmt.value, Fmt.signed_sign_field n he hm, Fmt.signed_exponent_field n he hm, Fmt.signed_mod_mantissa n hm, finite, if_pos top]
    cases kind : f.kind with
    | ieee | e5m2 =>
      by_cases infinite : man = 0
      · exact .inr (.inl ⟨if_pos infinite, by simp [Fmt.hasInf, kind], by rw [infinite, top, Fmt.infBits, Nat.add_zero]⟩)
      · exact .inl (by simp only [if_neg infinite, Fv.isNan])
    | e4m3 =>
      by_cases last : man = 2 ^ f.mb - 1
      · exact .inl (by simp only [if_pos last, Fv.isNan])
      · refine .inr (.inr ⟨if_neg last, ?_⟩)
        simp only [Fmt.maxBits, kind, top]
        omega
    | e2m1 =>
      have all := f.two_pow_fields
      refine .inr (.inr ⟨rfl, ?_⟩)
      simp only [Fmt.maxBits, kind, top]
      omega

/-! ## A value on the grid rounds to its encoding (R101, R103, R112) -/

theorem pow2Gt_of_le {n m : Nat} {q e : Int} (h : q ≤ e) (fits : n ≤ m * 2 ^ (e - q).toNat) : pow2Gt n q m e = false := by
  rw [pow2Gt, if_pos h]
  exact decide_eq_false (Nat.not_lt.2 fits)

/-- A magnitude on the grid of the format and not above the largest finite one is rounded exactly, without a flag. -/
theorem Fmt.round_of_fits {f : Fmt} {m : Nat} {e : Int} (spacing : max (e + Nat.log2 m - f.mb) (f.emin - f.mb) = e)
    (scale : e ≤ f.maxFin.2) (fits : m ≤ f.maxFin.1 * 2 ^ (f.maxFin.2 - e).toNat) (r : Rnd) (sat neg : Bool) :
    f.round r sat neg m e = ⟨f.signed neg (f.encodeMag m e), 0⟩ := by
  have fine : e + Nat.log2 m - f.mb ≤ e := (Int.le_max_left ..).trans_eq spacing
  have apart : (f.maxFin.2 - (e + Nat.log2 m - f.mb)).toNat = (f.maxFin.2 - e).toNat + (e - (e + Nat.log2 m - f.mb)).toNat := by
    omega
  have within : pow2Gt (m * 2 ^ (e - (e + Nat.log2 m - f.mb)).toNat) (e + Nat.log2 m - f.mb) f.maxFin.1 f.maxFin.2 = false := by
    refine pow2Gt_of_le (fine.trans scale) ?_
    rw [apart, Nat.pow_add, ← Nat.mul_assoc]
    exact Nat.mul_le_mul_right _ fits
  simp [Fmt.round, roundAt_of_le fine, within, spacing, roundAt_of_le (le_refl e), flIf]

theorem Fmt.convert_value {f : Fmt} (top : f.TopIsNormal) (r : Rnd) {x : Nat} (h : x < 2 ^ (f.eb + f.mb + 1))
    (hn : (f.value x).isNan = false) : f.convert r false (f.value x) = { bits := x, fl := 0 } := by
  obtain ⟨n, ex, man, he, hm, rfl⟩ := f.exists_fields h
  obtain nan | ⟨inf, has, bits⟩ | ⟨fin, le⟩ := f.value_signed_cases n he hm
  · rw [nan] at hn
    cases hn
  · have kind : f.kind ≠ .e2m1 := fun k => by simp [Fmt.hasInf, k] at has
    rw [inf, bits]
    simp [Fmt.convert, has, kind]
  · rw [fin]
    by_cases zero : f.mantissa ex man = 0
    · obtain ⟨hex, hman⟩ := Fmt.mantissa_eq_zero.1 zero
      rw [Fmt.convert, Fmt.roundZ, if_pos zero, hex, hman, Nat.zero_mul]
    · obtain ⟨normal, largest⟩ := top
      obtain ⟨scale, fits⟩ := f.mantissa_le_of_le hm (Nat.mod_lt f.maxBits (Nat.two_pow_pos f.mb)) normal
        (le.trans_eq (Nat.div_add_mod' _ _).symm)
      have rounded := Fmt.round_of_fits (f.spacing_eq_scale hm zero) (by rwa [largest]) (by rwa [largest]) r false n
      rw [Fmt.convert, Fmt.roundZ, if_neg zero, rounded, f.encodeMag_mantissa ex hm]

theorem topIsNormal_of_mem : ∀ f ∈ [fp64, fp32, fp16, bf16, e5m2, e4m3, e2m1], f.TopIsNormal := by
  unfold Fmt.TopIsNormal
  decide

end Sys2Proof.Machine

section
open Sys2Proof Sys2Proof.Machine

/-- Settles O6: each mode by what it does with the lost bits, and each encoding by its fields, whose value lies on the grid. -/
theorem rounding : Obligations.Rounding := by
  refine ⟨fun neg m k e hk => ?_, fun f hf r x h hn => Fmt.convert_value (topIsNormal_of_mem f hf) r h hn⟩
  obtain ⟨nearest, even⟩ := roundAt_add_rne neg m e hk
  refine ⟨fun r => ?_, nearest, even, roundAt_add_truncates (fun _ _ _ => rfl) m e hk, ?_, ?_⟩
  · rw [roundAt_add r neg m e hk]
    exact Bool.eq_iff_iff.2 (by simp)
  · cases neg
    · exact roundAt_add_ceils (fun _ _ _ => rfl) m e hk
    · exact roundAt_add_truncates (fun _ _ _ => rfl) m e hk
  · cases neg
    · exact roundAt_add_truncates (fun _ _ _ => rfl) m e hk
    · exact roundAt_add_ceils (fun _ _ _ => rfl) m e hk

end

/-! The integer instructions (R120 to R128): what each operation makes of its operands, in plain arithmetic. -/

namespace Sys2Proof.Machine

/-! ## The add family (R120) -/

@[simp] theorem wrap32_toInt (x : Word) : wrap32 x.toInt = x := BitVec.ofInt_toInt

@[simp] theorem wrap32_num32 (z : Bool) (x : Word) : wrap32 (num32 z x) = x := by
  cases z
  · exact BitVec.ofInt_toInt
  · exact (BitVec.ofInt_natCast 32 x.toNat).trans (BitVec.ofNat_toNat ..|>.trans (BitVec.setWidth_eq x))

theorem wrap32_add (t u : Int) : wrap32 (t + u) = wrap32 t + wrap32 u := BitVec.ofInt_add t u

theorem wrap32_sub (t u : Int) : wrap32 (t - u) = wrap32 t - wrap32 u := by
  rw [Int.sub_eq_add_neg, wrap32_add, BitVec.sub_eq_add_neg]
  exact congrArg _ BitVec.ofInt_neg

theorem clampInt_eq_boundedTo (lo hi t : Int) :
    (wrap32 (clampInt lo hi t).1, if (clampInt lo hi t).2 then 32 else 0) = boundedTo lo hi t := by
  unfold clampInt boundedTo
  split
  · rfl
  · split <;> rfl

theorem sat32_false (t : Int) : sat32 false t = boundedTo (-(2 ^ 31)) (2 ^ 31 - 1) t := by
  simp only [sat32, Bool.false_eq_true, if_false, clampInt_eq_boundedTo]

theorem sat32_true (t : Int) : sat32 true t = boundedTo 0 (2 ^ 32 - 1) t := by
  simp only [sat32, if_true, clampInt_eq_boundedTo]

theorem boundedTo_of_mem {lo hi t : Int} (h : lo ≤ t) (k : t ≤ hi) : boundedTo lo hi t = (BitVec.ofInt 32 t, 0) := by
  rw [boundedTo, if_neg (Int.not_lt.2 h), if_neg (Int.not_lt.2 k)]

theorem boundedTo_flags (lo hi t : Int) : (boundedTo lo hi t).2 = 0 ∨ (boundedTo lo hi t).2 = 32 := by
  unfold boundedTo
  split
  · exact .inr rfl
  · split
    · exact .inr rfl
    · exact .inl rfl

theorem addRes_flags (m : AddMod) (t : Int) : (addRes m t).2 = 0 ∨ (addRes m t).2 = 32 := by
  cases m with
  | wrap => exact .inl rfl
  | sat =>
    rw [addRes, sat32_false]
    exact boundedTo_flags ..
  | satZ =>
    rw [addRes, sat32_true]
    exact boundedTo_flags ..

theorem iaddV_wrap (x y : Word) : iaddV .wrap x y = (x + y, 0) := by
  simp only [iaddV, addRes, addVal, s32, wrap32_add, wrap32_toInt]

theorem iaddV_sat (x y : Word) : iaddV .sat x y = boundedTo (-(2 ^ 31)) (2 ^ 31 - 1) (x.toInt + y.toInt) := sat32_false _

theorem iaddV_satZ (x y : Word) : iaddV .satZ x y = boundedTo 0 (2 ^ 32 - 1) (x.toNat + y.toNat) := sat32_true _

theorem isubV_wrap (x y : Word) : isubV .wrap x y = (x - y, 0) := by
  simp only [isubV, addRes, addVal, s32, wrap32_sub, wrap32_toInt]

theorem isubV_sat (x y : Word) : isubV .sat x y = boundedTo (-(2 ^ 31)) (2 ^ 31 - 1) (x.toInt - y.toInt) := sat32_false _

/-- A difference of unsigned words is never above its range, and SATC says that it was below. -/
theorem isubV_satZ (x y : Word) : isubV .satZ x y = (BitVec.ofNat 32 (x.toNat - y.toNat), if x.toNat < y.toNat then 32 else 0) := by
  have hx := x.isLt
  simp only [isubV, addRes, addVal, z32, sat32_true]
  by_cases below : x.toNat < y.toNat
  · rw [boundedTo, if_pos (by omega), if_pos below, Nat.sub_eq_zero_of_le below.le]
    rfl
  · rw [boundedTo_of_mem (by omega) (by omega), if_neg below, ← Int.ofNat_sub (Nat.le_of_not_lt below), BitVec.ofInt_natCast]

theorem iadd3V_eq (x y w : Word) : iadd3V x y w = x + y + w := by
  simp only [iadd3V, s32, wrap32_add, wrap32_toInt]

theorem inegV_false (x : Word) : inegV false x = (0 - x, 0) := by
  simp only [inegV, addRes, s32, wrap32_sub, wrap32_toInt]
  rfl

/-- The one word whose opposite is above the range of S32 is its lowest. -/
theorem min_lt_toInt {x : Word} (h : x ≠ 0x80000000) : -(2 ^ 31) < x.toInt := by
  have low := x.le_toInt
  have other : x.toInt ≠ -(2 ^ 31) := fun e => h (BitVec.toInt_inj.1 (e.trans (by decide)))
  omega

theorem inegV_true (x : Word) : inegV true x = if x = 0x80000000 then (0x7FFFFFFF, 32) else (0 - x, 0) := by
  split
  · next lowest => rw [lowest]; decide
  · next other =>
    have low := min_lt_toInt other
    have high := x.toInt_lt
    have wrapped := inegV_false x
    simp only [inegV, addRes, s32, Bool.false_eq_true, if_false, if_true, sat32_false] at wrapped ⊢
    rw [boundedTo_of_mem (by omega) (by omega), ← wrapped, wrap32]

theorem wrap32_natAbs (x : Word) : wrap32 x.toInt.natAbs = if x.toInt < 0 then 0 - x else x := by
  split
  · next neg => rw [Int.ofNat_natAbs_of_nonpos neg.le, ← Int.zero_sub, wrap32_sub, wrap32_toInt]; rfl
  · next pos => rw [Int.natAbs_of_nonneg (Int.not_lt.1 pos), wrap32_toInt]

theorem iabsV_false (x : Word) : iabsV false x = (if x.toInt < 0 then 0 - x else x, 0) := by
  simp only [iabsV, addRes, s32, Bool.false_eq_true, if_false, wrap32_natAbs]

theorem iabsV_true (x : Word) :
    iabsV true x = if x = 0x80000000 then (0x7FFFFFFF, 32) else (if x.toInt < 0 then 0 - x else x, 0) := by
  split
  · next lowest => rw [lowest]; decide
  · next other =>
    have low := min_lt_toInt other
    have high := x.toInt_lt
    simp only [iabsV, addRes, s32, if_true, sat32_false]
    rw [boundedTo_of_mem (by omega) (by omega), ← wrap32_natAbs, wrap32]

theorem iminV_eq (z : Bool) (x y : Word) : iminV z x y = if num32 z x ≤ num32 z y then x else y := by
  change wrap32 (min (num32 z x) (num32 z y)) = _
  rw [Int.min_def, apply_ite wrap32, wrap32_num32, wrap32_num32]

theorem imaxV_eq (z : Bool) (x y : Word) : imaxV z x y = if num32 z x ≤ num32 z y then y else x := by
  change wrap32 (max (num32 z x) (num32 z y)) = _
  rw [Int.max_def, apply_ite wrap32, wrap32_num32, wrap32_num32]

/-! ## Products (R121) -/

theorem low24_eq_mant24 (z : Bool) (x : Word) : low24 z x = mant24 z x := by
  have low : x.extractLsb' 0 24 = BitVec.ofNat 24 x.toNat := BitVec.eq_of_toNat_eq (by simp)
  cases z <;> simp [low24, mant24, low]

theorem extractLsb'_ofInt (n m : Nat) (p : Int) : (BitVec.ofInt (n + m) p).extractLsb' n m = BitVec.ofInt m (p / 2 ^ n) := by
  have quotient : p % 2 ^ (n + m) / 2 ^ n = p / 2 ^ n + 2 ^ m * -(p / 2 ^ (n + m)) := by
    rw [Int.emod_def, Int.pow_add, Int.sub_eq_add_neg, Int.mul_assoc, ← Int.mul_neg, Int.add_mul_ediv_left _ _ (by positivity),
      Int.mul_neg]
  have nonneg : 0 ≤ p % 2 ^ (n + m) := Int.emod_nonneg _ (by positivity)
  apply BitVec.eq_of_toNat_eq
  rw [BitVec.extractLsb'_toNat, BitVec.toNat_ofInt, BitVec.toNat_ofInt, Nat.shiftRight_eq_div_pow]
  apply Int.ofNat_inj.1
  push_cast
  rw [Int.toNat_of_nonneg nonneg, Int.toNat_of_nonneg (Int.emod_nonneg _ (by positivity)), quotient, Int.add_mul_emod_self_left]

theorem imul24V_eq (z : Bool) (x y : Word) : imul24V z x y = BitVec.ofInt 32 (mant24 z x * mant24 z y) := by
  rw [imul24V, low24_eq_mant24, low24_eq_mant24, wrap32]

theorem imul24hV_eq (z : Bool) (x y : Word) : imul24hV z x y = BitVec.ofInt 32 (mant24 z x * mant24 z y / 2 ^ 16) := by
  rw [imul24hV, low24_eq_mant24, low24_eq_mant24]
  exact extractLsb'_ofInt 16 32 _

theorem imulhV_eq (z : Bool) (x y : Word) : imulhV z x y = BitVec.ofInt 32 (num32 z x * num32 z y / 2 ^ 32) :=
  extractLsb'_ofInt 32 32 _

theorem imad24V_eq (z : Bool) (x y w : Word) : imad24V z x y w = BitVec.ofInt 32 (mant24 z x * mant24 z y + w.toInt) := by
  rw [imad24V, low24_eq_mant24, low24_eq_mant24, s32, wrap32]

theorem mul_eq_ofNat (x y : Word) : x * y = BitVec.ofNat 32 (x.toNat * y.toNat) := by
  rw [BitVec.ofNat_mul, BitVec.ofNat_toNat, BitVec.ofNat_toNat, BitVec.setWidth_eq, BitVec.setWidth_eq]

theorem mul_add_eq_ofNat (x y w : Word) : x * y + w = BitVec.ofNat 32 (x.toNat * y.toNat + w.toNat) := by
  rw [BitVec.ofNat_add, ← mul_eq_ofNat, BitVec.ofNat_toNat, BitVec.setWidth_eq]

/-! ## Shifts, fields and bytes (R124, R125, R126) -/

theorem shlV_eq (x y : Word) : shlV x y = BitVec.ofNat 32 (x.toNat * 2 ^ min y.toNat 32) :=
  BitVec.eq_of_toNat_eq (by simp [shlV, Nat.shiftLeft_eq])

theorem shrV_eq (x y : Word) : shrV x y = BitVec.ofNat 32 (x.toNat / 2 ^ min y.toNat 32) := by
  rw [← Nat.shiftRight_eq_div_pow, ← BitVec.toNat_ushiftRight, BitVec.ofNat_toNat, BitVec.setWidth_eq, shrV]

theorem shaV_eq (x y : Word) : shaV x y = BitVec.ofInt 32 (x.toInt / 2 ^ min y.toNat 32) := by
  rw [shaV, BitVec.sshiftRight, Int.shiftRight_eq_div_pow]
  norm_cast

theorem toNat_append_words (b a : Word) : ((b ++ a : Word64)).toNat = b.toNat * 2 ^ 32 + a.toNat := by
  rw [BitVec.toNat_append, ← Nat.shiftLeft_add_eq_or_of_lt a.isLt, Nat.shiftLeft_eq]

theorem shfV_false (x y w : Word) :
    shfV false x y w = BitVec.ofNat 32 ((y.toNat * 2 ^ 32 + x.toNat) / 2 ^ min w.toNat 64) := by
  apply BitVec.eq_of_toNat_eq
  simp only [shfV, Bool.false_eq_true, if_false]
  rw [BitVec.extractLsb'_toNat, BitVec.toNat_ushiftRight, toNat_append_words, Nat.shiftRight_zero, Nat.shiftRight_eq_div_pow,
    BitVec.toNat_ofNat]

theorem shfV_true (x y w : Word) :
    shfV true x y w = BitVec.ofNat 32 ((y.toNat * 2 ^ 32 + x.toNat) * 2 ^ min w.toNat 64 / 2 ^ 32) := by
  apply BitVec.eq_of_toNat_eq
  simp only [shfV, if_true]
  rw [BitVec.extractLsb'_toNat, BitVec.toNat_shiftLeft, toNat_append_words, Nat.shiftLeft_eq, Nat.shiftRight_eq_div_pow,
    BitVec.toNat_ofNat, show 2 ^ 64 = 2 ^ 32 * 2 ^ 32 by rfl, Nat.mod_mul_right_div_self, Nat.mod_mod]

theorem signed_eq_toInt {n : Nat} (hn : n ≠ 0) (x : Nat) : signed n (x % 2 ^ n) = (BitVec.ofNat n x).toInt := by
  have half : 2 ^ n = 2 * 2 ^ (n - 1) := by rw [← Nat.pow_succ', Nat.succ_eq_add_one, Nat.sub_add_cancel (by omega)]
  rw [signed, BitVec.toInt_eq_toNat_cond, BitVec.toNat_ofNat, Nat.mod_mod]
  exact if_congr (by omega) rfl (by norm_cast)

theorem bfeV_false (x y w : Word) : bfeV false x y w
    = BitVec.ofNat 32 (x.toNat / 2 ^ min y.toNat 32 % 2 ^ min w.toNat (32 - min y.toNat 32)) := by
  simp only [bfeV, Bool.false_eq_true, if_false]
  split
  · next empty => rw [empty, Nat.pow_zero, Nat.mod_one]; rfl
  · rfl

theorem bfeV_true (x y w : Word) : bfeV true x y w = if min w.toNat (32 - min y.toNat 32) = 0 then 0
    else BitVec.ofInt 32 (BitVec.ofNat (min w.toNat (32 - min y.toNat 32)) (x.toNat / 2 ^ min y.toNat 32)).toInt := by
  simp only [bfeV, if_true]
  split
  · rfl
  · next wide => rw [signed_eq_toInt wide]

/-- A field of `n` bits at `p` is put in, and every bit outside it is kept. -/
theorem bfiV_eq (x y u w : Word) : bfiV x y u w =
    let p := min u.toNat 32
    let n := min w.toNat (32 - p)
    maskOf (fun k => if p ≤ k ∧ k < p + n then x.getLsbD (k - p) else y.getLsbD k) := by
  ext k hk
  rw [← BitVec.getLsbD_eq_getElem, ← BitVec.getLsbD_eq_getElem, getLsbD_maskOf]
  simp only [bfiV, BitVec.getLsbD_or, BitVec.getLsbD_and, BitVec.getLsbD_not, BitVec.getLsbD_ofNat, Nat.testBit_mul_two_pow,
    Nat.testBit_two_pow_sub_one, Nat.testBit_mod_two_pow, hk, decide_true, Bool.true_and]
  generalize min u.toNat 32 = p
  generalize min w.toNat (32 - p) = n
  by_cases inside : p ≤ k ∧ k < p + n
  · have low : k - p < n := by omega
    simp [inside, low, BitVec.testBit_toNat]
  · have outside : (decide (p ≤ k) && decide (k - p < n)) = false := by
      rw [← Bool.decide_and, decide_eq_false]; omega
    rw [if_neg inside, outside, ← Bool.and_assoc, outside]
    simp

/-- A byte that PRMT selects. -/
theorem prmt_byte (v c : Nat) :
    (if c % 16 < 8 then v / 256 ^ (c % 16 % 8) % 256 else if 128 ≤ v / 256 ^ (c % 16 % 8) % 256 then 255 else 0)
      = if c / 8 % 2 = 0 then v / 256 ^ (c % 8) % 256 else if v / 256 ^ (c % 8) % 256 < 128 then 0 else 255 := by
  rw [Nat.mod_mod_of_dvd c (by decide : 8 ∣ 16)]
  refine if_congr (by omega) rfl ?_
  split <;> split <;> omega

theorem prmtV_eq (x y w : Word) : prmtV x y w =
    let src (j : Nat) : Nat := (y.toNat * 2 ^ 32 + x.toNat) / 256 ^ (w.toNat / 16 ^ j % 8) % 256
    let byte (j : Nat) : Nat := if w.toNat / 16 ^ j / 8 % 2 = 0 then src j else if src j < 128 then 0 else 255
    BitVec.ofNat 32 (byte 0 + byte 1 * 256 + byte 2 * 65536 + byte 3 * 16777216) := by
  simp only [prmtV, prmt_byte, toNat_append_words]
  simp only [Nat.mul_comm]

/-! ## Counts of bits (R126) -/

theorem brevV_eq (x : Word) : brevV x = x.reverse := by
  ext k hk
  rw [brevV, ← BitVec.getLsbD_eq_getElem, getLsbD_maskOf, BitVec.getElem_reverse, BitVec.getMsbD]

theorem popcV_eq (x : Word) : popcV x = BitVec.ofNat 32 ((List.range 32).countP (fun k => x.getLsbD k)) := by
  rw [popcV, countLanes, lanesOf, List.countP_eq_length_filter]

theorem countP_range_lt (n c : Nat) : (List.range n).countP (fun k => decide (k < c)) = min n c := by
  induction n with
  | zero => rw [Nat.zero_min]; rfl
  | succ n ih =>
    rw [List.range_succ, List.countP_append, ih, List.countP_singleton]
    simp only [decide_eq_true_eq]
    split <;> omega

theorem countP_range_le (n c : Nat) : (List.range n).countP (fun k => decide (c ≤ k)) = n - c := by
  induction n with
  | zero => rw [Nat.zero_sub]; rfl
  | succ n ih =>
    rw [List.range_succ, List.countP_append, ih, List.countP_singleton]
    simp only [decide_eq_true_eq]
    split <;> omega

theorem clzV_eq (x : Word) : clzV x = BitVec.ofNat 32 ((List.range 32).countP (fun k => decide (x.toNat < 2 ^ k))) := by
  by_cases zero : x = 0
  · rw [zero]; decide
  · have pos : x.toNat ≠ 0 := fun h => zero (BitVec.eq_of_toNat_eq h)
    have above : ∀ k, x.toNat < 2 ^ k ↔ x.toNat.log2 + 1 ≤ k := fun k => (Nat.log2_lt pos).symm.trans Nat.lt_iff_add_one_le
    simp only [clzV, if_neg zero, above, countP_range_le]
    rw [Nat.sub_add_eq, Nat.sub_right_comm]

theorem mod_two_pow_eq_zero_iff {x n : Nat} : x % 2 ^ n = 0 ↔ ∀ j < n, x.testBit j = false := by
  refine ⟨fun zero j hj => ?_, fun clear => Nat.zero_of_testBit_eq_false fun j => ?_⟩
  · simpa [hj] using congrArg (Nat.testBit · j) zero
  · rw [Nat.testBit_mod_two_pow, Bool.and_eq_false_imp]
    exact fun hj => clear j (of_decide_eq_true hj)

/-- The zero bits below the lowest set bit are those up to which every bit is 0. -/
theorem mod_two_pow_succ_eq_zero_iff {x i : Nat} (one : x.testBit i = true) (below : ∀ j < i, x.testBit j = false) (k : Nat) :
    x % 2 ^ (k + 1) = 0 ↔ k < i := by
  rw [mod_two_pow_eq_zero_iff]
  refine ⟨fun clear => ?_, fun hk j hj => below j (by omega)⟩
  by_contra above
  simp [clear i (by omega)] at one

theorem ctzV_eq (x : Word) : ctzV x = BitVec.ofNat 32 ((List.range 32).countP (fun k => decide (x.toNat % 2 ^ (k + 1) = 0))) := by
  unfold ctzV
  split
  · next i lowest =>
    rw [lowestLane, lanesOf, List.head?_filter, List.find?_range_eq_some] at lowest
    obtain ⟨one, low, below⟩ := lowest
    have zeros := mod_two_pow_succ_eq_zero_iff (x := x.toNat) one fun j hj => by rw [← Bool.not_eq_true']; exact below j hj
    simp only [zeros, countP_range_lt]
    rw [Nat.min_eq_right (List.mem_range.1 low).le]
  · next nothing =>
    have zero : x = 0 := by
      ext k hk
      by_contra one
      obtain ⟨l, lowest, _⟩ := lowestLane_spec (m := x) (l := k) (by simpa [BitVec.getLsbD_eq_getElem hk] using one)
      rw [nothing] at lowest
      cases lowest
    rw [zero]
    decide

/-! ## Addresses and moves (R127, R128) -/

theorem ofInt_shiftLeft (w : Nat) (t : Int) (n : Nat) : BitVec.ofInt w t <<< n = BitVec.ofInt w (t * 2 ^ n) := by
  have power : BitVec.ofInt w (2 ^ n) = BitVec.twoPow w n :=
    BitVec.eq_of_toNat_eq (by rw [BitVec.toNat_twoPow, BitVec.toNat_ofInt]; norm_cast)
  rw [BitVec.shiftLeft_eq_mul_twoPow, BitVec.ofInt_mul, power]

theorem extend64_eq (z : Bool) (b : Word) : (if z then b.zeroExtend 64 else b.signExtend 64) = BitVec.ofInt 64 (num32 z b) := by
  cases z
  · rfl
  · exact (BitVec.ofNat_toNat 64 b).symm.trans (BitVec.ofInt_natCast ..).symm

theorem leaV_eq (n : Nat) (z : Bool) (x : Word64) (b : Word) : leaV n z x b = x + BitVec.ofInt 64 (num32 z b * 2 ^ n) := by
  rw [leaV, extend64_eq, ofInt_shiftLeft]

theorem moviV_true (imm : BitVec 8) : moviV true imm = BitVec.ofNat 32 imm.toNat := (BitVec.ofNat_toNat 32 imm).symm

theorem moviV_false (imm : BitVec 8) : moviV false imm = BitVec.ofInt 32 imm.toInt := rfl

/-! ## Outcomes of compares (R122, R134) -/

theorem combine_rows : ∀ k ∈ ([(.and, and), (.or, or), (.xor, xor)] : List (PCombine × (Bool → Bool → Bool))), combine k.1 = k.2 :=
  List.forall_iff_forall_mem.1 ⟨rfl, rfl, rfl⟩

theorem icmp_rows : ∀ row ∈ ([
      (.eq, fun x y => x == y), (.ne, fun x y => x != y), (.lt, fun x y => decide (x < y)), (.le, fun x y => decide (x ≤ y)),
      (.gt, fun x y => decide (y < x)), (.ge, fun x y => decide (y ≤ x))] : List (ICmp × (Int → Int → Bool))), icmp row.1 = row.2 :=
  List.forall_iff_forall_mem.1 ⟨rfl, rfl, rfl, rfl, rfl, rfl⟩

end Sys2Proof.Machine

/-! The integer words and the compares complete: none of the integer words raises a flag that an enable could meet (R114). -/

namespace Sys2Proof.Machine

theorem untrapped_zero {s : State} {i : Issue} {g : Guard} : Untrapped s i g (fun _ => 0) := untrapped_satc fun _ => .inl rfl

theorem noFlags_eq (rf : RegFile) (q : LaneMask) : noFlags rf = (rf, orLanes q (fun _ => 0)) := by rw [orLanes_zero, noFlags]

section
variable {ins : Instr} {g : Guard} {d : Dst} {a b c : Src} {s : State} {i : Issue}

theorem op1_completes_addRes {m : AddMod} {t : Word → Int} {v : Word → Word × BitVec 6} (e : ∀ x, addRes m (t x) = v x)
    (hx : exec ins s = op1 g d a false (fun x => addRes m (t x)) s) (h : Ready s i false (g.regs ++ a.regs ++ d.regs) d.regs) :
    Completes32 s i g ins d (fun l => v (i.val a l)) :=
  completes32_congr (op1_completes hx h (untrapped_satc fun _ => addRes_flags ..)) fun _ => e _

theorem op1_completes_value {f v : Word → Word} (e : ∀ x, f x = v x) (hx : exec ins s = op1 g d a false (fun x => (f x, 0)) s)
    (h : Ready s i false (g.regs ++ a.regs ++ d.regs) d.regs) : Completes32 s i g ins d (fun l => (v (i.val a l), 0)) :=
  completes32_congr (op1_completes hx h untrapped_zero) fun _ => by rw [e]

theorem op2_completes_addRes {m : AddMod} {t : Word → Word → Int} {v : Word → Word → Word × BitVec 6}
    (e : ∀ x y, addRes m (t x y) = v x y) (hx : exec ins s = op2 g d a b (fun x y => addRes m (t x y)) s)
    (h : Ready s i false (g.regs ++ (a.regs ++ b.regs) ++ d.regs) d.regs) :
    Completes32 s i g ins d (fun l => v (i.val a l) (i.val b l)) :=
  completes32_congr (op2_completes hx h (untrapped_satc fun _ => addRes_flags ..)) fun _ => e _ _

theorem op2_completes_value {f v : Word → Word → Word} (e : ∀ x y, f x y = v x y)
    (hx : exec ins s = op2 g d a b (fun x y => (f x y, 0)) s) (h : Ready s i false (g.regs ++ (a.regs ++ b.regs) ++ d.regs) d.regs) :
    Completes32 s i g ins d (fun l => (v (i.val a l) (i.val b l), 0)) :=
  completes32_congr (op2_completes hx h untrapped_zero) fun _ => by rw [e]

theorem op3_completes_value {f v : Word → Word → Word → Word} (e : ∀ x y w, f x y w = v x y w)
    (hx : exec ins s = op3 g d a b c (fun x y w => (f x y w, 0)) s)
    (h : Ready s i false (g.regs ++ (a.regs ++ b.regs ++ c.regs) ++ d.regs) d.regs) :
    Completes32 s i g ins d (fun l => (v (i.val a l) (i.val b l) (i.val c l), 0)) :=
  completes32_congr (op3_completes hx h untrapped_zero) fun _ => by rw [e]

end

/-! `exec` at the words that are not of the shared forms of one, two or three sources. -/

theorem exec_bfi (g : Guard) (d : Dst) (a b c e : Src) (s : State) : exec (.bfi g d a b c e) s = execBfi g d a b c e s := rfl

theorem exec_isetp (g : Guard) (d : Fin 8) (a b : Src) (c : PComb) (cmp : ICmp) (z : Bool) (k : PCombine) (s : State) :
    exec (.isetp g d a b c cmp z k) s = execIsetp g d a b c cmp z k s := rfl

theorem exec_plop3 (g : Guard) (d a b c : Fin 8) (t : BitVec 8) (s : State) :
    exec (.plop3 g d a b c t) s = execPlop3 g d a b c t s := rfl

theorem exec_sel_word (g : Guard) (d : Dst) (a b : Src) (c : PComb) (s : State) :
    exec (.sel g d a b c false) s = regIssue g (a.regs ++ b.regs ++ pcombRegs c) d.regs false (fun x =>
      noFlags (x.rf.write d x.q (fun l => if x.rf.pcomb c l then a.read x.rf x.lit l else b.read x.rf x.lit l))) s := rfl

theorem exec_sel_wide (g : Guard) (d : Dst) (a b : Src) (c : PComb) (s : State) :
    exec (.sel g d a b c true) s = regIssue g (a.regsRun 2 ++ b.regsRun 2 ++ pcombRegs c) (d.regsRun 2) false (fun x =>
      noFlags (x.rf.write64 d x.q (fun l =>
        if x.rf.pcomb c l then a.read64 x.rf x.lit .zext l else b.read64 x.rf x.lit .zext l))) s := rfl

theorem exec_lea (g : Guard) (d : Dst) (a b : Src) (n : Fin 32) (z : Bool) (s : State) :
    exec (.lea g d a b n z) s = execLea g d a b n z s := rfl

theorem exec_mov_wide (g : Guard) (d : Dst) (a : Src) (s : State) :
    exec (.mov g d a true) s = regIssue g (a.regsRun 2) (d.regsRun 2) false (fun x =>
      noFlags (x.rf.write64 d x.q (fun l => a.read64 x.rf x.lit .zext l))) s := rfl

theorem exec_movi (g : Guard) (d : Dst) (imm : BitVec 8) (z : Bool) (s : State) :
    exec (.movi g d imm z) s = execMovi g d imm z s := rfl

theorem exec_fsetp (g : Guard) (d : Fin 8) (a b : Src) (c : PComb) (cmp : FCompare) (k : PCombine) (s : State) :
    exec (.fsetp g d a b c cmp k) s = execFsetp g d a b c cmp k s := rfl

theorem exec_dsetp (g : Guard) (d : Fin 8) (a b : Src) (c : PComb) (cmp : FCompare) (k : PCombine) (s : State) :
    exec (.dsetp g d a b c cmp k) s = execDsetp g d a b c cmp k s := rfl

theorem exec_hsetp2 (e : Fin 4) (cmp : FCompare) (k : PCombine) (g : Guard) (a b : Src) (c : PComb) (s : State) :
    ∀ row ∈ ([(.hsetp2F16 g e a b c cmp k, fp16), (.hsetp2Bf16 g e a b c cmp k, bf16)] : List (Instr × Fmt)),
      exec row.1 s = hsetp2 row.2 g e a b c cmp k s := List.forall_iff_forall_mem.1 ⟨rfl, rfl⟩

theorem RegFile.orFlags_zero (rf : RegFile) : rf.orFlags 0 = rf := by simp [RegFile.orFlags]

theorem writesPred_writePred (rf : RegFile) (n : Nat) (q : LaneMask) (f : Nat → Bool) : WritesPred rf (rf.writePred n q f) n q f 0 :=
  (rf.writePred n q f).orFlags_zero ▸ writesPred_write rf n q f 0

/-- HSETP2 writes one predicate after the other, each a function of the registers before (R143). -/
theorem hsetp2_completes {f : Fmt} {ins : Instr} {g : Guard} {e : Fin 4} {a b : Src} {c : PComb} {cmp : FCompare} {k : PCombine}
    {s : State} {i : Issue} (hx : exec ins s = hsetp2 f g e a b c cmp k s) :
    let half (l j : Nat) : Bool × BitVec 6 := fcmpV f cmp (elem 16 (i.val a l) j) (elem 16 (i.val b l) j)
    Ready s i false (g.regs ++ (a.regs ++ b.regs ++ predReg c.p) ++ (predReg (2 * e) ++ predReg (2 * e + 1)))
      (predReg (2 * e) ++ predReg (2 * e + 1)) →
    Untrapped s i g (fun l => (half l 0).2 ||| (half l 1).2) →
    Completes s i ins (fun rf => ∃ mid,
      WritesPred i.w.rf mid (2 * e) (i.lanes g) (fun l => combine k (half l 0).1 (i.w.rf.pcomb c l)) 0
      ∧ WritesPred mid rf (2 * e + 1) (i.lanes g) (fun l => combine k (half l 1).1 (i.w.rf.pcomb c l))
          (orLanes (i.lanes g) (fun l => (half l 0).2 ||| (half l 1).2))) := by
  intro half h hu
  exact regIssue_completes hx h hu.no_trap ⟨_, writesPred_writePred .., writesPred_write ..⟩

end Sys2Proof.Machine

section
open Sys2Proof Sys2Proof.Machine

/-- Settles O1: the rows of the add family are sums and differences in their range, the others values without a flag. -/
theorem integerTwoSources : Obligations.IntegerTwoSources := by
  refine fun s i g d a b z h => List.forall_iff_forall_mem.1 ?_
  exact ⟨op2_completes_addRes iaddV_wrap rfl h, op2_completes_addRes iaddV_sat rfl h, op2_completes_addRes iaddV_satZ rfl h,
    op2_completes_addRes isubV_wrap rfl h, op2_completes_addRes isubV_sat rfl h, op2_completes_addRes isubV_satZ rfl h,
    op2_completes_value (imul24V_eq z) rfl h, op2_completes_value (imul24hV_eq z) rfl h, op2_completes_value mul_eq_ofNat rfl h,
    op2_completes_value (imulhV_eq z) rfl h, op2_completes_value (iminV_eq z) rfl h, op2_completes_value (imaxV_eq z) rfl h,
    op2_completes_value shlV_eq rfl h, op2_completes_value shrV_eq rfl h, op2_completes_value shaV_eq rfl h⟩

/-- Settles O2: opposites and absolute values in their range, and reversed and counted bits without a flag. -/
theorem integerOneSource : Obligations.IntegerOneSource := by
  refine fun s i g d a h => List.forall_iff_forall_mem.1 ?_
  exact ⟨op1_completes_addRes inegV_false rfl h, op1_completes_addRes inegV_true rfl h, op1_completes_addRes iabsV_false rfl h,
    op1_completes_addRes iabsV_true rfl h, op1_completes_value brevV_eq rfl h, op1_completes_value popcV_eq rfl h,
    op1_completes_value clzV_eq rfl h, op1_completes_value ctzV_eq rfl h⟩

/-- Settles O3: each row is an operation of three sources with the row's value; BFI reads a fourth. -/
theorem integerThreeSources : Obligations.IntegerThreeSources := by
  refine ⟨fun s i g d a b c z t h => List.forall_iff_forall_mem.1 ?_, fun s i g d a b c e h => ?_⟩
  · exact ⟨op3_completes_value iadd3V_eq rfl h, op3_completes_value (imad24V_eq z) rfl h, op3_completes_value mul_add_eq_ofNat rfl h,
      op3_completes_value (f := lop3V t) (fun _ _ _ => rfl) rfl h, op3_completes_value shfV_false rfl h,
      op3_completes_value shfV_true rfl h, op3_completes_value bfeV_false rfl h, op3_completes_value bfeV_true rfl h,
      op3_completes_value prmtV_eq rfl h⟩
  · exact completes32_congr (reg32_completes (fun l => (bfiV (i.val a l) (i.val b l) (i.val c l) (i.val e l), 0))
      (exec_bfi ..) (noFlags_eq ..) h untrapped_zero) fun _ => by rw [bfiV_eq]

/-- Settles O4: the predicate that each word writes is the compare of its row, combined, or the bit of its table. -/
theorem integerPredicates : Obligations.IntegerPredicates := by
  refine ⟨fun s i g d a b c z h k hk row hrow => ?_, fun s i g d a b c t h => ?_⟩
  · rw [← combine_rows k hk, ← icmp_rows row hrow]
    exact regPred_completes (fun l => (combine k.1 (icmp row.1 (num32 z (i.val a l)) (num32 z (i.val b l))) (i.w.rf.pcomb c l), 0))
      (exec_isetp ..) (noFlags_eq ..) h untrapped_zero
  · exact regPred_completes (fun l =>
      (t.getLsbD ((i.w.rf.pred a l).toNat + 2 * (i.w.rf.pred b l).toNat + 4 * (i.w.rf.pred c l).toNat), 0))
      (exec_plop3 ..) (noFlags_eq ..) h untrapped_zero

/-- Settles O5: selection, addresses, 64-bit addition and moves set no flag. -/
theorem selectMoveAddress : Obligations.SelectMoveAddress := by
  intro s i g d a b c n z imm
  refine ⟨fun h => ?_, fun h => ?_, fun h => ?_, fun h => ⟨?_, ?_⟩, fun h => ?_, fun h => ?_, fun h => ⟨?_, ?_⟩⟩
  · exact reg32_completes (fun l => (if i.w.rf.pcomb c l then i.val a l else i.val b l, 0)) (exec_sel_word ..) (noFlags_eq ..) h
      untrapped_zero
  · exact reg64_completes (fun l => (if i.w.rf.pcomb c l then i.val64 a .zext l else i.val64 b .zext l, 0)) (exec_sel_wide ..)
      (noFlags_eq ..) h untrapped_zero
  · exact completes64_congr (reg64_completes (fun l => (leaV n z (i.val64 a .zext l) (i.val b l), 0)) (exec_lea ..) (noFlags_eq ..) h
      untrapped_zero) fun _ => by rw [leaV_eq]
  · exact op2w_completes (f := fun x y => (iadd64V false x y, 0)) rfl h untrapped_zero
  · exact op2w_completes (f := fun x y => (iadd64V true x y, 0)) rfl h untrapped_zero
  · exact op1_completes (f := fun x => (x, 0)) rfl h untrapped_zero
  · exact reg64_completes (fun l => (i.val64 a .zext l, 0)) (exec_mov_wide ..) (noFlags_eq ..) h untrapped_zero
  · exact completes32_congr (reg32_completes (fun _ => (moviV true imm, 0)) (exec_movi ..) (noFlags_eq ..) h untrapped_zero)
      fun _ => by rw [moviV_true]
  · exact completes32_congr (reg32_completes (fun _ => (moviV false imm, 0)) (exec_movi ..) (noFlags_eq ..) h untrapped_zero)
      fun _ => by rw [moviV_false]

/-- Settles O9: FSETP and DSETP write one compare, combined; HSETP2 writes that of each half. -/
theorem floatCompares : Obligations.FloatCompares := by
  intro s i g d e a b c cmp k hk
  rw [← combine_rows k hk]
  refine ⟨fun h hu => ?_, fun h hu => ?_, fun row hrow => hsetp2_completes (exec_hsetp2 e cmp k.1 g a b c s row hrow)⟩
  · exact regPred_completes (fun l => (combine k.1 (fcmpV fp32 cmp (i.val a l).toNat (i.val b l).toNat).1 (i.w.rf.pcomb c l),
      (fcmpV fp32 cmp (i.val a l).toNat (i.val b l).toNat).2)) (exec_fsetp ..) rfl h hu
  · exact regPred_completes (fun l => (combine k.1 (fcmpV fp64 cmp (i.val64 a .fp l).toNat (i.val64 b .fp l).toNat).1 (i.w.rf.pcomb c l),
      (fcmpV fp64 cmp (i.val64 a .fp l).toNat (i.val64 b .fp l).toNat).2)) (exec_dsetp ..) rfl h hu

end

/-! Packed halves and dot products (R142 to R147): the elements of a register in plain arithmetic. -/

namespace Sys2Proof.Machine

/-! ## Packed halves (R142, R143) -/

theorem elem_lower_half (x : Word) : elem 16 x 0 = x.toNat % 65536 := by
  rw [elem, Nat.mul_zero, Nat.pow_zero, Nat.div_one, show 2 ^ 16 = 65536 by rfl]

theorem elem_upper_half (x : Word) : elem 16 x 1 = x.toNat / 65536 := Nat.mod_eq_of_lt (by omega)

theorem half2_eq (f : Nat → Nat → FpRes) (x y : Word) : half2 f x y
    = pack2 (f (x.toNat % 65536) (y.toNat % 65536)) (f (x.toNat / 65536) (y.toNat / 65536)) := by
  simp only [half2, elem_lower_half, elem_upper_half]

theorem half3_eq (f : Nat → Nat → Nat → FpRes) (x y z : Word) : half3 f x y z
    = pack2 (f (x.toNat % 65536) (y.toNat % 65536) (z.toNat % 65536)) (f (x.toNat / 65536) (y.toNat / 65536) (z.toNat / 65536)) := by
  simp only [half3, elem_lower_half, elem_upper_half]

/-! ## Integer dot products (R144) -/

/-- Element `j` of a register as a natural number or in two's complement (R95). -/
def elemNum (w : Nat) (z : Bool) (x : Word) (j : Nat) : Int :=
  if z then (x.toNat / 2 ^ (w * j) % 2 ^ w : Nat) else (BitVec.ofNat w (x.toNat / 2 ^ (w * j))).toInt

theorem elemInt_eq_elemNum {w : Nat} (hw : w ≠ 0) (z : Bool) (x : Word) (j : Nat) : elemInt w z x j = elemNum w z x j := by
  cases z
  · exact signed_eq_toInt hw _
  · rfl

/-- The accumulator and the products of the elements, added up. -/
def dotNum (n w : Nat) (za zb : Bool) (x y t : Word) : Int :=
  ((List.range n).map (fun j => elemNum w za x j * elemNum w zb y j)).foldl (fun p q => p + q) t.toInt

theorem dotSum_eq_dotNum {w : Nat} (hw : w ≠ 0) (n : Nat) (za zb : Bool) (x y t : Word) :
    dotSum n w za zb x y t = dotNum n w za zb x y t := by
  simp only [dotSum, dotNum, elemInt_eq_elemNum hw, List.foldl_map, s32]

theorem dotV_wrap {w : Nat} (hw : w ≠ 0) (n : Nat) (z mix : Bool) (x y t : Word) :
    dotV n w z false mix x y t = (BitVec.ofInt 32 (dotNum n w z (z != mix) x y t), 0) :=
  congrArg (fun p => (BitVec.ofInt 32 p, 0)) (dotSum_eq_dotNum hw ..)

theorem dotV_sat {w : Nat} (hw : w ≠ 0) (n : Nat) (z mix : Bool) (x y t : Word) :
    dotV n w z true mix x y t = boundedTo (-(2 ^ 31)) (2 ^ 31 - 1) (dotNum n w z (z != mix) x y t) :=
  (sat32_false _).trans (congrArg _ (dotSum_eq_dotNum hw ..))

/-! ## The shared forms, by an equal value -/

section
variable {ins : Instr} {g : Guard} {d : Dst} {a b c : Src} {s : State} {i : Issue}

theorem op2_completes_congr {f v : Word → Word → Word × BitVec 6} (e : ∀ x y, f x y = v x y) (hx : exec ins s = op2 g d a b f s)
    (h : Ready s i false (g.regs ++ (a.regs ++ b.regs) ++ d.regs) d.regs)
    (hu : Untrapped s i g (fun l => (v (i.val a l) (i.val b l)).2)) : Completes32 s i g ins d (fun l => v (i.val a l) (i.val b l)) := by
  obtain rfl : f = v := funext₂ e
  exact op2_completes hx h hu

theorem op3_completes_congr {f v : Word → Word → Word → Word × BitVec 6} (e : ∀ x y z, f x y z = v x y z)
    (hx : exec ins s = op3 g d a b c f s) (h : Ready s i false (g.regs ++ (a.regs ++ b.regs ++ c.regs) ++ d.regs) d.regs)
    (hu : Untrapped s i g (fun l => (v (i.val a l) (i.val b l) (i.val c l)).2)) :
    Completes32 s i g ins d (fun l => v (i.val a l) (i.val b l) (i.val c l)) := by
  obtain rfl : f = v := funext₃ e
  exact op3_completes hx h hu

/-- DOT4F and DOT8F (R145, R146): the scales are bytes of c's registers, the accumulator is what d holds. -/
theorem dotF_completes {f : Fmt} {n w : Nat} {sa sb : Fin 4} {fm : FpMode} (hx : exec ins s = dotF f n w g d a b c sa sb fm s)
    (h : Ready s i false (g.regs ++ (a.regs ++ b.regs ++ c.regsRun 2 ++ d.regs) ++ d.regs) d.regs) :
    let scales (k j l : Nat) : Nat := elem 8 (c.readRun i.w.rf i.c.head.lit none l k) j
    let r (l : Nat) : FpRes := dotFV f n w fm (scales 0 sa l) (scales 1 sb l) (i.val a l) (i.val b l) (i.val (Dst.asSrc d) l)
    Untrapped s i g (fun l => (r l).fl) → Completes32 s i g ins d (fun l => (r l).w32) :=
  fun hu => reg32_completes _ hx rfl h hu

end

end Sys2Proof.Machine

/-! Conversion and packing (R148 to R152). -/

namespace Sys2Proof.Machine

/-! ## CVT (R148 to R150) -/

/-- A register file with other seeds. -/
def RegFile.reseed (rf : RegFile) (m : Map Word) : RegFile := { rf with seed := m }

theorem WritesRun.seed_eq {rf rf' : RegFile} {d : Dst} {n : Nat} {q : LaneMask} {f : Nat → Nat → Word} {fl : BitVec 6}
    (h : WritesRun rf rf' d n q f fl) : rf'.seed = rf.seed := by rw [h.rest]

/-- Seeds put beside a written run and taken back leave the run alone. -/
theorem WritesRun.reseed {rf rf' : RegFile} {d : Dst} {n : Nat} {q : LaneMask} {f : Nat → Nat → Word} {fl : BitVec 6}
    (h : WritesRun rf rf' d n q f fl) (m : Map Word) : WritesRun rf ((rf'.reseed m).reseed rf.seed) d n q f fl := by
  rw [← h.seed_eq]
  exact h

/-- The seeds after a CVT: under .SR each qualifying lane has its next one. -/
def seedsAfter (sr : Bool) (q : LaneMask) (m : Map Word) (f : Nat → Word) : Map Word :=
  if sr then (lanesOf q).foldl (fun m l => Map.put 1 m l (f l)) m else m

theorem get_seedsAfter (sr : Bool) (q : LaneMask) (m : Map Word) (f : Nat → Word) {l : Nat} (hl : l < 32) :
    Map.get 1 (seedsAfter sr q m f) l = if sr = true ∧ q.getLsbD l = true then f l else Map.get 1 m l := by
  cases sr
  · simp [seedsAfter]
  · simp [seedsAfter, Map.get_foldl_put, mem_lanesOf, hl]

/-- What CVT makes of a lane: the destination run as one number, its flags and the next seed. -/
def RegIn.cvtVal (x : RegIn) (a : Src) (dt st : CvtTy) (rnd : Rnd) (sat sr : Bool) (l : Nat) : Nat × BitVec 6 × Word :=
  cvtLane dt st rnd sat sr (runBits a (cvtRun (cvtCount dt st) st.width) x.rf x.lit (cvtWiden st) l) (Map.get 1 x.rf.seed l)

/-- CVT is a register word that writes its run and then the seeds. -/
theorem exec_cvt (g : Guard) (d : Dst) (a : Src) (dt st : CvtTy) (rnd : Rnd) (sat sr : Bool) (s : State) :
    exec (.cvt g d a dt st rnd sat sr) s
      = regIssue g (a.regsRun (cvtRun (cvtCount dt st) st.width) ++ if sr then [.seed] else [])
          (d.regsRun (cvtRun (cvtCount dt st) dt.width) ++ if sr then [.seed] else []) false (fun x =>
        let v := x.cvtVal a dt st rnd sat sr
        let rf := (List.range (cvtRun (cvtCount dt st) dt.width)).foldl
          (fun r k => r.writeRun d k x.q (fun l => BitVec.ofNat 32 ((v l).1 / 2 ^ (32 * k)))) x.rf
        (rf.reseed (seedsAfter sr x.q rf.seed (fun l => (v l).2.2)), orLanes x.q (fun l => (v l).2.1))) s := by
  cases sr <;> rfl

theorem cvt_completes {s : State} {i : Issue} {g : Guard} {d : Dst} {a : Src} {dt st : CvtTy} {rnd : Rnd} {sat sr : Bool} :
    let n := cvtCount dt st
    let v := (i.regIn g).cvtVal a dt st rnd sat sr
    let seed : List RegId := if sr then [.seed] else []
    Ready s i false (g.regs ++ (a.regsRun (cvtRun n st.width) ++ seed) ++ (d.regsRun (cvtRun n dt.width) ++ seed))
      (d.regsRun (cvtRun n dt.width) ++ seed) →
    Untrapped s i g (fun l => (v l).2.1) →
      Completes s i (.cvt g d a dt st rnd sat sr) (fun rf =>
        WritesRun i.w.rf (rf.reseed i.w.rf.seed) d (cvtRun n dt.width) (i.lanes g)
          (fun k l => BitVec.ofNat 32 ((v l).1 / 2 ^ (32 * k))) (orLanes (i.lanes g) (fun l => (v l).2.1))
        ∧ ∀ l, l < 32 → Map.get 1 rf.seed l
            = if sr = true ∧ (i.lanes g).getLsbD l = true then (v l).2.2 else Map.get 1 i.w.rf.seed l) := by
  intro n v seed h hu
  have written := writesRun_fold i.w.rf d (i.lanes g) (fun k l => BitVec.ofNat 32 ((v l).1 / 2 ^ (32 * k))) (cvtRun n dt.width)
  refine regIssue_completes (exec_cvt g d a dt st rnd sat sr s) h hu.no_trap ⟨(writesRun_flags written _).reseed _, fun l hl => ?_⟩
  rw [← written.seed_eq]
  exact get_seedsAfter sr _ _ _ hl

/-! ## PACK (R151) -/

theorem packList_concat (w : Nat) (l : List Nat) (x : Nat) :
    packList w (l ++ [x]) = packList w l + x % 2 ^ w * (2 ^ w) ^ l.length := by
  induction l with
  | nil => simp [packList]
  | cons y t ih =>
    rw [List.cons_append, packList, packList, ih, List.length_cons, Nat.pow_succ]
    ring

/-- Values packed in order are digits of a number to the base `2 ^ w`. -/
theorem packList_map_range (w n : Nat) (f : Nat → Nat) :
    packList w ((List.range n).map f) = (List.range n).foldl (fun t k => t + f k % 2 ^ w * (2 ^ w) ^ k) 0 := by
  induction n with
  | zero => rfl
  | succ n ih =>
    rw [List.range_succ, List.map_append, List.map_singleton, packList_concat, ih, List.length_map, List.length_range,
      List.foldl_append, List.foldl_cons, List.foldl_nil]

/-- Eight 4-bit values in one register, the first lowest. -/
def nibbles (f : Nat → Nat) : Word := BitVec.ofNat 32 ((List.range 8).foldl (fun t k => t + f k % 16 * 16 ^ k) 0)

theorem packList_nibbles (f : Nat → Nat) : BitVec.ofNat 32 (packList 4 ((List.range 8).map f)) = nibbles f :=
  congrArg (BitVec.ofNat 32) (packList_map_range 4 8 f)

theorem nibbles_congr {f h : Nat → Nat} (e : ∀ k, f k % 16 = h k % 16) : nibbles f = nibbles h := by
  simp only [nibbles, e]

theorem clampInt_fst {lo hi : Int} (h : lo ≤ hi) (t : Int) : (clampInt lo hi t).1 = max lo (min hi t) := by
  unfold clampInt
  split
  · omega
  · split <;> simp only <;> omega

theorem clampInt_snd (lo hi t : Int) : (clampInt lo hi t).2 = decide (t < lo ∨ hi < t) := by
  unfold clampInt
  split
  · next below => simp [below]
  · next least =>
    split
    · next above => simp [above]
    · next most => simp [least, most]

theorem wrap_nibble (t : Int) (h : -16 ≤ t) : wrap 4 t % 16 = (t + 16).toNat % 16 := by
  unfold wrap
  omega

theorem nibble_s4sat (x : Word) :
    wrap 4 (clampInt (-8) 7 (s32 x)).1 % 16 = (max (-8) (min 7 x.toInt) + 16).toNat % 16 := by
  rw [clampInt_fst (by decide), wrap_nibble _ (by omega), s32]

theorem nibble_z4sat (x : Word) : wrap 4 (clampInt 0 15 (z32 x)).1 % 16 = min 15 x.toNat % 16 := by
  rw [clampInt_fst (by decide), wrap_nibble _ (by omega), z32]
  omega

theorem satc_z4sat (x : Word) : (clampInt 0 15 (z32 x)).2 = decide (15 < x.toNat) := by
  rw [clampInt_snd, z32]
  exact decide_eq_decide.2 (by omega)

/-- SATC is raised under no enable. -/
theorem untrapped_flIf_satc {s : State} {i : Issue} {g : Guard} {c : Nat → Bool} : Untrapped s i g (fun l => flIf (c l) flSATC) :=
  untrapped_satc fun l => by cases c l <;> simp [flIf, flSATC]

theorem exec_pack_h16 (g : Guard) (d : Dst) (a b : Src) (s : State) : exec (.pack g d (.h16 a b)) s
    = op2 g d a b (fun x y => (BitVec.ofNat 32 (packList 16 [x.toNat, y.toNat]), 0)) s := rfl

theorem exec_pack_b8 (g : Guard) (d : Dst) (a b c e : Src) (s : State) : exec (.pack g d (.b8 a b c e)) s
    = regIssue g (a.regs ++ b.regs ++ c.regs ++ e.regs) d.regs false (fun x =>
        noFlags (x.rf.write d x.q (fun l => BitVec.ofNat 32 (packList 8 [(a.read x.rf x.lit l).toNat, (b.read x.rf x.lit l).toNat,
          (c.read x.rf x.lit l).toNat, (e.read x.rf x.lit l).toNat])))) s := rfl

theorem exec_pack_n4 (g : Guard) (d : Dst) (a : Src) (s : State) : exec (.pack g d (.n4 a)) s
    = regIssue g (a.regsRun 8) d.regs false (fun x => noFlags (x.rf.write d x.q (fun l =>
        BitVec.ofNat 32 (packList 4 ((List.range 8).map (fun k => (a.readRun x.rf x.lit none l k).toNat)))))) s := rfl

section
variable {s : State} {i : Issue} {g : Guard} {d : Dst} {a b c e : Src}

theorem pack_h16_completes (h : Ready s i false (g.regs ++ (a.regs ++ b.regs) ++ d.regs) d.regs) :
    Completes32 s i g (.pack g d (.h16 a b)) d (fun l =>
      (BitVec.ofNat 32 ((i.val a l).toNat % 65536 + 65536 * ((i.val b l).toNat % 65536)), 0)) :=
  op2_completes_value (v := fun x y => BitVec.ofNat 32 (x.toNat % 65536 + 65536 * (y.toNat % 65536))) (fun x y => by simp [packList])
    (exec_pack_h16 g d a b s) h

theorem pack_b8_completes (h : Ready s i false (g.regs ++ (a.regs ++ b.regs ++ c.regs ++ e.regs) ++ d.regs) d.regs) :
    Completes32 s i g (.pack g d (.b8 a b c e)) d (fun l =>
      (BitVec.ofNat 32 ((i.val a l).toNat % 256 + 256 * ((i.val b l).toNat % 256 + 256 * ((i.val c l).toNat % 256
        + 256 * ((i.val e l).toNat % 256)))), 0)) :=
  completes32_congr (reg32_completes (fun l => (BitVec.ofNat 32 (packList 8 [(i.val a l).toNat, (i.val b l).toNat, (i.val c l).toNat,
    (i.val e l).toNat]), 0)) (exec_pack_b8 g d a b c e s) (noFlags_eq ..) h untrapped_zero) fun _ => by simp [packList]

variable (h : Ready s i false (g.regs ++ a.regsRun 8 ++ d.regs) d.regs)
include h

theorem pack_n4_completes : Completes32 s i g (.pack g d (.n4 a)) d (fun l =>
    (nibbles (fun k => (a.readRun i.w.rf i.c.head.lit none l k).toNat), 0)) :=
  completes32_congr (reg32_completes (fun l => (BitVec.ofNat 32 (packList 4 ((List.range 8).map fun k =>
    (a.readRun i.w.rf i.c.head.lit none l k).toNat)), 0)) (exec_pack_n4 g d a s) (noFlags_eq ..) h untrapped_zero) fun _ => by
      rw [packList_nibbles]

/-- PACK's two saturating forms: eight values, each clamped, and SATC where one of them lay outside. -/
theorem pack_sat_completes {form : PackForm} {r : Word → Int × Bool}
    (hx : exec (.pack g d form) s = regIssue g (a.regsRun 8) d.regs false (fun x =>
      let c (l k : Nat) := r (a.readRun x.rf x.lit none l k)
      (x.rf.write d x.q (fun l => BitVec.ofNat 32 (packList 4 ((List.range 8).map (fun k => wrap 4 (c l k).1)))),
        orLanes x.q (fun l => flIf ((List.range 8).any (fun k => (c l k).2)) flSATC))) s)
    {n : Word → Nat} (hn : ∀ x, wrap 4 (r x).1 % 16 = n x % 16) {out : Word → Bool} (hout : ∀ x, (r x).2 = out x) :
    Completes32 s i g (.pack g d form) d (fun l => (nibbles (fun k => n (a.readRun i.w.rf i.c.head.lit none l k)),
      if (List.range 8).any (fun k => out (a.readRun i.w.rf i.c.head.lit none l k)) then 32 else 0)) := by
  refine completes32_congr (reg32_completes (fun l =>
    (BitVec.ofNat 32 (packList 4 ((List.range 8).map fun k => wrap 4 (r (a.readRun i.w.rf i.c.head.lit none l k)).1)),
      flIf ((List.range 8).any fun k => (r (a.readRun i.w.rf i.c.head.lit none l k)).2) flSATC)) hx rfl h untrapped_flIf_satc) fun l => ?_
  simp only [packList_nibbles, nibbles_congr fun _ => hn _, hout, flIf, flSATC]

end

/-! ## UNPACK (R152) -/

theorem unpack_value {w : Nat} (hw : w ≠ 0) (z : Bool) (x : Word) (k : Nat) :
    (if z then BitVec.ofInt 32 (signed w (elem w x k)) else BitVec.ofNat 32 (elem w x k))
      = let e : BitVec w := BitVec.ofNat w (x.toNat / 2 ^ (w * k))
        if z then BitVec.ofInt 32 e.toInt else BitVec.ofNat 32 e.toNat := by
  cases z
  · rfl
  · exact congrArg (BitVec.ofInt 32) (signed_eq_toInt hw _)

theorem unpackShape_pos (f : UnpackForm) : (unpackShape f).1 ≠ 0 := by cases f <;> decide

theorem unpack_run (f : UnpackForm) : f.run = 32 / (unpackShape f).1 := by cases f <;> rfl

theorem exec_unpack (g : Guard) (d : Dst) (a : Src) (f : UnpackForm) (s : State) :
    exec (.unpack g d a f) s = regIssue g a.regs (d.regsRun f.run) false (fun x =>
      noFlags ((List.range f.run).foldl (fun r k => r.writeRun d k x.q (fun l =>
        if (unpackShape f).2 then BitVec.ofInt 32 (signed (unpackShape f).1 (elem (unpackShape f).1 (a.read x.rf x.lit l) k))
        else BitVec.ofNat 32 (elem (unpackShape f).1 (a.read x.rf x.lit l) k))) x.rf)) s := rfl

theorem unpack_completes {s : State} {i : Issue} {g : Guard} {d : Dst} {a : Src} (f : UnpackForm)
    (h : Ready s i false (g.regs ++ a.regs ++ d.regsRun f.run) (d.regsRun f.run)) :
    Completes s i (.unpack g d a f) (fun rf => WritesRun i.w.rf rf d f.run (i.lanes g) (fun k l =>
      let x : BitVec (unpackShape f).1 := BitVec.ofNat _ ((i.val a l).toNat / 2 ^ ((unpackShape f).1 * k))
      if (unpackShape f).2 then BitVec.ofInt 32 x.toInt else BitVec.ofNat 32 x.toNat) 0) := by
  refine regIssue_completes (exec_unpack g d a f s) h (no_trap_zero _) ?_
  exact writesRun_congr (writesRun_flags (writesRun_fold ..) 0) fun k l _ => unpack_value (unpackShape_pos f) _ (i.val a l) k

end Sys2Proof.Machine

section
open Sys2Proof Sys2Proof.Machine

/-- Settles O10: packed halves and dot products are of the shared forms of two and three sources; a scaled dot also reads its
destination. -/
theorem packedAndDotProducts : Obligations.PackedAndDotProducts := by
  refine ⟨fun s i g d a b sm fm e8 h => List.forall_iff_forall_mem.1 ?_,
    fun s i g d a b c sm fm mix h => List.forall_iff_forall_mem.1 ?_,
    fun s i g d a b c sa sb fm h => List.forall_iff_forall_mem.1 ?_⟩
  · exact ⟨op2_completes_congr (half2_eq _) rfl h, op2_completes_congr (half2_eq _) rfl h, op2_completes_congr (half2_eq _) rfl h,
      op2_completes_congr (half2_eq _) rfl h, op2_completes_congr (half2_eq _) rfl h, op2_completes_congr (half2_eq _) rfl h,
      op2_completes_congr (half2_eq _) rfl h, op2_completes_congr (half2_eq _) rfl h,
      op2_completes (f := fun x y => (scaleV e8 fm x y).w32) rfl h⟩
  · have four : 4 ≠ 0 := by decide
    have eight : 8 ≠ 0 := by decide
    exact ⟨op3_completes_congr (half3_eq _) rfl h, op3_completes_congr (half3_eq _) rfl h,
      op3_completes_congr (dotV_wrap eight 4 false mix) rfl h, op3_completes_congr (dotV_wrap eight 4 true mix) rfl h,
      op3_completes_congr (dotV_wrap four 8 false mix) rfl h, op3_completes_congr (dotV_wrap four 8 true mix) rfl h,
      op3_completes_congr (dotV_sat eight 4 false mix) rfl h, op3_completes_congr (dotV_sat eight 4 true mix) rfl h,
      op3_completes_congr (dotV_sat four 8 false mix) rfl h, op3_completes_congr (dotV_sat four 8 true mix) rfl h⟩
  · exact ⟨dotF_completes rfl h, dotF_completes rfl h, dotF_completes rfl h⟩

/-- Settles O11: CVT writes its run and then the seeds, PACK is one register, and UNPACK a run of elements. -/
theorem convertAndPack : Obligations.ConvertAndPack := by
  refine ⟨fun s i g d a dt st rnd sat sr h hu => ?_, fun s i g d a b c e => ⟨pack_h16_completes, pack_b8_completes, fun h => ?_⟩,
    fun s i g d a row hrow h => ?_⟩
  · exact cvt_completes h hu
  · intro x nib
    exact ⟨pack_n4_completes h, pack_sat_completes h rfl nibble_s4sat fun _ => clampInt_snd ..,
      pack_sat_completes h (r := fun x => clampInt 0 15 (z32 x)) rfl nibble_z4sat satc_z4sat⟩
  · have shapes : ∀ row ∈ ([(.z16, 16, false), (.s16, 16, true), (.z8, 8, false), (.s8, 8, true), (.z4, 4, false), (.s4, 4, true)]
        : List (UnpackForm × Nat × Bool)), unpackShape row.1 = row.2 := by decide
    obtain ⟨f, shape⟩ := row
    obtain rfl : unpackShape f = shape := shapes _ hrow
    rw [← unpack_run f] at h ⊢
    exact unpack_completes f h

end
